-- ==== Sys2Proof/Word.lean ====
section
/-! DEFINITION. The plain word types of the model: a 32-bit lane value, a byte and a 64-bit word (00 R6, 04 R53, 16 R240). -/

namespace Sys2Proof

/-- A 32-bit register value of one lane, or of a scalar register (00 R11). -/
abbrev Word := BitVec 32

/-- One byte of memory (00 R6). -/
abbrev Byte := BitVec 8

/-- A 64-bit word: an instruction word (16 R240) or a device register word. -/
abbrev Bits64 := BitVec 64

/-- A run of bytes, lowest address first (00 R6). -/
abbrev Bytes := List Byte

end Sys2Proof
end

