-- ==== Sys2Proof/Machine/Flags.lean ====
section
/-! DEFINITION. Number formats, the rounding function and the sticky flags it sets (15 R221 to R234, R238, R239). Every
float, conversion and saturating result of the device goes through this file: operands become exact numbers, the
operation is exact, and one rounding narrows the result. -/

namespace Sys2Proof.Machine

/-! ## Flags (15 R231) -/

/-- The 8 sticky flag bits of a lane. -/
abbrev LaneFlags := BitVec 8

/-- INVALID, bit 0. -/
def fINVALID : LaneFlags := 0x01#8
/-- DIVZERO, bit 1. -/
def fDIVZERO : LaneFlags := 0x02#8
/-- OVERFLOW, bit 2. -/
def fOVERFLOW : LaneFlags := 0x04#8
/-- UNDERFLOW, bit 3. -/
def fUNDERFLOW : LaneFlags := 0x08#8
/-- INEXACT, bit 4. -/
def fINEXACT : LaneFlags := 0x10#8
/-- SAT, bit 5. -/
def fSAT : LaneFlags := 0x20#8
/-- NANCVT, bit 6. -/
def fNANCVT : LaneFlags := 0x40#8

/-- The flag f where a condition holds. -/
def flagIf (c : Bool) (f : LaneFlags) : LaneFlags := if c then f else 0#8

/-! ## Exact numbers -/

/-- What a code of a format stands for: a NaN (signalling or quiet), an infinity, or (-1)^neg n/d with d above 0, where a
zero keeps its sign (15 R222, R223). An invalid operation is written as a signalling NaN, which `round` reports. -/
inductive FltNum where
  | nan (signalling : Bool)
  | inf (neg : Bool)
  | fin (neg : Bool) (n d : Nat)
  deriving DecidableEq, Repr, Inhabited

/-- The number is a NaN. -/
def FltNum.isNan : FltNum → Bool
  | .nan _ => true
  | _ => false

/-- The number is a signalling NaN, or stands for an invalid operation. -/
def FltNum.isSig : FltNum → Bool
  | .nan s => s
  | _ => false

/-- The number is a zero. -/
def FltNum.isZero : FltNum → Bool
  | .fin _ n _ => n == 0
  | _ => false

/-- The sign of a number; a NaN has none. -/
def FltNum.neg : FltNum → Bool
  | .nan _ => false
  | .inf s => s
  | .fin s _ _ => s

/-- Change of sign; NaNs stay NaNs (17 R271). -/
def FltNum.negate : FltNum → FltNum
  | .nan s => .nan s
  | .inf s => .inf (!s)
  | .fin s n d => .fin (!s) n d

/-- The number of an integer; zero is +0. -/
def FltNum.ofInt (x : Int) : FltNum := .fin (decide (x < 0)) x.natAbs 1

/-- The magnitude n/d raised by 2^e. -/
def FltNum.scale2 (e : Int) : FltNum → FltNum
  | .fin s n d => if 0 ≤ e then .fin s (n * 2 ^ e.toNat) d else .fin s n (d * 2 ^ (-e).toNat)
  | x => x

/-- The order of two numbers that are not NaNs, with -0 = +0: x is below y. -/
def FltNum.lt : FltNum → FltNum → Bool
  | .nan _, _ => false
  | _, .nan _ => false
  | .inf a, .inf b => a && !b
  | .inf a, .fin _ _ _ => a
  | .fin _ _ _, .inf b => !b
  | .fin a n d, .fin b m e =>
    let x : Int := if a then -((n * e : Nat) : Int) else ((n * e : Nat) : Int)
    let y : Int := if b then -((m * d : Nat) : Int) else ((m * d : Nat) : Int)
    x < y

/-- The order of 17 R272, which puts -0 below +0. -/
def FltNum.ltSigned (x y : FltNum) : Bool := x.lt y || (x.isZero && y.isZero && x.neg && !y.neg)

/-- Exact product; 0 times an infinity is invalid (15 R230). -/
def mulN : FltNum → FltNum → FltNum
  | .nan s, y => .nan (s || y.isSig)
  | x, .nan s => .nan (s || x.isSig)
  | .inf a, .inf b => .inf (a != b)
  | .inf a, .fin b m _ => if m = 0 then .nan true else .inf (a != b)
  | .fin a n _, .inf b => if n = 0 then .nan true else .inf (a != b)
  | .fin a n d, .fin b m e => .fin (a != b) (n * m) (d * e)

/-- Sum of two finite magnitudes with signs, over a common denominator; the sign of a zero is chosen by the caller. -/
def addFin (a : Bool) (n d : Nat) (b : Bool) (m e : Nat) : Bool × Nat × Nat :=
  let dd := if d = e then d else if d % e = 0 then d else if e % d = 0 then e else d * e
  let x := n * (dd / d)
  let y := m * (dd / e)
  if a = b then (a, x + y, dd) else if y ≤ x then (a, x - y, dd) else (b, y - x, dd)

/-- Exact sum of two numbers. An exact zero sum is +0, or -0 in mode RD; the sum of two -0 is -0 in every mode (15 R230). -/
def addN (rd : Bool) : FltNum → FltNum → FltNum
  | .nan s, y => .nan (s || y.isSig)
  | x, .nan s => .nan (s || x.isSig)
  | .inf a, .inf b => if a = b then .inf a else .nan true
  | .inf a, .fin _ _ _ => .inf a
  | .fin _ _ _, .inf b => .inf b
  | .fin a n d, .fin b m e =>
    match addFin a n d b m e with
    | (s, t, dd) => if t = 0 then .fin (rd || (a && b && n == 0 && m == 0)) 0 1 else .fin s t dd

/-- An infinity of a sign. -/
def FltNum.isInfOf (n : Bool) : FltNum → Bool
  | .inf a => a == n
  | _ => false

/-- Exact sum of a list; the empty sum is +0. A sum whose operands are all -0 is -0, and a sum that holds +∞ and -∞ is invalid
whatever else it holds (15 R230, 17 R276). -/
def sumN (rd : Bool) (xs : List FltNum) : FltNum :=
  if xs.any (FltNum.isInfOf true) && xs.any (FltNum.isInfOf false) then .nan true
  else match xs with
    | [] => .fin false 0 1
    | x :: r => r.foldl (addN rd) x

/-- Exact quotient with the DIVZERO flag of 15 R230. -/
def divN : FltNum → FltNum → FltNum × LaneFlags
  | .nan s, y => (.nan (s || y.isSig), 0#8)
  | x, .nan s => (.nan (s || x.isSig), 0#8)
  | .inf _, .inf _ => (.nan true, 0#8)
  | .inf a, .fin b _ _ => (.inf (a != b), 0#8)
  | .fin a _ _, .inf b => (.fin (a != b) 0 1, 0#8)
  | .fin a n d, .fin b m e =>
    if m = 0 then if n = 0 then (.nan true, 0#8) else (.inf (a != b), fDIVZERO)
    else (.fin (a != b) (n * e) (d * m), 0#8)

/-- The integer square root, by binary digits: fuel is at least half the number of bits of n. -/
def isqrt : Nat → Nat → Nat
  | 0, _ => 0
  | k + 1, n => let r := 2 * isqrt k (n / 4); if (r + 1) * (r + 1) ≤ n then r + 1 else r

/-- The square root of n/d as a number that rounds as the exact root does in every format of at most 53 bits: at least 64
significant bits, and one further half unit where the root is not exact. -/
def sqrtQ (n d : Nat) : FltNum :=
  if n = 0 then .fin false 0 1 else
  let k := 80 + Nat.log2 d
  let q := n * 2 ^ (2 * k) / d
  let r := isqrt (Nat.log2 q / 2 + 2) q
  if r * r * d = n * 2 ^ (2 * k) then .fin false r (2 ^ k) else .fin false (2 * r + 1) (2 ^ (k + 1))

/-! ## Rounding to an integer -/

/-- Rounding modes (16 R245, 15 R227). -/
inductive RMode where
  | rne | rtz | rd | ru
  deriving DecidableEq, Repr, Inhabited

/-- Mode of a two-bit code. -/
def rmodeOf (c : Nat) : RMode :=
  match c % 4 with
  | 0 => .rne | 1 => .rtz | 2 => .rd | _ => .ru

/-- The magnitude n/d rounded to an integer, for a number of the given sign: nearest with ties to even, toward zero, down
or up (15 R229). -/
def roundMag (m : RMode) (neg : Bool) (n d : Nat) : Nat :=
  let q := n / d
  let r := n % d
  match m with
  | .rtz => q
  | .rd => if neg && r != 0 then q + 1 else q
  | .ru => if !neg && r != 0 then q + 1 else q
  | .rne => if 2 * r > d || (2 * r == d && q % 2 == 1) then q + 1 else q

/-! ## Formats (15 R221 to R226) -/

/-- The three families of formats. -/
inductive FKind where
  | ieee | z | int | uint
  deriving DecidableEq, Repr, Inhabited

/-- A format: its family, width, fraction bits and bias. -/
structure Fmt where
  kind : FKind
  width : Nat
  frac : Nat
  bias : Nat
  deriving DecidableEq, Repr, Inhabited

/-- FP32. -/
def fp32 : Fmt := ⟨.ieee, 32, 23, 127⟩
/-- FP64. -/
def fp64 : Fmt := ⟨.ieee, 64, 52, 1023⟩
/-- FP16. -/
def fp16 : Fmt := ⟨.ieee, 16, 10, 15⟩
/-- BF16. -/
def bf16 : Fmt := ⟨.ieee, 16, 7, 127⟩
/-- E4M3z. -/
def e4m3z : Fmt := ⟨.z, 8, 3, 8⟩
/-- E5M2z. -/
def e5m2z : Fmt := ⟨.z, 8, 2, 16⟩
/-- E2M1z. -/
def e2m1z : Fmt := ⟨.z, 4, 1, 2⟩
/-- A signed integer of n bits. -/
def intFmt (n : Nat) : Fmt := ⟨.int, n, 0, 0⟩
/-- UINT8. -/
def uint8Fmt : Fmt := ⟨.uint, 8, 0, 0⟩

/-- The format of a code of 15 R221; 0xD to 0xF are reserved. -/
def fmtOf (c : Nat) : Option Fmt :=
  match c with
  | 0x0 => some fp32 | 0x1 => some fp64 | 0x2 => some fp16 | 0x3 => some bf16
  | 0x4 => some e4m3z | 0x5 => some e5m2z | 0x6 => some e2m1z
  | 0x7 => some (intFmt 4) | 0x8 => some (intFmt 8) | 0x9 => some uint8Fmt
  | 0xA => some (intFmt 16) | 0xB => some (intFmt 32) | 0xC => some (intFmt 64)
  | _ => none

/-- The format holds integers. -/
def Fmt.isInt (f : Fmt) : Bool := f.kind == .int || f.kind == .uint

/-- The code of the infinity of an IEEE format, without its sign. -/
def Fmt.infCode (f : Fmt) : Nat := (2 ^ (f.width - 1 - f.frac) - 1) * 2 ^ f.frac

/-- The largest finite code of a floating format, without its sign (15 R222, R223). -/
def Fmt.maxCode (f : Fmt) : Nat :=
  match f.kind with
  | .ieee => f.infCode - 1
  | _ => 2 ^ (f.width - 1) - 1

/-- The canonical NaN (15 R222), the one NaN of a z-format (15 R223), or 0 for an integer format (15 R229). -/
def Fmt.nanCode (f : Fmt) : Nat :=
  match f.kind with
  | .ieee => f.infCode + 2 ^ (f.frac - 1)
  | .z => 2 ^ (f.width - 1)
  | _ => 0

/-- The least and greatest integers of an integer format (15 R226). -/
def Fmt.range (f : Fmt) : Int × Int :=
  match f.kind with
  | .uint => (0, 2 ^ f.width - 1)
  | _ => (-(2 ^ (f.width - 1)), 2 ^ (f.width - 1) - 1)

/-- A code read as a two's complement integer of n bits. -/
def signed (n x : Nat) : Int := if x % 2 ^ n < 2 ^ (n - 1) then (x % 2 ^ n : Nat) else ((x % 2 ^ n : Nat) : Int) - 2 ^ n

/-- An integer modulo 2^n, as a code. -/
def wrap (n : Nat) (x : Int) : Nat := (x % 2 ^ n).toNat

/-- The magnitude of a floating code without its sign: n and the exponent of its unit. -/
def Fmt.mag (f : Fmt) (c : Nat) : Nat × Int :=
  let e := c / 2 ^ f.frac
  let m := c % 2 ^ f.frac
  if e = 0 then (m, 1 - (f.bias : Int) - f.frac) else (m + 2 ^ f.frac, (e : Int) - f.bias - f.frac)

/-- A magnitude m 2^e as a number. -/
def pow2N (neg : Bool) (m : Nat) (e : Int) : FltNum := FltNum.scale2 e (.fin neg m 1)

/-- What a code of a format stands for (15 R222, R223, R226). -/
def decodeNum (f : Fmt) (code : Nat) : FltNum :=
  let c := code % 2 ^ f.width
  match f.kind with
  | .int => .ofInt (signed f.width c)
  | .uint => .ofInt c
  | .ieee =>
    let neg := 2 ^ (f.width - 1) ≤ c
    let u := c % 2 ^ (f.width - 1)
    if f.infCode < u then .nan (u % 2 ^ f.frac < 2 ^ (f.frac - 1))
    else if u = f.infCode then .inf neg
    else pow2N neg (f.mag u).1 (f.mag u).2
  | .z =>
    if c = 2 ^ (f.width - 1) then .nan false
    else pow2N (2 ^ (f.width - 1) ≤ c) (f.mag (c % 2 ^ (f.width - 1))).1 (f.mag (c % 2 ^ (f.width - 1))).2

/-- ⌊log2 (n/d)⌋ for n, d above 0. -/
def log2Q (n d : Nat) : Int :=
  let e : Int := (Nat.log2 n : Int) - Nat.log2 d
  if (if 0 ≤ e then d * 2 ^ e.toNat ≤ n else d ≤ n * 2 ^ (-e).toNat) then e else e - 1

/-- The exponent of the unit in the last place for a magnitude n/d: subnormal spacing below, unbounded above (15 R229). -/
def Fmt.ulpExp (f : Fmt) (n d : Nat) : Int :=
  let least : Int := 1 - (f.bias : Int) - f.frac
  if n = 0 then least else max least (log2Q n d - f.frac)

/-- n/d divided by 2^u, as a quotient. -/
def overUlp (n d : Nat) (u : Int) : Nat × Nat := if 0 ≤ u then (n, d * 2 ^ u.toNat) else (n * 2 ^ (-u).toNat, d)

/-- The result of an overflow into an IEEE format goes to the infinity of its sign (15 R229, IEEE 754). -/
def toInf (m : RMode) (neg : Bool) : Bool :=
  match m with
  | .rne => true
  | .rtz => false
  | .rd => neg
  | .ru => !neg

/-- The function `round` of 15 R229, with CLAMP: the code of x in a format, and the flags it sets. -/
def roundC (f : Fmt) (m : RMode) (clamp : Bool) (x : FltNum) : Nat × LaneFlags :=
  let sb := 2 ^ (f.width - 1)
  match x with
  | .nan s => (f.nanCode, flagIf (s || f.isInt) fINVALID ||| flagIf (f.kind != .ieee) fNANCVT)
  | .inf neg =>
    match f.kind with
    | .ieee =>
      if clamp then ((if neg then sb else 0) + f.maxCode, fSAT ||| fINEXACT) else ((if neg then sb else 0) + f.infCode, 0#8)
    | .z => ((if neg then sb else 0) + f.maxCode, fSAT ||| fINEXACT)
    | _ => (wrap f.width (if neg then f.range.1 else f.range.2), fSAT ||| fINVALID)
  | .fin neg n d =>
    if f.isInt then
      let q := roundMag m neg n d
      let y : Int := if neg then -(q : Int) else q
      let r := max f.range.1 (min f.range.2 y)
      (wrap f.width r, flagIf (decide (r ≠ y)) fSAT ||| flagIf (decide (r ≠ y) || n % d != 0) fINEXACT)
    else
      let u := f.ulpExp n d
      let nd := overUlp n d u
      let q := roundMag m neg nd.1 nd.2
      let exact := nd.1 % nd.2 == 0
      let code := (u - (1 - (f.bias : Int) - f.frac)).toNat * 2 ^ f.frac + q
      if f.maxCode < code then
        if f.kind == .ieee then
          if clamp then ((if neg then sb else 0) + f.maxCode, fOVERFLOW ||| fSAT ||| fINEXACT)
          else ((if neg then sb else 0) + (if toInf m neg then f.infCode else f.maxCode), fOVERFLOW ||| fINEXACT)
        else ((if neg then sb else 0) + f.maxCode, fSAT ||| fINEXACT)
      else
        let fl := flagIf (!exact) fINEXACT ||| flagIf (!exact && decide (code < 2 ^ f.frac)) fUNDERFLOW
        if code = 0 ∧ f.kind = .z then (0, fl) else ((if neg then sb else 0) + code, fl)

/-- The function `round` of 15 R229 for the vector datapath, where no CLAMP applies. -/
def round (f : Fmt) (m : RMode) (x : FltNum) : Nat × LaneFlags := roundC f m false x

/-! ## Format slots (15 R227, R228) -/

/-- The fields of a 64-bit format slot. -/
structure Slot where
  efmt : Nat
  blk : Nat
  bsf : Nat
  clamp : Bool
  rm : Nat
  tscale : Nat
  deriving DecidableEq, Repr, Inhabited

/-- The fields of a slot word (15 R227). -/
def slotOf (w : Bits64) : Slot :=
  let n := w.toNat
  { efmt := n / 2 ^ 60, blk := n / 2 ^ 56 % 16, bsf := n / 2 ^ 52 % 16, clamp := n / 2 ^ 50 % 2 == 1,
    rm := n / 2 ^ 48 % 4, tscale := n % 2 ^ 32 }

/-- A slot is invalid (15 R228). -/
def slotInvalid (w : Bits64) : Bool :=
  let s := slotOf w
  decide (s.efmt > 0xC) || decide (s.blk > 2) || (s.bsf != 0 && s.bsf != 4) || (s.blk != 0 && s.bsf != 4) ||
  (s.bsf == 4 && s.blk == 0) ||
  (s.blk != 0 && !(s.efmt == 4 || s.efmt == 5 || s.efmt == 6 || s.efmt == 7 || s.efmt == 8)) ||
  ((s.efmt == 4 || s.efmt == 5 || s.efmt == 6) && (s.rm == 2 || s.rm == 3)) ||
  s.tscale == 0x80000000 || decide (s.tscale % 2 ^ 31 ≥ 0x7F800000) ||
  (w.toNat / 2 ^ 51 % 2 != 0) || (w.toNat / 2 ^ 32 % 2 ^ 16 != 0)

/-- The element format of a slot. -/
def Slot.fmt (s : Slot) : Fmt := (fmtOf s.efmt).getD fp32

/-- The value of the tensor scale; an all-zero field stands for 1.0 (15 R227). -/
def Slot.st (s : Slot) : FltNum := if s.tscale = 0 then .fin false 1 1 else decodeNum fp32 s.tscale

/-- The slot has neither a block scale nor a tensor scale other than 1.0 (15 R233, R236). -/
def Slot.plain (s : Slot) : Bool := s.blk == 0 && (s.tscale == 0 || s.tscale == 0x3F800000)

/-- The largest finite FP32 value. -/
def fp32Max : FltNum := decodeNum fp32 0x7F7FFFFF

/-- The saturated scale s of 15 R233. -/
def scaleOf (sb st : FltNum) : FltNum :=
  let s := mulN sb st
  if fp32Max.lt (match s with | .fin _ n d => .fin false n d | .inf _ => .inf false | x => x) then
    (match fp32Max with | .fin _ n d => .fin s.neg n d | x => x) else s

/-- An element decoded under a block scale and a tensor scale into FP32 range (15 R233), with the SAT it reports. -/
def decodeScaled (e sb st : FltNum) : FltNum × LaneFlags :=
  if e.isNan then (e, 0#8)
  else if sb.isNan then (.nan false, 0#8)
  else
    let s := scaleOf sb st
    match e, s with
    | .fin a n d, .fin b m c =>
      let v : FltNum := .fin (a != b) (n * m) (d * c)
      if fp32Max.lt (.fin false (n * m) (d * c)) then
        ((match fp32Max with | .fin _ x y => .fin (a != b) x y | z => z), fSAT)
      else (v, 0#8)
    | .inf a, .fin b m _ =>
      if m = 0 then (.fin (a != b) 0 1, 0#8)
      else ((match fp32Max with | .fin _ x y => .fin (a != b) x y | z => z), fSAT)
    | _, _ => (.nan false, 0#8)

/-- A real encoded as a scaled element of a slot (15 R234). -/
def encodeScaled (s : Slot) (x sb st : FltNum) : Nat × LaneFlags :=
  if sb.isNan then roundC s.fmt (rmodeOf s.rm) s.clamp (.nan x.isSig)
  else
    let sc := scaleOf sb st
    let q : FltNum :=
      if x.isNan then x
      else if sc.isZero then (if x.isZero then x else .inf x.neg)
      else (divN x sc).1
    roundC s.fmt (rmodeOf s.rm) s.clamp q

/-! ## Integer saturation (15 R238, R239) -/

/-- The clamp sat_s of 00 R10: an integer clamped to n signed bits, and whether the clamp changed it. -/
def satS (n : Nat) (x : Int) : Int × Bool :=
  let r := max (-(2 ^ (n - 1) : Int)) (min (2 ^ (n - 1) - 1) x)
  (r, decide (r ≠ x))

/-- The clamp sat_u of 00 R10: an integer clamped to n unsigned bits. -/
def satU (n : Nat) (x : Int) : Int × Bool :=
  let r := max 0 (min (2 ^ n - 1 : Int) x)
  (r, decide (r ≠ x))

/-- The rounding right shift of 15 R239. -/
def rshr (x : Int) (n : Nat) : Int := if n = 0 then x else (x + 2 ^ (n - 1)) / 2 ^ n

end Sys2Proof.Machine
end

