-- ==== Sys2Proof/Machine/Fields.lean ====
section
/-! DEFINITION. The operands of the steps as data: the fields of instruction words by name (16 R240 to R251), and what names
the object that a host command or device event acts on (95: each row is one indivisible step). -/

namespace Sys2Proof

/-! ## Operands of instruction words -/

/-- What a register field names (16 R242): nothing, a vector register, a scalar register, a predicate, or (in IADDC only)
a small number holding two predicate indices (17 R264). -/
inductive Opd where
  | none
  | v (n : Nat)
  | s (n : Nat)
  | p (n : Nat)
  | imm (n : Nat)
  deriving DecidableEq, Repr, Inhabited

/-- The lane crossbar patterns of 16 R244. -/
inductive Pat where
  | ident | rot | bc | xor | mir | dn | up | quad
  deriving DecidableEq, Repr, Inhabited

/-- Access widths of the M-form (16 R247). -/
inductive Width where
  | w8 | w16 | w32 | w64 | w128
  deriving DecidableEq, Repr, Inhabited

/-- Order field of 08 R125. -/
inductive Order where
  | plain | acq | rel | ar
  deriving DecidableEq, Repr, Inhabited

/-- Scope field of 08 R125. -/
inductive Scope where
  | grp | team | clu | dev | sys
  deriving DecidableEq, Repr, Inhabited

/-- The guard and boundary bit common to all forms (16 R240, R241). -/
structure Head where
  last : Bool
  gn : Bool
  gp : BitVec 3
  deriving DecidableEq, Repr, Inhabited

/-- An R-form word (16 R243): destination, three sources with patterns, shared pattern parameter, modifiers. -/
structure RWord where
  h : Head
  d : Opd
  a : Opd
  b : Opd
  c : Opd
  pa : Pat
  pb : Pat
  pc : Pat
  k : BitVec 5
  m : BitVec 4
  deriving DecidableEq, Repr, Inhabited

/-- An I-form word (16 R246). -/
structure IWord where
  h : Head
  d : Opd
  a : Opd
  imm : BitVec 24
  m : BitVec 4
  deriving DecidableEq, Repr, Inhabited

/-- An M-form word (16 R247). -/
structure MWord where
  h : Head
  data : Opd
  base : Opd
  seg : Opd
  off : BitVec 14
  width : Width
  order : Order
  scope : Scope
  hint : BitVec 4
  deriving DecidableEq, Repr, Inhabited

/-- Scalar pair operations (16 R251). -/
inductive SOp where
  | nop | iadd | isub | imul | imin | imax | andw | orw | xorw | andn | shl | shr | sar | rotl | mov
  deriving DecidableEq, Repr, Inhabited

/-- Vector pair operations (16 R251). -/
inductive VOp where
  | nop | iadd | isub | imul | imin | imax | andw | orw | xorw | andn | shl | shr | sar | mov
  | fadd | fsub | fmul | fmin | fmax | hadd2 | hmul2 | padd2 | psub2 | satadd | satsub | pmax2 | pmin2
  deriving DecidableEq, Repr, Inhabited

/-- Source B of a scalar pair operation (16 R249): a scalar register, or a 7-bit signed immediate. -/
inductive PairB where
  | s (n : BitVec 6)
  | imm (x : BitVec 7)
  deriving DecidableEq, Repr, Inhabited

/-- A pair word (16 R249): one scalar and one vector operation under one guard. -/
structure PairWord where
  h : Head
  sop : SOp
  sd : BitVec 6
  sa : BitVec 6
  sb : PairB
  vop : VOp
  vd : Opd
  va : Opd
  vb : Opd
  deriving DecidableEq, Repr, Inhabited

/-! ## Arguments of host commands and device events -/

/-- The partition descriptor that a commit names (01 R14): what the PF placed there. -/
structure PartDesc where
  part : Nat
  cores : List Nat
  domLimit : Nat
  quota : Nat
  lim0 : Bits64
  lim1 : Bits64
  barb0 : Bits64
  barb1 : Bits64
  barb2 : Bits64
  ent0 : Bits64
  ent1 : Bits64
  e : Nat
  deriving DecidableEq, Repr, Inhabited

/-- The team a frost or thaw names: every team of the domain, or one team by (queue, record index, %teamid) (05 R75). -/
inductive TeamSel where
  | all
  | one (queue idx team : Nat)
  deriving DecidableEq, Repr, Inhabited

/-- The range of a TLBINV: the whole space, or 16 KiB pages from a virtual address (09 R150). -/
inductive PageRange where
  | whole
  | pages (va count : Nat)
  deriving DecidableEq, Repr, Inhabited

/-- A register write through a function's command register that has no row of its own (REGISTER_WRITE, 01 R383). -/
inductive RegWrite where
  | dsave (did : Nat) (w0 w1 : Bits64)
  | dwdogLimit (did limit : Nat)
  | prqBase (va : Nat)
  | prqOrder (order : Nat)
  | prqHead (head : Nat)
  | tbase (pa : Nat)
  | tsize (bytes : Nat)
  | peerBind (idx : Nat) (v : Bool) (link ldid rdid : Nat)
  | powerLimit (watts : Nat)
  | dprovHead (did head : Nat)
  /-- Table pages assigned to a domain: the first 16 KiB page, their count (09 R143). -/
  | tablePages (first count did : Nat)
  | gateTable (did base count : Nat)
  deriving DecidableEq, Repr, Inhabited

/-- What a device answers to a remote access of its peer (18 R307): performed with the old value of each lane, or a reason; or to a
message: its status (10 R163, R166). -/
inductive PeerReply where
  | none
  | done (old : List Nat)
  | failed (reason : Nat)
  deriving DecidableEq, Repr, Inhabited

/-- A unit that holds timestamps and answers REBASE (07 R115, phases 1 and 2). -/
inductive RUnit where
  | slice (n : Nat)
  | directory (q : Nat)
  | stack (n : Nat)
  | curator (d : Nat)
  | msgUnit (core : Nat)
  | engines (core : Nat)
  | distributor
  | control
  | bridge
  deriving DecidableEq, Repr, Inhabited

/-- Where an uncorrectable error lies (13 R207). -/
inductive EccSite where
  | dram (pa : Nat)
  | l2 (pa : Nat)
  | row (core row : Nat)
  | scratch (core row : Nat)
  deriving DecidableEq, Repr, Inhabited

/-- A message that arrives over a peer link (10 R162, R166). -/
structure PeerMsg where
  link : Nat
  rdid : Nat
  ldid : Nat
  jobtag : Nat
  dteam : Nat
  steam : Nat
  tag : Nat
  payload : Bytes
  deriving DecidableEq, Repr, Inhabited

/-- A remote store or atomic that arrives over a peer link (18 R307). -/
structure RemoteAcc where
  link : Nat
  rdid : Nat
  ldid : Nat
  kind : Nat
  op : Nat
  va : Nat
  size : Nat
  data : Nat
  swap : Nat
  die : Nat
  deriving DecidableEq, Repr, Inhabited

/-- What bring-up finds and fixes (23 R380): harvested slices per die, bypassed crossbar blocks, host link lanes, and the
table region. -/
structure BringUp where
  harvest : List (Nat × Nat)
  bypass : List (Nat × Bool × Nat × Nat)
  hostLanes : Nat
  tbase : Nat
  tsize : Nat
  deriving DecidableEq, Repr, Inhabited

/-- What a host command or device event carries: one constructor for each such row of spec/opcode_table.json, with the
operands of the command, or the object the event acts on. -/
inductive Happening where
  /-- PARTITION_COMMIT (R14). -/
  | partitionCommit (fn : Nat) (d : PartDesc)
  /-- WEIGHT_ONLY_COMMIT (R14). -/
  | weightOnlyCommit (fn : Nat) (part : Nat) (weight : Nat)
  /-- CREATE (R22). -/
  | create (fn : Nat) (part : Nat) (root : Nat) (vector : Nat)
  /-- OPEN (R22). -/
  | openDomain (fn : Nat) (did : Nat)
  /-- CLOSE (R22). -/
  | closeDomain (fn : Nat) (did : Nat)
  /-- KILL (R22). -/
  | kill (fn : Nat) (did : Nat)
  /-- RETIRE (R22). -/
  | retire (fn : Nat) (did : Nat) (nonce : Nat) (addr : Nat)
  /-- FROST (R75). -/
  | frost (fn : Nat) (did : Nat) (tgt : TeamSel)
  /-- THAW (R75). -/
  | thaw (fn : Nat) (did : Nat) (tgt : TeamSel)
  /-- KICK (R75). -/
  | kick (fn : Nat) (did : Nat)
  /-- SNAP (R213). -/
  | snap (fn : Nat) (did : Nat) (nonce : Nat) (addr : Nat)
  /-- SNAPSHOT_COMPLETE (R214). -/
  | snapshotComplete (did : Nat)
  /-- FKEY (R382). -/
  | fkey (fn : Nat) (first : Nat) (count : Nat) (key : Nat) (v : Bool) (z : Bool)
  /-- FKEY_ZERO_DONE (R382). -/
  | fkeyZeroDone
  /-- TLBINV (R150). -/
  | tlbinv (fn : Nat) (did : Nat) (range : PageRange)
  /-- TLBINV_DONE (R150). -/
  | tlbinvDone (did : Nat)
  /-- PGRESP_RETRY (R153). -/
  | pgrespRetry (fn : Nat) (die : Nat) (reqid : Nat)
  /-- PGRESP_ERROR (R153). -/
  | pgrespError (fn : Nat) (die : Nat) (reqid : Nat) (code : Nat)
  /-- SKIP (R29). -/
  | skip (fn : Nat) (did : Nat) (q : Nat)
  /-- QUEUE_DESCRIPTOR_WRITE (R27). -/
  | queueDescriptorWrite (fn : Nat) (did : Nat) (q : Nat) (w0 : Bits64) (w1 : Bits64)
  /-- QUEUE_ENABLE (R29). -/
  | queueEnable (fn : Nat) (did : Nat) (q : Nat)
  /-- QUEUE_DISABLE (R29). -/
  | queueDisable (fn : Nat) (did : Nat) (q : Nat)
  /-- ERRC_CLEAR (R27). -/
  | errcClear (fn : Nat) (did : Nat) (q : Nat) (bits : Nat)
  /-- QUEUE_TAIL_WRITE (R27). -/
  | queueTailWrite (fn : Nat) (did : Nat) (q : Nat) (tail : Nat)
  /-- DOORBELL (R28). -/
  | doorbell (fn : Nat) (offset : Nat) (value : Nat)
  /-- CURATOR_RING_WRITE (R197). -/
  | curatorRingWrite (fn : Nat) (did : Nat) (w0 : Bits64)
  /-- DPROV_RING_WRITE (R215). -/
  | dprovRingWrite (fn : Nat) (did : Nat) (w0 : Bits64)
  /-- REGISTER_WRITE (R383). -/
  | registerWrite (fn : Nat) (r : RegWrite)
  /-- IWSEL_WRITE (R208). -/
  | iwselWrite (fn : Nat) (value : Bits64)
  /-- IWDATA_READ (R208). -/
  | iwdataRead (fn : Nat)
  /-- FAULT_LOG_CLEAR (R19). -/
  | faultLogClear (fn : Nat) (part : Nat) (value : Bits64)
  /-- BARSTAT_CLEAR (R219). -/
  | barstatClear (fn : Nat) (part : Nat) (value : Nat)
  /-- TABLE_WINDOW_WRITE (R143). -/
  | tableWindowWrite (fn : Nat) (pa : Nat) (value : Bits64)
  /-- HOST_READ (R118). -/
  | hostRead (pa : Nat) (len : Nat)
  /-- HOST_WRITE (R118). -/
  | hostWrite (pa : Nat) (bytes : Bytes)
  /-- HOST_SNOOP (R119). -/
  | hostSnoop (ha : Nat) (bytes : Bytes)
  /-- BIRSP_RECEIVED (R118). -/
  | birspReceived (pa : Nat)
  /-- LINK_ENABLE (R167). -/
  | linkEnable (fn : Nat) (link : Nat)
  /-- LINK_DISABLE (R167). -/
  | linkDisable (fn : Nat) (link : Nat)
  /-- LINK_TRAINED (R167). -/
  | linkTrained (link : Nat) (lanes : Nat) (keyHash : Nat)
  /-- LINK_TRAINING_FAIL (R167). -/
  | linkTrainingFail (link : Nat)
  /-- LANE_FAIL (R167). -/
  | laneFail (link : Nat)
  /-- LINK_RETRAIN_UP (R167). -/
  | linkRetrainUp (link : Nat)
  /-- LINK_FAULT (R167). -/
  | linkFault (link : Nat)
  /-- QUEUE_RECORD_READ (R29). -/
  | queueRecordRead (did : Nat) (q : Nat)
  /-- WAITPH_TURN_NOTIFY (R33). -/
  | waitphTurnNotify (did : Nat) (q : Nat)
  /-- RECORD_DISPATCH (R31). -/
  | recordDispatch (part : Nat)
  /-- TEAM_PLACE (R48). -/
  | teamPlace (grid : Nat)
  /-- ZEROING_COMPLETE (R21). -/
  | zeroingComplete (team : Nat)
  /-- TEAM_RETIRE (R65). -/
  | teamRetire (team : Nat)
  /-- GRID_COMPLETE (R34). -/
  | gridComplete (grid : Nat)
  /-- PROVENANCE_RECORD_WRITE (R216). -/
  | provenanceRecordWrite (grid : Nat)
  /-- KILL_COMPLETE (R22). -/
  | killComplete (did : Nat)
  /-- RETIRE_COMPLETE (R22). -/
  | retireComplete (did : Nat)
  /-- ISSUE_SLOT_DECISION (R69). -/
  | issueSlotDecision (core : Nat) (slot : Nat)
  /-- RESULTS_COMPLETE (R67). -/
  | resultsComplete (group : Nat)
  /-- PATH_DUE (R60). -/
  | pathDue (group : Nat)
  /-- WAIT_AGING (R70). -/
  | waitAging (group : Nat)
  /-- RENDEZVOUS_COMPLETE (R61). -/
  | rendezvousComplete (team : Nat)
  /-- REPACK_DONE (R62). -/
  | repackDone (team : Nat)
  /-- PREEMPT_TAKE (R77). -/
  | preemptTake (group : Nat)
  /-- FORCED_FROST (R79). -/
  | forcedFrost (group : Nat)
  /-- TEAM_THAW (R82). -/
  | teamThaw (team : Nat)
  /-- WATCHDOG_EXPIRY (R74). -/
  | watchdogExpiry (did : Nat)
  /-- BEAT_TOKEN_GRANT (R73). -/
  | beatTokenGrant (core : Nat) (part : Nat)
  /-- PACKET_GRANT (R157). -/
  | packetGrant (die : Nat) (resp : Bool) (out : Nat)
  /-- L2_LOAD (R108). -/
  | l2Load (req : Nat)
  /-- L2_STORE (R109). -/
  | l2Store (req : Nat)
  /-- L2_ATOMIC (R110). -/
  | l2Atomic (req : Nat)
  /-- REPLY_RECEIVED (R106). -/
  | replyReceived (req : Nat) (peer : PeerReply)
  /-- MS_ACCESS (R113). -/
  | msAccess (req : Nat)
  /-- QCLK_RECONCILE (R112). -/
  | qclkReconcile
  /-- REBASE_START (R115). -/
  | rebaseStart
  /-- UNIT_REBASE (R115). -/
  | unitRebase (u : RUnit)
  /-- REBASE_EPOCH_BROADCAST (R115). -/
  | rebaseEpochBroadcast
  /-- CORE_REBASE (R115). -/
  | coreRebase (core : Nat)
  /-- REBASE_COMPLETE (R115). -/
  | rebaseComplete
  /-- PAGE_WALK_COMPLETE (R148). -/
  | pageWalkComplete (die : Nat) (did : Nat) (page : Nat)
  /-- PENDING_ENTRY_FREE (R151). -/
  | pendingEntryFree (die : Nat)
  /-- PAGE_REQUEST_WRITE (R152). -/
  | pageRequestWrite (die : Nat) (reqid : Nat) (fn : Nat)
  /-- CATALOGUE_ENTRY_FREE (R205). -/
  | catalogueEntryFree (core : Nat)
  /-- REPLAY_COMPLETE (R206). -/
  | replayComplete (group : Nat)
  /-- ECC_UNCORRECTABLE (R207). -/
  | eccUncorrectable (loc : EccSite) (persists : Bool)
  /-- MESSAGE_ARRIVAL (R163). -/
  | messageArrival (msg : Nat)
  /-- PEER_ARRIVAL (R166). -/
  | peerArrival (a : PeerMsg)
  /-- REMOTE_ACCESS (R307). -/
  | remoteAccess (a : RemoteAcc)
  /-- ENGINE_PHASER_UPDATE (R179). -/
  | enginePhaserUpdate (upd : Nat)
  /-- PHASER_WAIT_RETEST (R177). -/
  | phaserWaitRetest (group : Nat)
  /-- COPY_BEAT (R340). -/
  | copyBeat (cmd : Nat)
  /-- BANKOP_ELEMENT (R342). -/
  | bankopElement (cmd : Nat) (j : Nat)
  /-- JOB_STEP_COMMIT (R347). -/
  | jobStepCommit (cmd : Nat)
  /-- ENGINE_COMMAND_FINISH (R343). -/
  | engineCommandFinish (cmd : Nat)
  /-- MPAIR_START (R348). -/
  | mpairStart (core : Nat)
  /-- MPAIR_TIMEOUT (R348). -/
  | mpairTimeout (cmd : Nat)
  /-- SCRUB_ZERO (R358). -/
  | scrubZero (scrub : Nat)
  /-- BANK_SCRUB_DONE (R93). -/
  | bankScrubDone (core : Nat) (bank : Nat)
  /-- CURATOR_START (R192). -/
  | curatorStart (die : Nat) (did : Nat)
  /-- DIE_CURATOR_CLEAR (R192). -/
  | dieCuratorClear (die : Nat) (did : Nat)
  /-- GRACE_PERIOD_COMPLETE (R191). -/
  | gracePeriodComplete (did : Nat)
  /-- COUNTER_FLUSH (R212). -/
  | counterFlush (core : Nat) (did : Nat)
  /-- BAROMETER_WINDOW_END (R219). -/
  | barometerWindowEnd (part : Nat) (baro : Nat)
  /-- FABRIC_ERROR (R158). -/
  | fabricError
  /-- THERMAL_STOP (R379). -/
  | thermalStop
  /-- THERMAL_CLOCK_STEP (R379). -/
  | thermalClockStep (hot : Bool)
  /-- POWER_CLOCK_STEP (R378). -/
  | powerClockStep (up : Bool)
  /-- RAIL_FAULT (R377). -/
  | railFault
  /-- DEVICE_RESET (R380). -/
  | deviceReset (b : BringUp)
  /-- BRIDGE_LINE_FETCH (R119). -/
  | bridgeLineFetch (ha : Nat)
  /-- PLACEMENT_WAIT_EXPIRY (R50). -/
  | placementWaitExpiry (grid : Nat)
  deriving DecidableEq, Repr, Inhabited

end Sys2Proof
end

