-- ==== Sys2Proof/Syntax.lean ====
section
/-! DEFINITION. The steps of the device: one constructor of Instr for each row of spec/opcode_table.json. An instruction
word carries its fields. A host command or device event takes its operands from the state's event port, where the step
that offers it has placed them (Lean admits no more than 245 constructors with fields in one compiled type). -/

namespace Sys2Proof

/-- One constructor for each row of spec/opcode_table.json: the instruction words, then the commands and events. -/
inductive Instr where
  /-- NOP (R298). -/
  | nop (w : RWord)
  /-- NEXT (R295). -/
  | nextw (w : IWord)
  /-- BRC (R295). -/
  | brc (w : IWord)
  /-- BRX (R295). -/
  | brx (w : RWord)
  /-- CALL (R295). -/
  | call (w : IWord)
  /-- RET (R295). -/
  | ret (w : RWord)
  /-- REGROUP (R296). -/
  | regroup (w : IWord)
  /-- EXIT (R296). -/
  | exit (w : RWord)
  /-- LOOP (R295). -/
  | loop (w : IWord)
  /-- YIELD (R296). -/
  | yield (w : RWord)
  /-- TRAP (R297). -/
  | trapw (w : IWord)
  /-- TRET (R297). -/
  | tret (w : RWord)
  /-- BKPT (R297). -/
  | bkpt (w : RWord)
  /-- WSYNC (R298). -/
  | wsync (w : RWord)
  /-- HALT_F (R355). -/
  | haltF (w : RWord)
  /-- SETPRI (R298). -/
  | setpri (w : IWord)
  /-- IADD (R265). -/
  | iadd (w : RWord)
  /-- ISUB (R265). -/
  | isub (w : RWord)
  /-- IMUL (R265). -/
  | imul (w : RWord)
  /-- IMULH (R265). -/
  | imulh (w : RWord)
  /-- IMAD (R265). -/
  | imad (w : RWord)
  /-- IMIN (R265). -/
  | imin (w : RWord)
  /-- IMAX (R265). -/
  | imax (w : RWord)
  /-- IABS (R265). -/
  | iabs (w : RWord)
  /-- INEG (R265). -/
  | ineg (w : RWord)
  /-- AND (R266). -/
  | andw (w : RWord)
  /-- OR (R266). -/
  | orw (w : RWord)
  /-- XOR (R266). -/
  | xorw (w : RWord)
  /-- ANDN (R266). -/
  | andn (w : RWord)
  /-- SHL (R266). -/
  | shl (w : RWord)
  /-- SHR (R266). -/
  | shr (w : RWord)
  /-- SAR (R266). -/
  | sar (w : RWord)
  /-- ROTL (R266). -/
  | rotl (w : RWord)
  /-- BFX (R267). -/
  | bfx (w : RWord)
  /-- BFI (R267). -/
  | bfi (w : RWord)
  /-- POPC (R267). -/
  | popc (w : RWord)
  /-- CLZ (R267). -/
  | clz (w : RWord)
  /-- CTZ (R267). -/
  | ctz (w : RWord)
  /-- BREV (R267). -/
  | brev (w : RWord)
  /-- SEL (R268). -/
  | sel (w : RWord)
  /-- MOV (R268). -/
  | mov (w : RWord)
  /-- MOVI (R268). -/
  | movi (w : IWord)
  /-- MOVH (R268). -/
  | movh (w : IWord)
  /-- LEA (R265). -/
  | lea (w : RWord)
  /-- IADDC (R265). -/
  | iaddc (w : RWord)
  /-- IDIV (R269). -/
  | idiv (w : RWord)
  /-- IREM (R269). -/
  | irem (w : RWord)
  /-- ISAD (R265). -/
  | isad (w : RWord)
  /-- FADD (R271). -/
  | fadd (w : RWord)
  /-- FSUB (R271). -/
  | fsub (w : RWord)
  /-- FMUL (R271). -/
  | fmul (w : RWord)
  /-- FFMA (R271). -/
  | ffma (w : RWord)
  /-- FMIN (R272). -/
  | fmin (w : RWord)
  /-- FMAX (R272). -/
  | fmax (w : RWord)
  /-- FABS (R272). -/
  | fabs (w : RWord)
  /-- FNEG (R272). -/
  | fneg (w : RWord)
  /-- FRCP (R273). -/
  | frcp (w : RWord)
  /-- FRSQ (R273). -/
  | frsq (w : RWord)
  /-- FSQRT (R273). -/
  | fsqrt (w : RWord)
  /-- FDIV (R273). -/
  | fdiv (w : RWord)
  /-- FEX2 (R274). -/
  | fex2 (w : RWord)
  /-- FLG2 (R274). -/
  | flg2 (w : RWord)
  /-- FSIN (R274). -/
  | fsin (w : RWord)
  /-- FCOS (R274). -/
  | fcos (w : RWord)
  /-- FTANH (R274). -/
  | ftanh (w : RWord)
  /-- FRND (R275). -/
  | frnd (w : RWord)
  /-- FCLASS (R275). -/
  | fclass (w : RWord)
  /-- FSCALE (R275). -/
  | fscale (w : RWord)
  /-- DADD (R271). -/
  | dadd (w : RWord)
  /-- DMUL (R271). -/
  | dmul (w : RWord)
  /-- DFMA (R271). -/
  | dfma (w : RWord)
  /-- DDIV (R273). -/
  | ddiv (w : RWord)
  /-- DSQRT (R273). -/
  | dsqrt (w : RWord)
  /-- HFMA2 (R276). -/
  | hfma2 (w : RWord)
  /-- HADD2 (R276). -/
  | hadd2 (w : RWord)
  /-- HMUL2 (R276). -/
  | hmul2 (w : RWord)
  /-- FDOT2 (R276). -/
  | fdot2 (w : RWord)
  /-- FDOT4Z (R277). -/
  | fdot4z (w : RWord)
  /-- FMED3 (R272). -/
  | fmed3 (w : RWord)
  /-- ICMP (R279). -/
  | icmp (w : RWord)
  /-- FCMP (R279). -/
  | fcmp (w : RWord)
  /-- DCMP (R279). -/
  | dcmp (w : RWord)
  /-- PSET (R280). -/
  | pset (w : RWord)
  /-- PMOV_TO_PRED (R280). -/
  | pmovToPred (w : RWord)
  /-- PMOV_FROM_PRED (R280). -/
  | pmovFromPred (w : RWord)
  /-- PMOV_SETALL (R280). -/
  | pmovSetall (w : RWord)
  /-- PMOV_GETALL (R280). -/
  | pmovGetall (w : RWord)
  /-- VOTE_ALL (R281). -/
  | voteAll (w : RWord)
  /-- VOTE_ANY (R281). -/
  | voteAny (w : RWord)
  /-- VOTE_BALLOT (R281). -/
  | voteBallot (w : RWord)
  /-- ACTIVE (R281). -/
  | active (w : RWord)
  /-- PMAC2 (R283). -/
  | pmac2 (w : RWord)
  /-- PMUL2 (R283). -/
  | pmul2 (w : RWord)
  /-- PADD2 (R283). -/
  | padd2 (w : RWord)
  /-- PSUB2 (R283). -/
  | psub2 (w : RWord)
  /-- SATADD (R284). -/
  | satadd (w : RWord)
  /-- SATSUB (R284). -/
  | satsub (w : RWord)
  /-- SHRR (R284). -/
  | shrr (w : RWord)
  /-- PACKS (R284). -/
  | packs (w : RWord)
  /-- UNPACK (R284). -/
  | unpack (w : RWord)
  /-- ESLIDE (R285). -/
  | eslide (w : RWord)
  /-- DOT4 (R286). -/
  | dot4 (w : RWord)
  /-- DOT8 (R286). -/
  | dot8 (w : RWord)
  /-- PMAX2 (R283). -/
  | pmax2 (w : RWord)
  /-- PMIN2 (R283). -/
  | pmin2 (w : RWord)
  /-- PABS2 (R283). -/
  | pabs2 (w : RWord)
  /-- CVT (R288). -/
  | cvt (w : RWord)
  /-- CVTF (R288). -/
  | cvtf (w : RWord)
  /-- PACKZ (R289). -/
  | packz (w : RWord)
  /-- UNPZ (R289). -/
  | unpz (w : RWord)
  /-- SCALEB (R290). -/
  | scaleb (w : RWord)
  /-- QNT (R291). -/
  | qnt (w : RWord)
  /-- DQNT (R291). -/
  | dqnt (w : RWord)
  /-- PERM (R300). -/
  | perm (w : RWord)
  /-- SHUF (R300). -/
  | shuf (w : RWord)
  /-- WREDUCE (R301). -/
  | wreduce (w : RWord)
  /-- WSCAN (R301). -/
  | wscan (w : RWord)
  /-- MATCH (R302). -/
  | matchL (w : RWord)
  /-- RDLANE (R300). -/
  | rdlane (w : RWord)
  /-- WRLANE (R300). -/
  | wrlane (w : RWord)
  /-- LD (R305). -/
  | ld (w : MWord)
  /-- ST (R306). -/
  | st (w : MWord)
  /-- LDS (R305). -/
  | lds (w : MWord)
  /-- STS (R306). -/
  | sts (w : MWord)
  /-- LDC (R305). -/
  | ldc (w : MWord)
  /-- STC (R306). -/
  | stc (w : MWord)
  /-- MST (R306). -/
  | mst (w : MWord)
  /-- PREF (R308). -/
  | pref (w : MWord)
  /-- FENCE (R131). -/
  | fence (w : MWord)
  /-- CLEANR (R310). -/
  | cleanr (w : MWord)
  /-- INVALR (R310). -/
  | invalr (w : MWord)
  /-- FLUSHR (R310). -/
  | flushr (w : MWord)
  /-- ATOM (R311). -/
  | atom (w : MWord)
  /-- CAS (R312). -/
  | cas (w : MWord)
  /-- RED (R311). -/
  | red (w : MWord)
  /-- ATOMS (R311). -/
  | atoms (w : MWord)
  /-- CASS (R312). -/
  | cass (w : MWord)
  /-- PROBE (R314). -/
  | probe (w : MWord)
  /-- FPUSH (R316). -/
  | fpush (w : MWord)
  /-- FPOP (R316). -/
  | fpop (w : MWord)
  /-- PHREG (R324). -/
  | phreg (w : MWord)
  /-- PHDROP (R324). -/
  | phdrop (w : MWord)
  /-- PHARR (R324). -/
  | pharr (w : MWord)
  /-- PHWAIT (R324). -/
  | phwait (w : MWord)
  /-- PHEXP (R324). -/
  | phexp (w : MWord)
  /-- PHTEST (R324). -/
  | phtest (w : MWord)
  /-- RINGACQ_NEW (R326). -/
  | ringacqNew (w : RWord)
  /-- RINGACQ_P (R326). -/
  | ringacqP (w : RWord)
  /-- RINGACQ_C (R326). -/
  | ringacqC (w : RWord)
  /-- RINGREL_P (R326). -/
  | ringrelP (w : RWord)
  /-- RINGREL_C (R326). -/
  | ringrelC (w : RWord)
  /-- RINGREL_END (R326). -/
  | ringrelEnd (w : RWord)
  /-- RSBEG (R186). -/
  | rsbeg (w : RWord)
  /-- RSEND (R186). -/
  | rsend (w : RWord)
  /-- GPSTART (R189). -/
  | gpstart (w : RWord)
  /-- GPWAIT (R328). -/
  | gpwait (w : RWord)
  /-- GPPOLL (R328). -/
  | gppoll (w : RWord)
  /-- DACC (R195). -/
  | dacc (w : RWord)
  /-- DFPOP (R196). -/
  | dfpop (w : RWord)
  /-- MSEND (R330). -/
  | msend (w : RWord)
  /-- MRECV (R331). -/
  | mrecv (w : RWord)
  /-- MPROBE (R331). -/
  | mprobe (w : RWord)
  /-- MCANCEL (R331). -/
  | mcancel (w : RWord)
  /-- GCALL (R333). -/
  | gcall (w : RWord)
  /-- GWAIT (R334). -/
  | gwait (w : RWord)
  /-- GRET (R335). -/
  | gret (w : RWord)
  /-- COPY (R340). -/
  | copy (w : RWord)
  /-- COPYT (R340). -/
  | copyt (w : RWord)
  /-- COPYM (R340). -/
  | copym (w : RWord)
  /-- BANKOP (R342). -/
  | bankop (w : RWord)
  /-- MJOB (R347). -/
  | mjob (w : RWord)
  /-- MPAIR (R348). -/
  | mpair (w : RWord)
  /-- MWAIT (R344). -/
  | mwait (w : RWord)
  /-- GMMA (R349). -/
  | gmma (w : RWord)
  /-- LAUNCH (R35). -/
  | launch (w : RWord)
  /-- LQUERY (R350). -/
  | lquery (w : RWord)
  /-- RDSR (R352). -/
  | rdsr (w : IWord)
  /-- WRSR (R352). -/
  | wrsr (w : IWord)
  /-- VIEW (R354). -/
  | view (w : RWord)
  /-- CLKRD (R353). -/
  | clkrd (w : RWord)
  /-- CNTRD (R353). -/
  | cntrd (w : IWord)
  /-- SAVEF (R355). -/
  | savef (w : RWord)
  /-- LOADF (R356). -/
  | loadf (w : RWord)
  /-- BANKROLE (R357). -/
  | bankrole (w : RWord)
  /-- SCRUB (R358). -/
  | scrub (w : RWord)
  /-- PAIR_S_NOP (R251). -/
  | pairSNop (w : PairWord)
  /-- PAIR_S_IADD (R251). -/
  | pairSIadd (w : PairWord)
  /-- PAIR_S_ISUB (R251). -/
  | pairSIsub (w : PairWord)
  /-- PAIR_S_IMUL (R251). -/
  | pairSImul (w : PairWord)
  /-- PAIR_S_IMIN (R251). -/
  | pairSImin (w : PairWord)
  /-- PAIR_S_IMAX (R251). -/
  | pairSImax (w : PairWord)
  /-- PAIR_S_AND (R251). -/
  | pairSAnd (w : PairWord)
  /-- PAIR_S_OR (R251). -/
  | pairSOr (w : PairWord)
  /-- PAIR_S_XOR (R251). -/
  | pairSXor (w : PairWord)
  /-- PAIR_S_ANDN (R251). -/
  | pairSAndn (w : PairWord)
  /-- PAIR_S_SHL (R251). -/
  | pairSShl (w : PairWord)
  /-- PAIR_S_SHR (R251). -/
  | pairSShr (w : PairWord)
  /-- PAIR_S_SAR (R251). -/
  | pairSSar (w : PairWord)
  /-- PAIR_S_ROTL (R251). -/
  | pairSRotl (w : PairWord)
  /-- PAIR_S_MOV (R251). -/
  | pairSMov (w : PairWord)
  /-- PAIR_V_NOP (R251). -/
  | pairVNop (w : PairWord)
  /-- PAIR_V_IADD (R251). -/
  | pairVIadd (w : PairWord)
  /-- PAIR_V_ISUB (R251). -/
  | pairVIsub (w : PairWord)
  /-- PAIR_V_IMUL (R251). -/
  | pairVImul (w : PairWord)
  /-- PAIR_V_IMIN (R251). -/
  | pairVImin (w : PairWord)
  /-- PAIR_V_IMAX (R251). -/
  | pairVImax (w : PairWord)
  /-- PAIR_V_AND (R251). -/
  | pairVAnd (w : PairWord)
  /-- PAIR_V_OR (R251). -/
  | pairVOr (w : PairWord)
  /-- PAIR_V_XOR (R251). -/
  | pairVXor (w : PairWord)
  /-- PAIR_V_ANDN (R251). -/
  | pairVAndn (w : PairWord)
  /-- PAIR_V_SHL (R251). -/
  | pairVShl (w : PairWord)
  /-- PAIR_V_SHR (R251). -/
  | pairVShr (w : PairWord)
  /-- PAIR_V_SAR (R251). -/
  | pairVSar (w : PairWord)
  /-- PAIR_V_MOV (R251). -/
  | pairVMov (w : PairWord)
  /-- PAIR_V_FADD (R251). -/
  | pairVFadd (w : PairWord)
  /-- PAIR_V_FSUB (R251). -/
  | pairVFsub (w : PairWord)
  /-- PAIR_V_FMUL (R251). -/
  | pairVFmul (w : PairWord)
  /-- PAIR_V_FMIN (R251). -/
  | pairVFmin (w : PairWord)
  /-- PAIR_V_FMAX (R251). -/
  | pairVFmax (w : PairWord)
  /-- PAIR_V_HADD2 (R251). -/
  | pairVHadd2 (w : PairWord)
  /-- PAIR_V_HMUL2 (R251). -/
  | pairVHmul2 (w : PairWord)
  /-- PAIR_V_PADD2 (R251). -/
  | pairVPadd2 (w : PairWord)
  /-- PAIR_V_PSUB2 (R251). -/
  | pairVPsub2 (w : PairWord)
  /-- PAIR_V_SATADD (R251). -/
  | pairVSatadd (w : PairWord)
  /-- PAIR_V_SATSUB (R251). -/
  | pairVSatsub (w : PairWord)
  /-- PAIR_V_PMAX2 (R251). -/
  | pairVPmax2 (w : PairWord)
  /-- PAIR_V_PMIN2 (R251). -/
  | pairVPmin2 (w : PairWord)
  /-- PARTITION_COMMIT (R14). -/
  | partitionCommit
  /-- WEIGHT_ONLY_COMMIT (R14). -/
  | weightOnlyCommit
  /-- CREATE (R22). -/
  | create
  /-- OPEN (R22). -/
  | openDomain
  /-- CLOSE (R22). -/
  | closeDomain
  /-- KILL (R22). -/
  | kill
  /-- RETIRE (R22). -/
  | retire
  /-- FROST (R75). -/
  | frost
  /-- THAW (R75). -/
  | thaw
  /-- KICK (R75). -/
  | kick
  /-- SNAP (R213). -/
  | snap
  /-- SNAPSHOT_COMPLETE (R214). -/
  | snapshotComplete
  /-- FKEY (R382). -/
  | fkey
  /-- FKEY_ZERO_DONE (R382). -/
  | fkeyZeroDone
  /-- TLBINV (R150). -/
  | tlbinv
  /-- TLBINV_DONE (R150). -/
  | tlbinvDone
  /-- PGRESP_RETRY (R153). -/
  | pgrespRetry
  /-- PGRESP_ERROR (R153). -/
  | pgrespError
  /-- SKIP (R29). -/
  | skip
  /-- QUEUE_DESCRIPTOR_WRITE (R27). -/
  | queueDescriptorWrite
  /-- QUEUE_ENABLE (R29). -/
  | queueEnable
  /-- QUEUE_DISABLE (R29). -/
  | queueDisable
  /-- ERRC_CLEAR (R27). -/
  | errcClear
  /-- QUEUE_TAIL_WRITE (R27). -/
  | queueTailWrite
  /-- DOORBELL (R28). -/
  | doorbell
  /-- CURATOR_RING_WRITE (R197). -/
  | curatorRingWrite
  /-- DPROV_RING_WRITE (R215). -/
  | dprovRingWrite
  /-- REGISTER_WRITE (R383). -/
  | registerWrite
  /-- IWSEL_WRITE (R208). -/
  | iwselWrite
  /-- IWDATA_READ (R208). -/
  | iwdataRead
  /-- FAULT_LOG_CLEAR (R19). -/
  | faultLogClear
  /-- BARSTAT_CLEAR (R219). -/
  | barstatClear
  /-- TABLE_WINDOW_WRITE (R143). -/
  | tableWindowWrite
  /-- HOST_READ (R118). -/
  | hostRead
  /-- HOST_WRITE (R118). -/
  | hostWrite
  /-- HOST_SNOOP (R119). -/
  | hostSnoop
  /-- BIRSP_RECEIVED (R118). -/
  | birspReceived
  /-- LINK_ENABLE (R167). -/
  | linkEnable
  /-- LINK_DISABLE (R167). -/
  | linkDisable
  /-- LINK_TRAINED (R167). -/
  | linkTrained
  /-- LINK_TRAINING_FAIL (R167). -/
  | linkTrainingFail
  /-- LANE_FAIL (R167). -/
  | laneFail
  /-- LINK_RETRAIN_UP (R167). -/
  | linkRetrainUp
  /-- LINK_FAULT (R167). -/
  | linkFault
  /-- QUEUE_RECORD_READ (R29). -/
  | queueRecordRead
  /-- WAITPH_TURN_NOTIFY (R33). -/
  | waitphTurnNotify
  /-- RECORD_DISPATCH (R31). -/
  | recordDispatch
  /-- TEAM_PLACE (R48). -/
  | teamPlace
  /-- ZEROING_COMPLETE (R21). -/
  | zeroingComplete
  /-- TEAM_RETIRE (R65). -/
  | teamRetire
  /-- GRID_COMPLETE (R34). -/
  | gridComplete
  /-- PROVENANCE_RECORD_WRITE (R216). -/
  | provenanceRecordWrite
  /-- KILL_COMPLETE (R22). -/
  | killComplete
  /-- RETIRE_COMPLETE (R22). -/
  | retireComplete
  /-- ISSUE_SLOT_DECISION (R69). -/
  | issueSlotDecision
  /-- RESULTS_COMPLETE (R67). -/
  | resultsComplete
  /-- PATH_DUE (R60). -/
  | pathDue
  /-- WAIT_AGING (R70). -/
  | waitAging
  /-- RENDEZVOUS_COMPLETE (R61). -/
  | rendezvousComplete
  /-- REPACK_DONE (R62). -/
  | repackDone
  /-- PREEMPT_TAKE (R77). -/
  | preemptTake
  /-- FORCED_FROST (R79). -/
  | forcedFrost
  /-- TEAM_THAW (R82). -/
  | teamThaw
  /-- WATCHDOG_EXPIRY (R74). -/
  | watchdogExpiry
  /-- BEAT_TOKEN_GRANT (R73). -/
  | beatTokenGrant
  /-- PACKET_GRANT (R157). -/
  | packetGrant
  /-- L2_LOAD (R108). -/
  | l2Load
  /-- L2_STORE (R109). -/
  | l2Store
  /-- L2_ATOMIC (R110). -/
  | l2Atomic
  /-- REPLY_RECEIVED (R106). -/
  | replyReceived
  /-- MS_ACCESS (R113). -/
  | msAccess
  /-- QCLK_RECONCILE (R112). -/
  | qclkReconcile
  /-- REBASE_START (R115). -/
  | rebaseStart
  /-- UNIT_REBASE (R115). -/
  | unitRebase
  /-- REBASE_EPOCH_BROADCAST (R115). -/
  | rebaseEpochBroadcast
  /-- CORE_REBASE (R115). -/
  | coreRebase
  /-- REBASE_COMPLETE (R115). -/
  | rebaseComplete
  /-- PAGE_WALK_COMPLETE (R148). -/
  | pageWalkComplete
  /-- PENDING_ENTRY_FREE (R151). -/
  | pendingEntryFree
  /-- PAGE_REQUEST_WRITE (R152). -/
  | pageRequestWrite
  /-- CATALOGUE_ENTRY_FREE (R205). -/
  | catalogueEntryFree
  /-- REPLAY_COMPLETE (R206). -/
  | replayComplete
  /-- ECC_UNCORRECTABLE (R207). -/
  | eccUncorrectable
  /-- MESSAGE_ARRIVAL (R163). -/
  | messageArrival
  /-- PEER_ARRIVAL (R166). -/
  | peerArrival
  /-- REMOTE_ACCESS (R307). -/
  | remoteAccess
  /-- ENGINE_PHASER_UPDATE (R179). -/
  | enginePhaserUpdate
  /-- PHASER_WAIT_RETEST (R177). -/
  | phaserWaitRetest
  /-- COPY_BEAT (R340). -/
  | copyBeat
  /-- BANKOP_ELEMENT (R342). -/
  | bankopElement
  /-- JOB_STEP_COMMIT (R347). -/
  | jobStepCommit
  /-- ENGINE_COMMAND_FINISH (R343). -/
  | engineCommandFinish
  /-- MPAIR_START (R348). -/
  | mpairStart
  /-- MPAIR_TIMEOUT (R348). -/
  | mpairTimeout
  /-- SCRUB_ZERO (R358). -/
  | scrubZero
  /-- BANK_SCRUB_DONE (R93). -/
  | bankScrubDone
  /-- CURATOR_START (R192). -/
  | curatorStart
  /-- DIE_CURATOR_CLEAR (R192). -/
  | dieCuratorClear
  /-- GRACE_PERIOD_COMPLETE (R191). -/
  | gracePeriodComplete
  /-- COUNTER_FLUSH (R212). -/
  | counterFlush
  /-- BAROMETER_WINDOW_END (R219). -/
  | barometerWindowEnd
  /-- FABRIC_ERROR (R158). -/
  | fabricError
  /-- THERMAL_STOP (R379). -/
  | thermalStop
  /-- THERMAL_CLOCK_STEP (R379). -/
  | thermalClockStep
  /-- POWER_CLOCK_STEP (R378). -/
  | powerClockStep
  /-- RAIL_FAULT (R377). -/
  | railFault
  /-- DEVICE_RESET (R380). -/
  | deviceReset
  /-- BRIDGE_LINE_FETCH (R119). -/
  | bridgeLineFetch
  /-- PLACEMENT_WAIT_EXPIRY (R50). -/
  | placementWaitExpiry
  deriving DecidableEq, Repr, Inhabited

/-- The row of the table that a command or event belongs to. -/
def Happening.row (h : Happening) : Instr :=
  match h with
  | .partitionCommit _ _ => .partitionCommit
  | .weightOnlyCommit _ _ _ => .weightOnlyCommit
  | .create _ _ _ _ => .create
  | .openDomain _ _ => .openDomain
  | .closeDomain _ _ => .closeDomain
  | .kill _ _ => .kill
  | .retire _ _ _ _ => .retire
  | .frost _ _ _ => .frost
  | .thaw _ _ _ => .thaw
  | .kick _ _ => .kick
  | .snap _ _ _ _ => .snap
  | .snapshotComplete _ => .snapshotComplete
  | .fkey _ _ _ _ _ _ => .fkey
  | .fkeyZeroDone => .fkeyZeroDone
  | .tlbinv _ _ _ => .tlbinv
  | .tlbinvDone _ => .tlbinvDone
  | .pgrespRetry _ _ _ => .pgrespRetry
  | .pgrespError _ _ _ _ => .pgrespError
  | .skip _ _ _ => .skip
  | .queueDescriptorWrite _ _ _ _ _ => .queueDescriptorWrite
  | .queueEnable _ _ _ => .queueEnable
  | .queueDisable _ _ _ => .queueDisable
  | .errcClear _ _ _ _ => .errcClear
  | .queueTailWrite _ _ _ _ => .queueTailWrite
  | .doorbell _ _ _ => .doorbell
  | .curatorRingWrite _ _ _ => .curatorRingWrite
  | .dprovRingWrite _ _ _ => .dprovRingWrite
  | .registerWrite _ _ => .registerWrite
  | .iwselWrite _ _ => .iwselWrite
  | .iwdataRead _ => .iwdataRead
  | .faultLogClear _ _ _ => .faultLogClear
  | .barstatClear _ _ _ => .barstatClear
  | .tableWindowWrite _ _ _ => .tableWindowWrite
  | .hostRead _ _ => .hostRead
  | .hostWrite _ _ => .hostWrite
  | .hostSnoop _ _ => .hostSnoop
  | .birspReceived _ => .birspReceived
  | .linkEnable _ _ => .linkEnable
  | .linkDisable _ _ => .linkDisable
  | .linkTrained _ _ _ => .linkTrained
  | .linkTrainingFail _ => .linkTrainingFail
  | .laneFail _ => .laneFail
  | .linkRetrainUp _ => .linkRetrainUp
  | .linkFault _ => .linkFault
  | .queueRecordRead _ _ => .queueRecordRead
  | .waitphTurnNotify _ _ => .waitphTurnNotify
  | .recordDispatch _ => .recordDispatch
  | .teamPlace _ => .teamPlace
  | .zeroingComplete _ => .zeroingComplete
  | .teamRetire _ => .teamRetire
  | .gridComplete _ => .gridComplete
  | .provenanceRecordWrite _ => .provenanceRecordWrite
  | .killComplete _ => .killComplete
  | .retireComplete _ => .retireComplete
  | .issueSlotDecision _ _ => .issueSlotDecision
  | .resultsComplete _ => .resultsComplete
  | .pathDue _ => .pathDue
  | .waitAging _ => .waitAging
  | .rendezvousComplete _ => .rendezvousComplete
  | .repackDone _ => .repackDone
  | .preemptTake _ => .preemptTake
  | .forcedFrost _ => .forcedFrost
  | .teamThaw _ => .teamThaw
  | .watchdogExpiry _ => .watchdogExpiry
  | .beatTokenGrant _ _ => .beatTokenGrant
  | .packetGrant _ _ _ => .packetGrant
  | .l2Load _ => .l2Load
  | .l2Store _ => .l2Store
  | .l2Atomic _ => .l2Atomic
  | .replyReceived _ _ => .replyReceived
  | .msAccess _ => .msAccess
  | .qclkReconcile => .qclkReconcile
  | .rebaseStart => .rebaseStart
  | .unitRebase _ => .unitRebase
  | .rebaseEpochBroadcast => .rebaseEpochBroadcast
  | .coreRebase _ => .coreRebase
  | .rebaseComplete => .rebaseComplete
  | .pageWalkComplete _ _ _ => .pageWalkComplete
  | .pendingEntryFree _ => .pendingEntryFree
  | .pageRequestWrite _ _ _ => .pageRequestWrite
  | .catalogueEntryFree _ => .catalogueEntryFree
  | .replayComplete _ => .replayComplete
  | .eccUncorrectable _ _ => .eccUncorrectable
  | .messageArrival _ => .messageArrival
  | .peerArrival _ => .peerArrival
  | .remoteAccess _ => .remoteAccess
  | .enginePhaserUpdate _ => .enginePhaserUpdate
  | .phaserWaitRetest _ => .phaserWaitRetest
  | .copyBeat _ => .copyBeat
  | .bankopElement _ _ => .bankopElement
  | .jobStepCommit _ => .jobStepCommit
  | .engineCommandFinish _ => .engineCommandFinish
  | .mpairStart _ => .mpairStart
  | .mpairTimeout _ => .mpairTimeout
  | .scrubZero _ => .scrubZero
  | .bankScrubDone _ _ => .bankScrubDone
  | .curatorStart _ _ => .curatorStart
  | .dieCuratorClear _ _ => .dieCuratorClear
  | .gracePeriodComplete _ => .gracePeriodComplete
  | .counterFlush _ _ => .counterFlush
  | .barometerWindowEnd _ _ => .barometerWindowEnd
  | .fabricError => .fabricError
  | .thermalStop => .thermalStop
  | .thermalClockStep _ => .thermalClockStep
  | .powerClockStep _ => .powerClockStep
  | .railFault => .railFault
  | .deviceReset _ => .deviceReset
  | .bridgeLineFetch _ => .bridgeLineFetch
  | .placementWaitExpiry _ => .placementWaitExpiry

end Sys2Proof
end

