-- ==== Sys2Proof/Machine/State.lean ====
section
/-! DEFINITION. The state of the device as plain data: the administration of partitions, domains and queues; grids, teams and
groups; the cores with their register space and SRAM; the memory system; the traffic in flight; the engines; and the
model's own control fields (which agent moves next, the counter of the free values). INVENTORY.md lists every piece with the
rule that names it. -/

namespace Sys2Proof.Machine

/-! ## Plain containers -/

/-- A sparse table: entries by number, rising; an absent entry reads as a default that its accessor names. -/
abbrev Tab (β : Type) := List (Nat × β)

/-- Byte memory: (address, byte) pairs, addresses strictly rising, no entry equal to the byte an unlisted address reads as. -/
abbrev Mem := List Host.Cell

/-- A 32-bit lane mask; bit L stands for lane L (04 R53). -/
abbrev Mask := BitVec 32

/-- A timestamp and its epoch (07 R105). -/
structure Ts where
  v : Nat
  ep : Bool
  deriving DecidableEq, Repr, Inhabited

/-! ## Traps -/

/-- A trap: its cause code and subcode, the value of %trapinfo, the saved PC, the lanes and call depth of the path that raised it, and
whether a word raised it or it waits for the boundary (13 R199, 04 R57). -/
structure Trap where
  cause : Nat
  sub : Nat
  info : Nat
  pc : Nat
  depth : Nat
  mask : Mask
  word : Bool
  owner : Nat
  deriving DecidableEq, Repr, Inhabited

/-! ## Groups -/

/-- Group states (04 R67). -/
inductive GState where
  | held | ready | issuing | results | blocked | fault | trap | rendezvous | frozen | evicted | exited | empty | stopped
  deriving DecidableEq, Repr, Inhabited

/-- What a path waits on (04 R59): a phaser generation (home core and scratchpad address, or device address), a grace
ticket per lane, a gate call, or a held word of another unit. -/
inductive Wait where
  /-- A turn of the phaser at a place of SRAM, or of device memory: the next one (11 R177), or one after which bit 0 of GEN is
  the parity given (11 R183). -/
  | phaser (dev : Bool) (addr : Nat) (parity : Option Bool)
  /-- The latest grace ticket of the waiting lanes, of a domain (12 R190). -/
  | ticket (did t : Nat)
  /-- A GWAIT: its number in order of arrival, tag, tag mask, buffer offset (19 R334). -/
  | gate (ord tag mask buf : Nat)
  /-- A device phaser whose home had no free record: the core tests it again every 1024 cycles; it remembers a turn (11 R177). -/
  | retest (addr : Nat) (turned : Bool)
  /-- A wait that has not yet reached its home: the number of its operation (08 R123). -/
  | post (id : Nat)
  deriving DecidableEq, Repr, Inhabited

/-- A path (04 R59): PC, call depth, lanes, fairness timer and whether it is due (04 R60); the waits that block it, each with
the address of the word that began it; the accesses that a release fence makes its later writes wait for (08 R131); and,
where its lanes have executed REGROUP, the address of that word (04 R61). -/
structure Path where
  pc : Nat
  depth : Nat
  mask : Mask
  timer : Nat
  due : Bool
  waits : List (Nat × Wait)
  fence : List Nat
  rdv : Option Nat
  deriving DecidableEq, Repr, Inhabited

/-- What a result is written to (04 R55, R56): physical register rows per lane, scalar registers, or nothing. -/
inductive Dest where
  | none
  /-- Rows of register space, for a 32, 64 or 128-bit value: the row of the low word, and their count. -/
  | rows (row : List Nat)
  /-- Scalar registers, from the low word. -/
  | sregs (n cnt : Nat)
  deriving DecidableEq, Repr, Inhabited

/-- A variable-latency result of a run, in issue order (04 R56): where it goes, for which lanes, its values when they are
known (by lane, or under 32 one for every lane), its flags, the number of what it waits for, whether it is complete, and whether
it waits on another party and so holds the group as a held load does (19 R320, 06 R95). -/
structure Result where
  dest : Dest
  lanes : Mask
  vals : List (Nat × Nat)
  flags : List (Nat × LaneFlags)
  src : Option Nat
  done : Bool
  held : Bool
  deriving DecidableEq, Repr, Inhabited

/-- The successor of a lane after a run (04 R58): PC and call depth, or an exit; a lane may have executed REGROUP. -/
structure Succ where
  lane : Nat
  pc : Nat
  depth : Nat
  deriving DecidableEq, Repr, Inhabited

/-- A run in progress (04 R54): the words still to issue, the address of the next one, the run's first address, the gang and
its call depth, the words issued, the waits its words began, the word trap that ended it, successors, marks, the requests
that its fences await (08 R131), the operations to count at commit (14 R209, R210), and its number. -/
structure Run where
  words : List Bits64
  pc : Nat
  start : Nat
  gang : Mask
  depth : Nat
  issued : Nat
  closed : Bool
  waits : List (Mask × Nat × Wait)
  trap : Option Trap
  succ : List Succ
  exits : Mask
  regroup : Mask
  yielded : Bool
  tret : Mask
  halt : Bool
  fence : List Nat
  hold : List Nat
  counts : Tab Nat
  num : Nat
  deriving DecidableEq, Repr, Inhabited

/-- A trap in progress (13 R200, R201): its record, the paths held while the handler runs, the waits and release obligations
that the resumed path still has, lanes whose handler path has finished, and for PREEMPT the end of the budget and the frame as
it stood (05 R77, R79). -/
structure Handler where
  trap : Trap
  held : List Path
  waits : List (Nat × Wait)
  fence : List Nat
  finished : Mask
  budget : Option Nat
  frame : Nat
  deriving DecidableEq, Repr, Inhabited

/-- A gate call in an inbox or taken (01 R24): the number of the caller's result, the caller, the entry values kept, its argument,
its reply buffer, the caller's timestamp, the group that has taken it, and whether its caller has been killed since. -/
structure Call where
  id : Nat
  caller : Nat
  cdid : Nat
  gate : Nat
  tag : Nat
  target : Nat
  maxarg : Nat
  frz : Bool
  size : Nat
  argOff : Nat
  repOff : Nat
  gts : Ts
  taker : Option Nat
  gone : Bool
  deriving DecidableEq, Repr, Inhabited

/-- A group, or the matrix sequencer of a team (gid 32). A result of a gate call that is still owed when its caller takes PREEMPT stands
in `owed` (01 R24, 19 R359). `passOver` is set by YIELD until the next arbitration of its slot (18 R296); `parked` are the accesses
catalogued for which it stays in FAULT until they have completed (13 R206). While it is frozen, `rbcAt` is the rebase count of its frame's
GTS, and `fences` are the accesses that its paths' release fences still await, with the lanes of each path (08 R131). -/
structure Group where
  team : Nat
  gid : Nat
  slot : Nat
  roleC : Bool
  st : GState
  live : Mask
  tids : List Nat
  preds : List Mask
  flags : List LaneFlags
  depth : List Nat
  gts : Ts
  drift : Nat
  base : Nat
  level : Nat
  wait : Nat
  wrow : Nat
  wbase : Nat
  wcount : Nat
  paths : List Path
  justRun : Nat
  yielded : Bool
  passOver : Bool
  run : Option Run
  results : List Result
  owed : List Result
  btraps : List Trap
  parked : List Nat
  preempt : Bool
  handler : Option Handler
  trapcause : Nat
  trapinfo : Nat
  phreg : Nat
  call : Option Nat
  outCall : Option Nat
  frame : Nat
  rbcAt : Nat
  fences : List (Mask × List Nat)
  deriving DecidableEq, Repr, Inhabited

/-! ## Teams and grids -/

/-- Presence, scrub mark, owner and poison of an SRAM row (06 R94, 01 R21, 13 R207). -/
structure SRow where
  pend : Nat
  scrub : Bool
  owner : Option Nat
  poison : Bool
  deriving DecidableEq, Repr, Inhabited

/-- A team image in the save area (05 R76, R80): its place and size; the register rows that have been spilt and which of them are
poisoned, scratchpad bytes and the state of their rows; the replies that arrived with the group and offset of each (05 R81); the register
rows, the scratchpad rows and the scalar files (by %gid) that have been evicted; and the writes of the image that memory has not yet
taken, by their offset. A scalar file stands under its group's name wherever it is. -/
structure Image where
  addr : Nat
  size : Nat
  rows : List (Nat × List Word)
  bad : List Nat
  sram : Mem
  tags : List (Nat × SRow)
  replies : List (Nat × Nat × Bytes)
  evRows : List Nat
  evSram : List Nat
  evSregs : List Nat
  pending : List (Nat × Bytes)
  deriving DecidableEq, Repr, Inhabited

/-- A team (04 R52, 05 R75 to R82, 19 R338, R343). -/
structure Team where
  grid : Nat
  id : Nat
  rank : Nat
  cluster : Nat
  core : Nat
  slot : Nat
  did : Nat
  part : Nat
  rowBase : Nat
  rowCnt : Nat
  sramBase : Nat
  sramCnt : Nat
  slots : List Nat
  held : Bool
  zeroing : Bool
  freezing : Bool
  frozen : Bool
  thawing : Bool
  resumed : Nat
  handle : Nat
  finished : List (Nat × Nat)
  retired : Bool
  image : Option Image
  drops : Option (Nat × Nat)
  frames : List Nat
  repack : Bool
  deriving DecidableEq, Repr, Inhabited

/-- The fields of a launch record (02 R32). -/
structure Launch where
  cls : Nat
  prio : Nat
  mx : Bool
  wt : Bool
  dn : Bool
  nteams : Nat
  entry : Nat
  mentry : Nat
  threads : Nat
  clus : Nat
  vregs : Nat
  phasers : Nat
  srows : Nat
  arows : Nat
  roles : Nat
  trows : Nat
  const : Nat
  csize : Nat
  doneph : Nat
  waitph : Nat
  waitgen : Nat
  fmts : List Bits64
  coresel : Nat
  jobtag : Nat
  deriving DecidableEq, Repr, Inhabited

/-- A dispatched grid (02 R34, 03 R48 to R50, 14 R216). `next` is the next team to place, `ptr` the wave's pointer, `waiting` since when
it cannot place while others did, `bar` whether that has lasted so long that it bars younger grids, `retired` the teams that have retired;
`stage` is 0 while it runs, 1 while DONEPH waits for the host, 2 once its record is due, 3 once its arrival is, 4 once nothing is; `start`
the virtual clock at dispatch, `links` the peer links seen with their key hashes, `hash` that of its record, `used` the counters in which
it committed, `vend` the virtual clock at its end, and `rel` the latest timestamp of its retired teams and finished commands, which the
release of its arrival carries. -/
structure Grid where
  did : Nat
  part : Nat
  queue : Nat
  index : Nat
  order : Nat
  launch : Launch
  consts : Bytes
  gts : Ts
  next : Nat
  ptr : Nat
  wave : Bool
  waiting : Option Nat
  bar : Bool
  retired : Nat
  stage : Nat
  status : Nat
  start : Nat
  links : List (Nat × Nat)
  hash : Nat
  used : List Nat
  vend : Nat
  rel : Ts
  done : Bool
  deriving DecidableEq, Repr, Inhabited

/-! ## Domains, partitions, queues -/

/-- Domain states (01 R22). -/
inductive DState where
  | free | closed | live | draining | killing | stopped | retiring
  deriving DecidableEq, Repr, Inhabited

/-- A snapshot on its way (14 R213, R214): nonce, address, whether RETIRE asked for it, and the function that did; the counters and,
after them, the virtual clock as the cut found them. -/
structure Snap where
  fn : Nat
  nonce : Nat
  addr : Nat
  final : Bool
  pieces : List Nat
  deriving DecidableEq, Repr, Inhabited

/-- A TLBINV on its way (09 R150): its function and range, the requests that had translated through what it dropped, and the walks in
flight when it was accepted, by die and page. An engine's beat is one step, so that none is between translation and performance. -/
structure Inval where
  fn : Nat
  range : PageRange
  reqs : List Nat
  walks : List (Nat × Nat)
  deriving DecidableEq, Repr, Inhabited

/-- The curator of a domain (12 R188 to R197): the words of R197; the entries from HEAD to TAIL of the deaccession ring as the
curator holds them (address, length, ticket); the grace period in progress, with the dies that have received START, the
groups still unseen (four times the group's key plus the die of the mark) and the dies that report CLEAR; and the batch that
waits. -/
structure Curator where
  v : Bool
  basePage : Nat
  order : Nat
  tail : Nat
  head : Nat
  ripe : Nat
  entries : List (Nat × Nat × Nat)
  next : Nat
  doneTk : Nat
  gfloor : Ts
  running : Option (List Nat)
  trun : Ts
  last : Nat
  tpend : Ts
  pendLast : Nat
  pendv : Bool
  marked : List Nat
  clear : List Nat
  deriving DecidableEq, Repr, Inhabited

/-- A domain (01 R17, R22, 13 R384). `snaps` are the snapshots on their way, the oldest first; `freezing` the teams that a FROST of a
function still waits for (05 R75); `tlbinv` the TLBINVs not yet done, with what each waits for (09 R150); `rrQueue` the queue served last
of each priority (02 R31); `vpend` the cycles of the virtual clock that have not been sent since `vsent` (14 R220). -/
structure Dom where
  st : DState
  part : Nat
  slot : Nat
  root : Nat
  vector : Nat
  gates : Nat
  gateCnt : Nat
  stop : Nat
  scause : Nat
  score : Nat
  stinfo : Nat
  ffrost : Bool
  arrf : Bool
  wcount : Nat
  wlimit : Nat
  save0 : Bits64
  save1 : Bits64
  provV : Bool
  provBase : Nat
  provOrder : Nat
  provHead : Nat
  provTail : Nat
  counters : List Nat
  satBits : List Bool
  vclk : Nat
  snum : Nat
  pseq : Nat
  dgen : Nat
  snaps : List Snap
  inbox : List Call
  cur : Curator
  rrQueue : Tab Nat
  freezing : List (Nat × Nat)
  tlbinv : List Inval
  keyGen : Nat
  vpend : Nat
  vsent : Nat
  deriving DecidableEq, Repr, Inhabited

/-- A partition (01 R14, 05 R72, 14 R218); `winAt` is when the window of each barometer began. -/
structure Part where
  committed : Bool
  cores : List Nat
  domLimit : Nat
  quota : Nat
  lim0 : Bits64
  lim1 : Bits64
  barb : List Bits64
  ent0 : Bits64
  ent1 : Bits64
  e : Nat
  log : Bits64
  barstat : Nat
  hist : List (List Nat)
  histLast : List (List Nat)
  rrDom : Nat
  winAt : List Nat
  deriving DecidableEq, Repr, Inhabited

/-- Queue states (02 R29). -/
inductive QState where
  | off | idle | waiting | ready | held | error
  deriving DecidableEq, Repr, Inhabited

/-- A queue (02 R27, R29, R35): `fresh` since a descriptor write until it is enabled, the record at HEAD once it has been read and has
passed its checks with its hash, the grid last dispatched from it, and for a record that waits on a phaser its place and 0, or, once
a turn has left the generation it waits for, one more than the phaser's timestamp and epoch. -/
structure Queue where
  st : QState
  kind : Bool
  qpri : Nat
  base : Nat
  order : Nat
  quota : Nat
  errc : Nat
  head : Nat
  tail : Nat
  outst : Nat
  fresh : Bool
  record : Option Launch
  hash : Nat
  lastGrid : Option Nat
  waitGen : Option (Nat × Nat)
  deriving DecidableEq, Repr, Inhabited

/-! ## Cores -/

/-- Roles of an SRAM bank (06 R92, R93). -/
inductive Role where
  | sharedL1 | partL1 | scratch | fifo
  /-- Being zeroed, then of a role (0 partition L1, 1 scratchpad, 2 FIFO), for a BANKROLE of a group and result by a domain. -/
  | scrub (next : Nat) (holder : Option (Nat × Nat × Nat))
  deriving DecidableEq, Repr, Inhabited

/-- An L1 sector (06 R96, 07 R108), with the rebase count of its epoch, by which a sector of an epoch two rebases back is told from
one of the present epoch (07 R115). -/
structure L1Sector where
  way : Nat
  pa : Nat
  did : Nat
  wts : Nat
  rts : Nat
  ep : Bool
  rbc : Nat
  data : Bytes
  used : Nat
  deriving DecidableEq, Repr, Inhabited

/-- A replay catalogue entry (13 R204): one lane access of a request. -/
structure CatEntry where
  req : Nat
  lane : Nat
  did : Nat
  part : Nat
  deriving DecidableEq, Repr, Inhabited

/-- A translation held in a TLB (09 R147): the domain, the level of the leaf, the 16 KiB page number of its first page, and the
leaf as read. -/
structure TlbEntry where
  did : Nat
  lvl : Nat
  page : Nat
  pte : Nat
  deriving DecidableEq, Repr, Inhabited

/-- A posted receive (10 R164, R165). -/
structure Recv where
  idx : Nat
  team : Nat
  match0 : Nat
  match1 : Nat
  match2 : Nat
  match3 : Nat
  buf : Nat
  len : Nat
  phaser : Nat
  order : Nat
  deriving DecidableEq, Repr, Inhabited

/-- One crossing of a crossbar: die, network, input, output (10 R155). -/
structure Hop where
  die : Nat
  resp : Bool
  inp : Nat
  out : Nat
  deriving DecidableEq, Repr, Inhabited

/-- A message, in flight or kept in an overflow queue (10 R162, R163): the sender's %teamid and link code, the tag and payload, its
timestamp and domain, the receiving team's number (while local), the sending group and its result, in an overflow
queue the receive it is bound to and its row, when it entered the injection queue, and the beats that hold their tokens. -/
structure Msg where
  steam : Nat
  slink : Nat
  dteam : Nat
  dst : Option Nat
  link : Option Nat
  tag : Nat
  data : Bytes
  gts : Ts
  did : Nat
  grp : Nat
  res : Option Nat
  core : Nat
  bound : Option Nat
  sent : Bool
  hops : List Hop
  enq : Nat
  beats : Nat
  row : Nat
  t0 : Nat
  paid : Nat
  deriving DecidableEq, Repr, Inhabited

/-- Token buckets of a partition on a core, in units of 1/1024 token (05 R73). -/
structure Bucket where
  mem : Nat
  peer : Nat
  host : Nat
  deriving DecidableEq, Repr, Inhabited

/-- A core; `sentAt` is when it last sent a domain's increments (14 R212). -/
structure Core where
  dpreg : Tab (Bits64 × Bits64)
  roles : Tab Role
  bankPart : Tab Nat
  l1 : List L1Sector
  tlb : List TlbEntry
  deficits : Tab Int
  pointers : List Nat
  buckets : Tab Bucket
  inj : Tab (List Nat)
  catalogue : List CatEntry
  catWait : List CatEntry
  catSeq : Nat
  recvs : List Recv
  ovf : Tab (List Msg)
  matrixTurn : Nat
  tileOwner : Option Nat
  incs : Tab (List Nat)
  epoch : Bool
  sentAt : Tab Nat
  deriving DecidableEq, Repr, Inhabited

/-- Owner tag and poison of a register row (01 R21, 13 R207). -/
structure RowTag where
  owner : Option Nat
  poison : Bool
  deriving DecidableEq, Repr, Inhabited

/-! ## Memory system -/

/-- A line of an L2 slice, or a bridge line (07 R107, R119). -/
structure Line where
  v : Bool
  pa : Nat
  wts : Nat
  rts : Nat
  cls : Nat
  key : Nat
  h : Bool
  ep : Bool
  snooped : Bool
  dirty : Nat
  data : Bytes
  used : Nat
  mesi : List Nat
  poison : Nat
  deriving DecidableEq, Repr, Inhabited

/-- A slice's own registers (07 R107). -/
structure Slice where
  seq : Nat
  ep : Bool
  deriving DecidableEq, Repr, Inhabited

/-- A timestamp directory (07 R112): region entries in the order they were set, QFLOOR and QCLK. -/
structure Dir where
  regions : List (Nat × Nat)
  qfloor : Nat
  qclk : Nat
  ep : Bool
  deriving DecidableEq, Repr, Inhabited

/-- Key index and poison of a 128 B sector of device memory (01 R382, 13 R207); gen names the key that encrypted it. -/
structure Sector where
  key : Nat
  gen : Nat
  poison : Bool
  deriving DecidableEq, Repr, Inhabited

/-- The CXL bridge (07 R117 to R119). -/
structure Bridge where
  hts : Nat
  ep : Bool
  seq : Nat
  lines : Tab Line
  snoop : List Nat
  bisnp : List (Nat × Bool)
  deriving DecidableEq, Repr, Inhabited

/-- A pending entry of a die: a translation failure reported to the host (09 R151 to R153). The waiters are requests,
engine commands, phaser updates and fetches by number, in the order in which they joined. -/
structure PendEntry where
  id : Nat
  did : Nat
  page : Nat
  reason : Nat
  access : Nat
  level : Nat
  core : Nat
  written : List Nat
  waiters : List Nat
  deriving DecidableEq, Repr, Inhabited

/-- A die's translation units and crossbar (09 R147 to R151, 10 R156, R157): the die TLB and the walk cache (domain, level, index
prefix, table address), both newest first; walks in flight (domain, page); the pending table and the failures that wait for
an entry of it; the ranks of the crosspoints by network and output; and the walks that wait for a walker, the oldest first, with one
more than the partition that took a walker last. -/
structure Die where
  tlb : List TlbEntry
  wcache : List (Nat × Nat × Nat × Nat)
  walks : List (Nat × Nat)
  pend : List PendEntry
  pendWait : List PendEntry
  reqid : Nat
  ranks : Tab (List Nat)
  walkWait : List (Nat × Nat)
  rrWalk : Nat
  deriving DecidableEq, Repr, Inhabited

/-! ## Traffic -/

/-- One lane of an access: virtual and physical address, bytes, and data for a store or an atomic. -/
structure LaneAcc where
  lane : Nat
  va : Nat
  pa : Nat
  size : Nat
  data : Nat
  data2 : Nat
  deriving DecidableEq, Repr, Inhabited

/-- What a request does at its ordering point. An MST stands as four parts, one for each copy of a REPL page; on another page one part
remains, as a store. A fetch is the wait of a group for the translation of its PC (03 R42). -/
inductive ReqOp where
  | load | prefetch (l2 : Bool) | store | mst (copy : Nat) | atomic (op : Nat) | red (op : Nat) | cas | probe | push | pop
  | clean | inval | flush | fetch
  deriving DecidableEq, Repr, Inhabited

/-- Where a request stands. -/
inductive Stage where
  /-- Waits for a page walk (09 R148). -/
  | walk
  /-- Fault-parked: in the replay catalogue, or behind an access that is (13 R205). -/
  | catalogued
  /-- Translated and not yet to be sent (08 R123, R129, 06 R103); for the scratchpad, behind a pending copy (06 R95). -/
  | inject
  /-- In its partition's injection queue on the core (05 R73). -/
  | queued
  /-- Crosses the request network (10 R156). -/
  | net
  /-- Stands at its ordering point. -/
  | point
  /-- Waits there for BIRsp (07 R118). -/
  | bisnp
  /-- Performed; the reply crosses back. -/
  | back
  deriving DecidableEq, Repr, Inhabited

/-- A memory request in flight: the part of one word's access that one ordering point performs as one, with the number of its run and the
level of its leaf, and how many of its beats hold their tokens; `late` marks a scratchpad store that found a row not present (06 R95, 08
R133). -/
structure Req where
  grp : Nat
  core : Nat
  did : Nat
  part : Nat
  pc : Nat
  opc : Nat
  hint : Nat
  dreg : Option Nat
  iseq : Nat
  mask : Mask
  op : ReqOp
  size : Nat
  sx : Bool
  na : Bool
  order : Order
  scope : Scope
  rmt : Option Nat
  lanes : List LaneAcc
  res : Option Nat
  gts : Ts
  held : Bool
  waits : List Nat
  stage : Stage
  pte : Option Nat
  point : Nat
  hops : List Hop
  enq : Nat
  renew : Option Ts
  t0 : Nat
  back : List (Nat × Nat)
  ts : Option (Nat × Nat × Bool)
  bytes : Bytes
  fail : Option Trap
  rs : Bool
  run : Nat
  late : Bool
  lvl : Nat
  paid : Nat
  deriving DecidableEq, Repr, Inhabited

/-- An operation of a word on another unit (a phaser's home, the curator, the message unit, a gate inbox, an engine, a device queue)
that waits to be sent: behind the accesses that its release awaits (08 R129), behind an earlier operation of its group on the
same unit (08 R123), for a scratchpad block that is not present (19 R320), or, where its translation failed, for its replay
(19 R323, R336). Its operands are as the word read them, and `iseq` is the core's issue sequence then (13 R204). -/
structure Post where
  grp : Nat
  core : Nat
  did : Nat
  part : Nat
  pc : Nat
  depth : Nat
  opc : Nat
  sub : Nat
  gang : Mask
  act : Mask
  args : List Nat
  res : Option Nat
  unit : Nat
  waits : List Nat
  need : Option (Nat × Nat)
  blk : Bytes
  parked : Bool
  iseq : Nat
  deriving DecidableEq, Repr, Inhabited

/-! ## Engines -/

/-- An engine command: a copy, a BANKOP or a matrix job (19 R336 to R349). `kind` is its opcode, `mask` its gang. Phase 0: its block is
not yet read; 1: its pending counts cannot rise yet; 2: it waits for what its acquire or a release fence awaits; 3: a side of an MPAIR
that is ready; 4: accepted. `waits` are the accesses that a release fence before it awaits, `loads` and `acqPh` the loads, atomics and
phaser waits that its acquire awaits. Then come its handle, the cycles of its issue and of an MPAIR's readiness (once accepted, its place
in the order of acceptance), the other side of its pair, command and completion timestamps, how far it has come (bytes of a copy, steps of
a job), the elements of a BANKOP that are done, the values of a REDUCE or the number of step arrivals sent, flags and status, what is left
to arrive in each scratchpad row (team * 4096 + row, bytes), whether its end arrivals have been sent, whether it waits for the host to
repair a translation, the lines that its tile fetch has pinned (06 R98), and, by core, the memory and host tokens that its next piece of
work needs and those it already holds (05 R73), and the core's issue sequence at its issue (13 R204). -/
structure Cmd where
  team : Nat
  grp : Nat
  core : Nat
  did : Nat
  part : Nat
  kind : Nat
  mask : Mask
  pc : Nat
  res : Option Nat
  blk : Bytes
  blkAt : Nat
  glob : Bool
  pairTag : Nat
  phase : Nat
  waits : List Nat
  loads : List Nat
  acqPh : Bool
  handle : Nat
  t0 : Nat
  t1 : Nat
  mate : Option Nat
  cts : Ts
  maxts : Ts
  pos : Nat
  elems : List Nat
  acc : List Nat
  flags : LaneFlags
  status : Nat
  rowsLeft : List (Nat × Nat)
  moved : Bool
  parked : Bool
  rs : Bool
  pins : List Nat
  owed : Tab (Nat × Nat)
  paid : Tab (Nat × Nat)
  iseq : Nat
  deriving DecidableEq, Repr, Inhabited

/-- A phaser update sent by an engine command and not yet applied (11 R179): its phaser, in SRAM or at a virtual address, with
what %trapinfo would name; 1 INB, 2 OUTB or 3 ARRIVE, by how many bytes, for which generation, with which timestamp; held at the
home until the turn; waiting for the host to repair its translation; and when it first reached its home. -/
structure Upd where
  cmd : Nat
  team : Nat
  grp : Nat
  core : Nat
  did : Nat
  dev : Bool
  addr : Nat
  info : Nat
  kind : Nat
  n : Nat
  gen : Nat
  ts : Ts
  held : Bool
  parked : Bool
  order : Nat
  deriving DecidableEq, Repr, Inhabited

/-- A SCRUB in progress (19 R358): its rows of the team's scratchpad, and the earlier copies it waits for. -/
structure Scrub where
  team : Nat
  grp : Nat
  mask : Mask
  rows : List Nat
  waits : List Nat
  deriving DecidableEq, Repr, Inhabited

/-! ## The whole -/

/-- A rebase in progress (07 R115): its phase, 2 until the new epoch is broadcast and then 4, and the units and cores that have not
acknowledged. -/
structure Rebase where
  phase : Nat
  units : List RUnit
  cores : List Nat
  deriving DecidableEq, Repr, Inhabited

/-- A remote access that has arrived over a link and has not been answered (18 R307); it may wait for the host to repair a
translation. -/
structure Remote where
  acc : RemoteAcc
  parked : Bool
  deriving DecidableEq, Repr, Inhabited

/-- A peer link (10 R167, 14 R217): its state, its active lanes, the hash of the remote key of its last training, and the flits retried. -/
structure Link where
  st : Nat
  lanes : Nat
  hash : Nat
  retry : Nat
  deriving DecidableEq, Repr, Inhabited

/-- The page request ring of a function (09 R152). -/
structure Prq where
  base : Nat
  order : Nat
  head : Nat
  tail : Nat
  deriving DecidableEq, Repr, Inhabited

/-- Device-wide state; `peerOut` are the replies sent to peer devices, by link, and `retireAt` is one more than the cycle of the last
retirement of a team (03 R51); `frost` is the status that each function's last FROST has returned (05 R75, R83); `softErrs` counts
the soft errors corrected (13 R207). -/
structure Sys where
  clk : Nat
  fab : Nat
  up : Bool
  fatal : Option Nat
  rail : Bool
  rbc : Nat
  rebase : Option Rebase
  tsReport : Bool
  dgen : Nat
  resets : Nat
  mhz : Nat
  watts : Nat
  throttle : Bool
  irqs : List (Nat × Nat)
  pfLog : List Nat
  status : Tab Nat
  reply : Tab Nat
  tbase : Nat
  tsize : Nat
  tablePages : Tab Nat
  frameKeys : Tab (Bool × Nat)
  fkey : Option (Nat × Nat)
  keys : Tab Nat
  peers : Tab (Nat × Nat × Nat)
  links : List Link
  iwsel : Tab Bits64
  iwdata : Bits64
  prq : Tab Prq
  hostRead : Bytes
  harvest : List (Nat × Nat)
  bypass : List (Nat × Bool × Nat × Nat)
  hostLanes : Nat
  distTs : Ts
  peerOut : List (Nat × PeerReply)
  retireAt : Nat
  frost : Tab Nat
  softErrs : Nat
  deriving DecidableEq, Repr, Inhabited

/-- Partitions, domains, queues. -/
structure Admin where
  parts : Tab Part
  doms : Tab Dom
  queues : Tab Queue
  deriving DecidableEq, Repr, Inhabited

/-- Grids, teams, groups. -/
structure Work where
  grids : Tab Grid
  teams : Tab Team
  groups : Tab Group
  deriving DecidableEq, Repr, Inhabited

/-- Cores, register space, scalar files, SRAM; the owners of the scalar files of group slots 0 to 63 and of the sequencers of team slots
0 to 15, as core * 80 plus the file (01 R21). -/
structure CoreSpace where
  cores : Tab Core
  rows : Tab (List Word)
  rowTags : Tab RowTag
  sregs : Tab Word
  sram : Mem
  sramTags : Tab SRow
  fileTags : Tab Nat
  deriving DecidableEq, Repr, Inhabited

/-- The memory system; `oldText` are the words, by address over 8, as they stood before a host write that a grid in progress may not
see (03 R46). -/
structure MemSys where
  dram : Mem
  host : Mem
  sectors : Tab Sector
  lines : Tab Line
  slices : Tab Slice
  dirs : Tab Dir
  clocks : Tab Ts
  bridge : Bridge
  dies : Tab Die
  oldText : Tab Nat
  deriving DecidableEq, Repr, Inhabited

/-- Traffic in flight and the engines. -/
structure Flight where
  reqs : Tab Req
  posts : Tab Post
  msgs : Tab Msg
  cmds : Tab Cmd
  upds : Tab Upd
  scrubs : Tab Scrub
  remotes : Tab Remote
  deriving DecidableEq, Repr, Inhabited

/-- What may happen next: a command or event, or the next word of the run of a group or sequencer. -/
inductive Turn where
  | event (h : Happening)
  | word (g : Nat)
  deriving DecidableEq, Repr, Inhabited

/-- The model's own fields: the turns already chosen, the happening offered now, the unit whose word issues, the counter of
the free values, and the next number for a request, command or team. -/
structure Control where
  agenda : List Turn
  ev : Option Happening
  cur : Option Nat
  free : Nat
  nextId : Nat
  deriving DecidableEq, Repr, Inhabited

/-- The state of the device. -/
structure State where
  sys : Sys
  adm : Admin
  work : Work
  core : CoreSpace
  mem : MemSys
  fly : Flight
  ctl : Control
  deriving DecidableEq, Repr, Inhabited

/-- Why the machine stops. -/
inductive Fault where
  /-- An instruction word is executed while no group or sequencer has a run in progress: the device never does this; safe. -/
  | notIssuing
  deriving DecidableEq, Repr

/-- Why the model gives a step no meaning. -/
inductive Refusal where
  /-- An instruction whose meaning is not written; raised by the dispatch arm only; safe. -/
  | notModelled (mnemonic : String)
  deriving DecidableEq, Repr

/-! ## Reset -/

/-- The device-wide state right at reset. -/
def Sys.reset : Sys :=
  { clk := 0, fab := 0, up := false, fatal := none, rail := false, rbc := 0, rebase := none, tsReport := false, dgen := 0,
    resets := 0, mhz := 1000, watts := 2200, throttle := false, irqs := [], pfLog := [], status := [], reply := [],
    tbase := 0, tsize := 0, tablePages := [], frameKeys := [], fkey := none, keys := [], peers := [], links := [], iwsel := [],
    iwdata := 0#64, prq := [], hostRead := [], harvest := [], bypass := [], hostLanes := 16, distTs := ⟨0, false⟩, peerOut := [],
    retireAt := 0, frost := [], softErrs := 0 }

/-- An empty bridge. -/
def Bridge.reset : Bridge := { hts := 0, ep := false, seq := 0, lines := [], snoop := [], bisnp := [] }

/-- The memory system right at reset: nothing written, nothing cached. -/
def MemSys.reset : MemSys :=
  { dram := [], host := [], sectors := [], lines := [], slices := [], dirs := [], clocks := [], bridge := Bridge.reset,
    dies := [], oldText := [] }

/-- The device right after reset, before the bring-up of 23 R380. -/
def State.reset : State :=
  { sys := Sys.reset, adm := ⟨[], [], []⟩, work := ⟨[], [], []⟩, core := ⟨[], [], [], [], [], [], []⟩, mem := MemSys.reset,
    fly := ⟨[], [], [], [], [], [], []⟩, ctl := { agenda := [], ev := none, cur := none, free := 0, nextId := 1 } }

end Sys2Proof.Machine
end

