-- ==== Sys2Proof/Config.lean ====
section
/-! DEFINITION. The free values: constants without a body, of which no proof can see the value. Each stands for something
the specification leaves to the device or to its surroundings; the notes in notes/assumptions name each of them. -/

namespace Sys2Proof.Config

/-- Which of the two FP32 neighbours a faithfully rounded operation returns: true for the upper one. The device returns the
same one for the same operand every time (17 R274), so this depends on the operation (its opcode) and the operand alone. -/
opaque faithfulUp : Nat → Word → Bool

/-- What happens next where the agenda names nothing: the n-th free choice of an agent, command or event. -/
opaque freeTurn : Nat → Machine.Turn

/-- Arithmetic cycles that pass before the n-th free command or event. -/
opaque freeCycles : Nat → Nat

/-- Fabric cycles that pass before the n-th free command or event. -/
opaque freeFabric : Nat → Nat

/-- The bytes a 128 B sector decrypts to under a key other than the one it was written under (01 R382: they carry no meaning):
by key index, the generation it was written under, the generation now (0: none), sector number and the bytes written. -/
opaque garble : Nat → Nat → Nat → Nat → Bytes → Bytes

/-- The set of the die TLB, and of the walk cache, in which an entry of a domain, level and page number stands (09 R147 gives their
ways, and no index: log 71). -/
opaque tlbSet : Nat → Nat → Nat → Nat

/-- Whether the n-th fetch of a word that the host has rewritten under a grid in progress finds the old word (03 R46). -/
opaque oldWord : Nat → Bool

/-- Fabric cycles of the n-th latency that the model does not otherwise time: of engines' and walkers' accesses (14 R218). -/
opaque latency : Nat → Nat

/-- Whether tile fetch pins the n-th line that it reads (06 R98). -/
opaque tilePin : Nat → Bool

/-- What a peer device answers to the n-th message sent to it, as one of DONE, OVERFLOW, NOT_BOUND and NO_DEST. -/
opaque peerAnswer : Nat → Nat

/-- The timestamp with which the n-th message from a peer device counts. -/
opaque peerTs : Nat → Nat

/-- BOOTID: the 128-bit number drawn at the n-th device reset (14 R214). -/
opaque bootId : Nat → Nat

/-- DEVID: SHA-384 of the device attestation public key (14 R214). -/
opaque deviceId : Nat

/-- FWM: SHA-384 of the firmware that runs since the n-th device reset (14 R214). -/
opaque firmware : Nat → Nat

/-- The n-th signature of the attestation key, r and s, over the SHA-384 digest of a record (14 R214). -/
opaque signature : Nat → Nat → Nat × Nat

/-- Flits that a link has retried in the n-th lapse of time in which it carried traffic (10 R167). -/
opaque flitRetries : Nat → Nat → Nat

/-- Soft errors that the codes of memory have corrected in the n-th lapse of time (13 R207). -/
opaque softErrors : Nat → Nat

/-- The n-th word that the inspection window returns of an object whose layout the specification does not give (13 R208). -/
opaque inspectWord : Nat → Bits64

end Sys2Proof.Config
end

