-- ==== Sys2Proof/Machine/Alu.lean ====
section
/-! DEFINITION. The integer, packed, compare and predicate computations of one lane (17 R264 to R269, R278 to R286), as
functions of operand values: each converts its operands to integers, computes exactly, and narrows once. -/

namespace Sys2Proof.Machine

/-- The value of one lane result: the bits written (a 32-bit result in the low half) and the flags set. -/
abbrev LaneRes := Bits64 × LaneFlags

/-- A 32-bit result without flags. -/
def res32 (x : Word) : LaneRes := (x.zeroExtend 64, 0#8)

/-- A 32-bit result of an integer, modulo 2^32. -/
def resInt (x : Int) : LaneRes := (BitVec.ofNat 64 (wrap 32 x), 0#8)

/-- A 32-bit result clamped to signed range, with SAT (15 R238). -/
def resSatS (x : Int) : LaneRes :=
  let r := satS 32 x
  (BitVec.ofNat 64 (wrap 32 r.1), flagIf r.2 fSAT)

/-- A 32-bit result clamped to unsigned range, with SAT (15 R238). -/
def resSatU (x : Int) : LaneRes :=
  let r := satU 32 x
  (BitVec.ofNat 64 (wrap 32 r.1), flagIf r.2 fSAT)

/-- The low half of a 64-bit operand. -/
def lo32 (x : Bits64) : Word := x.truncate 32

/-- The high half of a 64-bit operand. -/
def hi32 (x : Bits64) : Word := (x >>> 32).truncate 32

/-- A 64-bit value from its halves, the low one first. -/
def join32 (l h : Word) : Bits64 := (h.zeroExtend 64 <<< 32) ||| l.zeroExtend 64

/-! ## Integer arithmetic (17 R265) -/

/-- IADD, wide or not. -/
def aluAdd (wide : Bool) (a b : Bits64) : LaneRes := if wide then (a + b, 0#8) else res32 (lo32 a + lo32 b)

/-- ISUB, wide or not. -/
def aluSub (wide : Bool) (a b : Bits64) : LaneRes := if wide then (a - b, 0#8) else res32 (lo32 a - lo32 b)

/-- IMUL. -/
def aluMul (a b : Word) : LaneRes := res32 (a * b)

/-- IMULH: the high half of the exact product. -/
def aluMulh (u : Bool) (a b : Word) : LaneRes :=
  if u then resInt ((a.toNat * b.toNat / 2 ^ 32 : Nat) : Int) else resInt (a.toInt * b.toInt / 2 ^ 32)

/-- IMAD. -/
def aluMad (a b c : Word) : LaneRes := res32 (a * b + c)

/-- IMIN. -/
def aluMin (u : Bool) (a b : Word) : LaneRes :=
  res32 (if (if u then decide (a.toNat ≤ b.toNat) else decide (a.toInt ≤ b.toInt)) then a else b)

/-- IMAX. -/
def aluMax (u : Bool) (a b : Word) : LaneRes :=
  res32 (if (if u then decide (b.toNat ≤ a.toNat) else decide (b.toInt ≤ a.toInt)) then a else b)

/-- IABS. -/
def aluAbs (sat : Bool) (a : Word) : LaneRes := if sat then resSatS (a.toInt.natAbs : Int) else resInt (a.toInt.natAbs : Int)

/-- INEG. -/
def aluNeg (sat : Bool) (a : Word) : LaneRes := if sat then resSatS (-a.toInt) else resInt (-a.toInt)

/-- ISAD. -/
def aluSad (u : Bool) (a b c : Word) : LaneRes :=
  let t : Int := if u then (a.toNat : Int) - b.toNat else a.toInt - b.toInt
  resInt ((t.natAbs : Int) + c.toNat)

/-- LEA. -/
def aluLea (n : Nat) (a b : Word) : LaneRes := res32 (a + b <<< n)

/-- IADDC: the sum with a carry in, and the carry out. -/
def aluAddc (a b : Word) (ci : Bool) : Word × Bool :=
  let t := a.toNat + b.toNat + ci.toNat
  (BitVec.ofNat 32 t, decide (2 ^ 32 ≤ t))

/-! ## Logic and shifts (17 R266) -/

/-- AND. -/
def aluAnd (a b : Word) : LaneRes := res32 (a &&& b)
/-- OR. -/
def aluOr (a b : Word) : LaneRes := res32 (a ||| b)
/-- XOR. -/
def aluXor (a b : Word) : LaneRes := res32 (a ^^^ b)
/-- ANDN. -/
def aluAndn (a b : Word) : LaneRes := res32 (a &&& ~~~b)
/-- SHL: a count of 32 or more gives 0. -/
def aluShl (a b : Word) : LaneRes := res32 (if 32 ≤ b.toNat then 0#32 else a <<< b.toNat)
/-- SHR: a count of 32 or more gives 0. -/
def aluShr (a b : Word) : LaneRes := res32 (if 32 ≤ b.toNat then 0#32 else a >>> b.toNat)
/-- SAR: the count is limited to 31. -/
def aluSar (a b : Word) : LaneRes := res32 (a.sshiftRight (min b.toNat 31))
/-- ROTL: the count is taken modulo 32. -/
def aluRotl (a b : Word) : LaneRes := res32 (a.rotateLeft (b.toNat % 32))

/-! ## Bit fields (17 R267) -/

/-- The position of a field descriptor. -/
def fieldPos (x : Word) : Nat := x.toNat % 32

/-- The length a field descriptor yields, limited to the bits above its position. -/
def fieldLen (x : Word) : Nat := min (x.toNat / 256 % 64) (32 - fieldPos x)

/-- BFX. -/
def aluBfx (sx : Bool) (a b : Word) : LaneRes :=
  let n := fieldLen b
  if n = 0 then res32 0#32
  else
    let f := a.toNat / 2 ^ fieldPos b % 2 ^ n
    if sx then resInt (signed n f) else resInt (f : Int)

/-- BFI. -/
def aluBfi (a b c : Word) : LaneRes :=
  let p := fieldPos c
  let m := 2 ^ fieldLen c
  let old := b.toNat / 2 ^ p % m
  resInt ((b.toNat : Int) - ((old * 2 ^ p : Nat) : Int) + ((a.toNat % m * 2 ^ p : Nat) : Int))

/-- The number of 1 bits among the low n bits. -/
def popc : Nat → Nat → Nat
  | 0, _ => 0
  | n + 1, x => x % 2 + popc n (x / 2)

/-- POPC. -/
def aluPopc (a : Word) : LaneRes := resInt (popc 32 a.toNat : Int)

/-- CLZ: 32 for 0. -/
def aluClz (a : Word) : LaneRes := resInt (if a.toNat = 0 then 32 else (31 - Nat.log2 a.toNat : Nat))

/-- The number of trailing 0 bits among the low n bits. -/
def ctz : Nat → Nat → Nat
  | 0, _ => 0
  | n + 1, x => if x % 2 = 1 then 0 else 1 + ctz n (x / 2)

/-- CTZ: 32 for 0. -/
def aluCtz (a : Word) : LaneRes := resInt (ctz 32 a.toNat : Int)

/-- The low n bits in reverse order. -/
def brev : Nat → Nat → Nat
  | 0, _ => 0
  | n + 1, x => x % 2 * 2 ^ n + brev n (x / 2)

/-- BREV. -/
def aluBrev (a : Word) : LaneRes := resInt (brev 32 a.toNat : Int)

/-! ## Moves (17 R268) -/

/-- SEL. -/
def aluSel (p : Bool) (a b : Word) : LaneRes := res32 (if p then a else b)

/-- The value of MOVI: IMM24 zero-extended or sign-extended. -/
def immMovi (u : Bool) (imm : BitVec 24) : Word := if u then imm.zeroExtend 32 else imm.signExtend 32

/-- MOVH. -/
def aluMovh (imm : BitVec 24) (a : Word) : LaneRes := res32 ((imm.truncate 16).append (a.truncate 16 : BitVec 16))

/-! ## Division (17 R269) -/

/-- Quotient, remainder and flags. -/
def divide (u : Bool) (a b : Word) : Word × Word × LaneFlags :=
  if b = 0#32 then (0xFFFFFFFF#32, a, if a = 0#32 then fINVALID else fDIVZERO)
  else if u then (BitVec.ofNat 32 (a.toNat / b.toNat), BitVec.ofNat 32 (a.toNat % b.toNat), 0#8)
  else if a = 0x80000000#32 ∧ b = 0xFFFFFFFF#32 then (0x80000000#32, 0#32, 0#8)
  else (BitVec.ofInt 32 (a.toInt.tdiv b.toInt), BitVec.ofInt 32 (a.toInt.tmod b.toInt), 0#8)

/-- IDIV. -/
def aluDiv (u : Bool) (a b : Word) : LaneRes := ((divide u a b).1.zeroExtend 64, (divide u a b).2.2)

/-- IREM. -/
def aluRem (u : Bool) (a b : Word) : LaneRes := ((divide u a b).2.1.zeroExtend 64, (divide u a b).2.2)

/-! ## Compares and predicates (17 R278 to R280) -/

/-- An integer condition. -/
def icond (cc : Nat) (x y : Int) : Bool :=
  match cc with
  | 0 => decide (x = y) | 1 => decide (x ≠ y) | 2 => decide (x < y) | 3 => decide (x ≤ y) | 4 => decide (y < x)
  | _ => decide (y ≤ x)

/-- ICMP. -/
def aluIcmp (cc : Nat) (u : Bool) (a b : Word) : Bool :=
  if u then icond cc a.toNat b.toNat else icond cc a.toInt b.toInt

/-- PSET. -/
def aluPset (op : Nat) (inv : Bool) (p q : Bool) : Bool :=
  let t := match op with
    | 0 => p && q
    | 1 => p || q
    | 2 => p != q
    | _ => p && !q
  t != inv

/-! ## Packed (17 R282 to R286) -/

/-- A half of a 32-bit value, h = 0 or 1, as an integer. -/
def half (u : Bool) (x : Word) (h : Nat) : Int :=
  let e : Nat := x.toNat / 2 ^ (16 * h) % 2 ^ 16
  if u then (e : Int) else signed 16 e

/-- Two 16-bit results packed, with the flags of both. -/
def packHalves (l h : Int × Bool) : LaneRes :=
  (BitVec.ofNat 64 (wrap 16 l.1 + 2 ^ 16 * wrap 16 h.1), flagIf (l.2 || h.2) fSAT)

/-- An integer that no clamp changes. -/
def noSat (x : Int) : Int × Bool := (x, false)

/-- One half of PMUL2, by its mode. -/
def mulHalf (mode : Nat) (t : Int) : Int × Bool :=
  match mode with
  | 0 => noSat t
  | 1 => satS 16 t
  | 2 => noSat (t / 2 ^ 16)
  | _ => satS 16 (rshr t 15)

/-- PMAC2. -/
def aluPmac2 (a b c : Word) : LaneRes :=
  resSatS (c.toInt + half false a 0 * half false b 0 + half false a 1 * half false b 1)

/-- PMUL2. -/
def aluPmul2 (mode : Nat) (a b : Word) : LaneRes :=
  packHalves (mulHalf mode (half false a 0 * half false b 0)) (mulHalf mode (half false a 1 * half false b 1))

/-- One half of a PADD2 or PSUB2: 0 wrap, 1 `.SAT`, 3 `.SAT.U`. -/
def addHalf (m : Nat) (t : Int) : Int × Bool := if m = 0 then noSat t else if m = 1 then satS 16 t else satU 16 t

/-- PADD2. -/
def aluPadd2 (m : Nat) (a b : Word) : LaneRes :=
  let u := m == 3
  packHalves (addHalf m (half u a 0 + half u b 0)) (addHalf m (half u a 1 + half u b 1))

/-- PSUB2. -/
def aluPsub2 (m : Nat) (a b : Word) : LaneRes :=
  let u := m == 3
  packHalves (addHalf m (half u a 0 - half u b 0)) (addHalf m (half u a 1 - half u b 1))

/-- PMAX2. -/
def aluPmax2 (u : Bool) (a b : Word) : LaneRes :=
  packHalves (noSat (max (half u a 0) (half u b 0))) (noSat (max (half u a 1) (half u b 1)))

/-- PMIN2. -/
def aluPmin2 (u : Bool) (a b : Word) : LaneRes :=
  packHalves (noSat (min (half u a 0) (half u b 0))) (noSat (min (half u a 1) (half u b 1)))

/-- PABS2. -/
def aluPabs2 (sat : Bool) (a : Word) : LaneRes :=
  let f (h : Nat) : Int × Bool :=
    let t : Int := ((half false a h).natAbs : Int)
    if sat then satS 16 t else noSat t
  packHalves (f 0) (f 1)

/-- SATADD. -/
def aluSatadd (u : Bool) (a b : Word) : LaneRes :=
  if u then resSatU ((a.toNat : Int) + b.toNat) else resSatS (a.toInt + b.toInt)

/-- SATSUB. -/
def aluSatsub (u : Bool) (a b : Word) : LaneRes :=
  if u then resSatU ((a.toNat : Int) - b.toNat) else resSatS (a.toInt - b.toInt)

/-- SHRR: 0 INT32, 1 `.H`, 2 `.P2`. -/
def aluShrr (m : Nat) (a b : Word) : LaneRes :=
  let n := min b.toNat 31
  match m with
  | 0 => resSatS (rshr a.toInt n)
  | 1 => let r := satS 16 (rshr a.toInt n); (BitVec.ofNat 64 (wrap 32 r.1), flagIf r.2 fSAT)
  | _ => packHalves (satS 16 (rshr (half false a 0) n)) (satS 16 (rshr (half false a 1) n))

/-- PACKS: [0] `.U`, [1] `.B`. -/
def aluPacks (m : Nat) (a b : Word) : LaneRes :=
  let u := m % 2 == 1
  let cl (n : Nat) (x : Int) := if u then satU n x else satS n x
  if m / 2 % 2 = 0 then packHalves (cl 16 a.toInt) (cl 16 b.toInt)
  else
    let e0 := cl 8 (half false a 0); let e1 := cl 8 (half false a 1)
    let e2 := cl 8 (half false b 0); let e3 := cl 8 (half false b 1)
    (BitVec.ofNat 64 (wrap 8 e0.1 + 2 ^ 8 * wrap 8 e1.1 + 2 ^ 16 * wrap 8 e2.1 + 2 ^ 24 * wrap 8 e3.1),
      flagIf (e0.2 || e1.2 || e2.2 || e3.2) fSAT)

/-- UNPACK: 0 `.H`, 1 `.HU`, 2 `.B`, 3 `.BU`. -/
def aluUnpack (m : Nat) (a b : Word) : LaneRes :=
  let w := if m < 2 then 16 else 8
  let e := a.toNat / 2 ^ (w * (b.toNat % (32 / w))) % 2 ^ w
  if m % 2 = 0 then resInt (signed w e) else resInt (e : Int)

/-- The sum of the products of n elements of w bits. -/
def dotSum (w : Nat) (ua ub : Bool) (a b : Word) : Nat → Int
  | 0 => 0
  | j + 1 =>
    let x := a.toNat / 2 ^ (w * j) % 2 ^ w
    let y := b.toNat / 2 ^ (w * j) % 2 ^ w
    dotSum w ua ub a b j + (if ua then (x : Int) else signed w x) * (if ub then (y : Int) else signed w y)

/-- DOT4 with w = 8, DOT8 with w = 4: [0] `.SAT`, [1] `.UA`, [2] `.UB`. -/
def aluDot (w m : Nat) (a b c : Word) : LaneRes :=
  let t := c.toInt + dotSum w (m / 2 % 2 == 1) (m / 4 % 2 == 1) a b (32 / w)
  if m % 2 = 1 then resSatS t else resInt t

/-- Element k of the 128 halves that ESLIDE sees: those of a in all lanes, then those of b (17 R285). -/
def eslideElem (a b : List Word) (k : Nat) : Nat :=
  let x := if k < 64 then a.getD (k / 2) 0#32 else b.getD ((k - 64) / 2) 0#32
  x.toNat / 2 ^ (16 * (k % 2)) % 2 ^ 16

/-- ESLIDE in lane L. -/
def aluEslide (n : Nat) (a b : List Word) (lane : Nat) : Word :=
  BitVec.ofNat 32 (eslideElem a b (2 * lane + n) + 2 ^ 16 * eslideElem a b (2 * lane + 1 + n))

end Sys2Proof.Machine
end

