-- ==== Sys2Proof/Machine/Float.lean ====
section
/-! DEFINITION. The float computations of one lane (17 R270 to R277, R279), each one exact operation and one rounding. -/

namespace Sys2Proof.Machine

/-- The FP32 value of a word. -/
def f32 (x : Word) : FltNum := decodeNum fp32 x.toNat

/-- The FP64 value of a 64-bit value. -/
def f64 (x : Bits64) : FltNum := decodeNum fp64 x.toNat

/-- A code and its flags as a lane result. -/
def resCode (r : Nat × LaneFlags) : LaneRes := (BitVec.ofNat 64 r.1, r.2)

/-- A rounded number as a lane result. -/
def resNum (f : Fmt) (m : RMode) (x : FltNum) : LaneRes := resCode (round f m x)

/-- A number with its sign changed where a modifier asks for it. -/
def negIf (c : Bool) (x : FltNum) : FltNum := if c then x.negate else x

/-- The mode RD. -/
def RMode.isRd (m : RMode) : Bool := m == .rd

/-! ## Basic operations (17 R271) -/

/-- FADD, DADD: M[3] negates A, M[2] negates B, M[1:0] rounds. -/
def fltAdd (f : Fmt) (m : Nat) (x y : FltNum) : LaneRes :=
  let r := rmodeOf m
  resNum f r (addN r.isRd (negIf (m / 8 % 2 == 1) x) (negIf (m / 4 % 2 == 1) y))

/-- FSUB. -/
def fltSub (f : Fmt) (m : Nat) (x y : FltNum) : LaneRes :=
  let r := rmodeOf m
  resNum f r (addN r.isRd (negIf (m / 8 % 2 == 1) x) (negIf (m / 4 % 2 == 1) y).negate)

/-- FMUL, DMUL. -/
def fltMul (f : Fmt) (m : Nat) (x y : FltNum) : LaneRes :=
  resNum f (rmodeOf m) (mulN (negIf (m / 8 % 2 == 1) x) (negIf (m / 4 % 2 == 1) y))

/-- FFMA, DFMA. -/
def fltFma (f : Fmt) (m : Nat) (x y z : FltNum) : LaneRes :=
  let r := rmodeOf m
  resNum f r (addN r.isRd (mulN (negIf (m / 8 % 2 == 1) x) y) (negIf (m / 4 % 2 == 1) z))

/-! ## Minimum, maximum, sign (17 R272) -/

/-- The canonical NaN of FP32. -/
def nan32 : Bits64 := 0x7FC00000#64

/-- FMIN or FMAX on bits: the lesser or greater operand itself, with -0 below +0. -/
def fltMinMax (isMax : Bool) (a b : Word) : LaneRes :=
  let x := f32 a
  let y := f32 b
  let fl := flagIf (x.isSig || y.isSig) fINVALID
  if x.isNan && y.isNan then (nan32, fl)
  else if x.isNan then (b.zeroExtend 64, fl)
  else if y.isNan then (a.zeroExtend 64, fl)
  else ((if (if isMax then y.ltSigned x else x.ltSigned y) then a else b).zeroExtend 64, fl)

/-- FMED3. -/
def fltMed3 (a b c : Word) : LaneRes :=
  let x := f32 a
  let y := f32 b
  let z := f32 c
  let fl := flagIf (x.isSig || y.isSig || z.isSig) fINVALID
  if x.isNan || y.isNan || z.isNan then (nan32, fl)
  else
    let lo := lo32 (fltMinMax false a b).1
    let hi := lo32 (fltMinMax true a b).1
    -- the middle of three: the greater of the lesser of a, b and the lesser of c and the greater of a, b
    ((fltMinMax true lo (lo32 (fltMinMax false hi c).1)).1, fl)

/-- FABS. -/
def fltAbs (a : Word) : LaneRes :=
  let x := f32 a
  if x.isNan then (nan32, flagIf x.isSig fINVALID) else ((a &&& 0x7FFFFFFF#32).zeroExtend 64, 0#8)

/-- FNEG. -/
def fltNeg (a : Word) : LaneRes :=
  let x := f32 a
  if x.isNan then (nan32, flagIf x.isSig fINVALID) else ((a ^^^ 0x80000000#32).zeroExtend 64, 0#8)

/-! ## Quotients and roots (17 R273) -/

/-- A quotient rounded, with its DIVZERO. -/
def fltDiv (f : Fmt) (m : Nat) (x y : FltNum) : LaneRes :=
  let q := divN x y
  let r := round f (rmodeOf m) q.1
  (BitVec.ofNat 64 r.1, r.2 ||| q.2)

/-- FRCP. -/
def fltRcp (m : Nat) (a : Word) : LaneRes := fltDiv fp32 m (.fin false 1 1) (f32 a)

/-- FSQRT, DSQRT: a zero keeps its sign; a number below 0 is invalid. -/
def fltSqrt (f : Fmt) (m : Nat) (x : FltNum) : LaneRes :=
  match x with
  | .nan s => resNum f (rmodeOf m) (.nan s)
  | .inf neg => resNum f (rmodeOf m) (if neg then .nan true else .inf false)
  | .fin neg n d => resNum f (rmodeOf m) (if n = 0 then .fin neg 0 1 else if neg then .nan true else sqrtQ n d)

/-- FRSQ. -/
def fltRsq (m : Nat) (a : Word) : LaneRes :=
  match f32 a with
  | .nan s => resNum fp32 (rmodeOf m) (.nan s)
  | .inf neg => resNum fp32 (rmodeOf m) (if neg then .nan true else .fin false 0 1)
  | .fin neg n d =>
    if n = 0 then (BitVec.ofNat 64 (round fp32 .rne (.inf neg)).1, fDIVZERO)
    else resNum fp32 (rmodeOf m) (if neg then .nan true else sqrtQ d n)

/-! ## Rounding to integral values, scaling, classes (17 R275) -/

/-- FRND: zero and infinity keep their sign, INEXACT is never set. -/
def fltRnd (m : Nat) (a : Word) : LaneRes :=
  match f32 a with
  | .nan s => (nan32, flagIf s fINVALID)
  | .inf _ => (a.zeroExtend 64, 0#8)
  | .fin neg n d => (BitVec.ofNat 64 (round fp32 .rne (.fin neg (roundMag (rmodeOf m) neg n d) 1)).1, 0#8)

/-- FSCALE. Scaling by more than 2^1000 either way gives what 2^1000 gives, for every FP32 operand and mode. -/
def fltScale (m : Nat) (a b : Word) : LaneRes :=
  resNum fp32 (rmodeOf m) ((f32 a).scale2 (max (-1000) (min 1000 b.toInt)))

/-- FCLASS: the class bit of a code of FP32 or FP64. -/
def fltClass (f : Fmt) (c : Nat) : LaneRes :=
  let x := decodeNum f c
  let sub := decide (c % 2 ^ (f.width - 1) < 2 ^ f.frac)
  let bit : Nat := match x with
    | .nan s => if s then 0 else 1
    | .inf neg => if neg then 2 else 9
    | .fin neg n _ =>
      if n = 0 then if neg then 5 else 6
      else if neg then if sub then 4 else 3
      else if sub then 7 else 8
  (BitVec.ofNat 64 (2 ^ bit), flagIf x.isSig fINVALID)

/-! ## Halves (17 R276, R277) -/

/-- The value of half h of a word in a half format. -/
def halfF (f : Fmt) (x : Word) (h : Nat) : FltNum := decodeNum f (x.toNat / 2 ^ (16 * h))

/-- The half format a modifier names: `.BF` is M[3]. -/
def halfFmt (m : Nat) : Fmt := if m / 8 % 2 = 1 then bf16 else fp16

/-- A function of halves applied to both. -/
def onHalves (m : Nat) (f : Nat → FltNum) : LaneRes :=
  let l := round (halfFmt m) (rmodeOf m) (f 0)
  let h := round (halfFmt m) (rmodeOf m) (f 1)
  (BitVec.ofNat 64 (l.1 + 2 ^ 16 * h.1), l.2 ||| h.2)

/-- HADD2. -/
def fltHadd2 (m : Nat) (a b : Word) : LaneRes :=
  onHalves m fun h => addN (rmodeOf m).isRd (halfF (halfFmt m) a h) (halfF (halfFmt m) b h)

/-- HMUL2. -/
def fltHmul2 (m : Nat) (a b : Word) : LaneRes := onHalves m fun h => mulN (halfF (halfFmt m) a h) (halfF (halfFmt m) b h)

/-- HFMA2. -/
def fltHfma2 (m : Nat) (a b c : Word) : LaneRes :=
  onHalves m fun h =>
    addN (rmodeOf m).isRd (mulN (halfF (halfFmt m) a h) (halfF (halfFmt m) b h)) (halfF (halfFmt m) c h)

/-- FDOT2: two half products added into FP32. -/
def fltDot2 (m : Nat) (a b c : Word) : LaneRes :=
  let p (h : Nat) := mulN (halfF (halfFmt m) a h) (halfF (halfFmt m) b h)
  resNum fp32 (rmodeOf m) (sumN (rmodeOf m).isRd [p 0, p 1, f32 c])

/-- An element read under a slot: decoded with its scales where the slot has any (15 R233), else as it stands. -/
def decodeElem (s : Slot) (code : Nat) (sb : FltNum) : FltNum × LaneFlags :=
  let e := decodeNum s.fmt code
  if s.plain then (e, 0#8) else decodeScaled e sb s.st

/-- The number 1. -/
def one : FltNum := .fin false 1 1

/-- FDOT4Z under a slot word. -/
def fltDot4z (slot : Bits64) (a b c : Word) : LaneRes :=
  let s := slotOf slot
  if (s.efmt = 4 ∨ s.efmt = 5) ∧ s.blk = 0 then
    let e (x : Word) (j : Nat) := decodeElem s (x.toNat / 2 ^ (8 * j)) one
    let js := [0, 1, 2, 3]
    let t := sumN false (js.map (fun j => mulN (e a j).1 (e b j).1) ++ [f32 c])
    let fl := js.foldl (fun f j => f ||| (e a j).2 ||| (e b j).2) 0#8
    let r := round fp32 .rne t
    (BitVec.ofNat 64 r.1, r.2 ||| fl)
  else (nan32, fINVALID)

/-! ## Float compares (17 R279) -/

/-- FCMP, DCMP: the truth of the condition and the flags. -/
def fltCmp (cc : Nat) (sig : Bool) (x y : FltNum) : Bool × LaneFlags :=
  let nan := x.isNan || y.isNan
  let fl := flagIf (x.isSig || y.isSig || (sig && nan)) fINVALID
  let t := if nan then cc == 1 || cc == 7
    else match cc with
      | 0 => !x.lt y && !y.lt x
      | 1 => x.lt y || y.lt x
      | 2 => x.lt y
      | 3 => !y.lt x
      | 4 => y.lt x
      | 5 => !x.lt y
      | 6 => true
      | _ => false
  (t, fl)

end Sys2Proof.Machine
end

