-- ==== Sys2Proof/Machine/Convert.lean ====
section
/-! DEFINITION. The conversions of 17 R287 to R291 and the combinations of 18 R301, as functions of operand values and of the
format slot word. A slot that an instruction does not take gives its fallback value and INVALID. -/

namespace Sys2Proof.Machine

/-- The slot's EFMT has width 4, 8 or 16 (17 R287). -/
def Slot.narrow (s : Slot) : Bool := s.fmt.width == 4 || s.fmt.width == 8 || s.fmt.width == 16

/-- Every code but FP64 and INT64 (17 R287). -/
def Slot.upTo32 (s : Slot) : Bool := s.efmt != 1 && s.efmt != 0xC

/-- CVT: M[3] chooses `.OUT` (17 R288). -/
def cvt (m : Nat) (slot : Bits64) (a : Word) : LaneRes :=
  let s := slotOf slot
  if m / 8 % 2 = 0 then
    if s.upTo32 then resNum fp32 .rne (decodeNum s.fmt a.toNat) else (nan32, fINVALID)
  else if s.upTo32 then resCode (roundC s.fmt (rmodeOf s.rm) s.clamp (f32 a)) else (0#64, fINVALID)

/-- CVTF: M[3] chooses `.OUT`; every format is taken (17 R288). -/
def cvtf (m : Nat) (slot : Bits64) (a : Bits64) : LaneRes :=
  let s := slotOf slot
  if m / 8 % 2 = 0 then resNum fp64 .rne (decodeNum s.fmt a.toNat)
  else resCode (roundC s.fmt (rmodeOf s.rm) s.clamp (f64 a))

/-- PACKZ (17 R289). -/
def packz (slot : Bits64) (a b c : Word) : LaneRes :=
  let s := slotOf slot
  if s.narrow then
    let w := s.fmt.width
    let qa := encodeScaled s (f32 a) one s.st
    let qb := encodeScaled s (f32 b) one s.st
    (BitVec.ofNat 64 (c.toNat / 2 ^ (2 * w) + qa.1 * 2 ^ (32 - 2 * w) + qb.1 * 2 ^ (32 - w)), qa.2 ||| qb.2)
  else (0#64, fINVALID)

/-- UNPZ (17 R289): one element decoded under the tensor scale, whatever it is. -/
def unpz (slot : Bits64) (a b : Word) : LaneRes :=
  let s := slotOf slot
  if s.narrow then
    let w := s.fmt.width
    let v := decodeScaled (decodeNum s.fmt (a.toNat / 2 ^ (w * (b.toNat % (32 / w))) % 2 ^ w)) one s.st
    let r := round fp32 .rne v.1
    (BitVec.ofNat 64 r.1, r.2 ||| v.2)
  else (nan32, fINVALID)

/-- QNT (17 R291). -/
def qnt (slot : Bits64) (a b : Word) : LaneRes :=
  let s := slotOf slot
  if s.narrow then resCode (encodeScaled s (f32 a) (decodeNum e4m3z b.toNat) s.st) else (0#64, fINVALID)

/-- DQNT (17 R291): the scales apply whatever the slot's BLK. -/
def dqnt (slot : Bits64) (a b : Word) : LaneRes :=
  let s := slotOf slot
  if s.narrow then
    let v := decodeScaled (decodeNum s.fmt a.toNat) (decodeNum e4m3z b.toNat) s.st
    let r := round fp32 .rne v.1
    (BitVec.ofNat 64 r.1, r.2 ||| v.2)
  else (nan32, fINVALID)

/-- The lanes of one block of SCALEB (17 R290). -/
def blockLanes (s : Slot) : Nat := if s.blk = 1 then 16 else if s.blk = 2 then 32 else 1

/-- The largest finite value of a format: for an integer format, the upper end of its range. -/
def Fmt.maxNum (f : Fmt) : FltNum := if f.isInt then .ofInt f.range.2 else decodeNum f f.maxCode

/-- The magnitude of a number. -/
def FltNum.abs : FltNum → FltNum
  | .nan s => .nan s
  | .inf _ => .inf false
  | .fin _ n d => .fin false n d

/-- SCALEB of the values of the active lanes of one block (17 R290); an infinite greatest magnitude chooses 0x7F (15 R234). -/
def scaleb (slot : Bits64) (xs : List Word) : LaneRes :=
  let s := slotOf slot
  if s.upTo32 then
    let ns := xs.map f32
    if ns.any FltNum.isNan then (0x80#64, fNANCVT)
    else
      let amax := ns.foldl (fun m x => if m.lt x.abs then x.abs else m) (.fin false 0 1)
      let q := if amax.isInfOf false then amax else (divN amax (mulN s.fmt.maxNum s.st)).1
      resCode (roundC e4m3z .ru false q)
  else (0x80#64, fINVALID)

/-! ## Combinations of lanes (18 R301) -/

/-- The combination of the values of a nonempty list of members. -/
def combine (op : Nat) (xs : List Word) : LaneRes :=
  let fold (f : Word → Word → Word) : LaneRes :=
    match xs with
    | [] => (0#64, 0#8)
    | y :: ys => res32 (ys.foldl f y)
  let fl := flagIf (xs.any fun x => (f32 x).isSig) fINVALID
  match op with
  | 0x0 => fold (· + ·)
  | 0x1 => fold fun x y => lo32 (aluMin false x y).1
  | 0x2 => fold fun x y => lo32 (aluMax false x y).1
  | 0x3 => fold fun x y => lo32 (aluMin true x y).1
  | 0x4 => fold fun x y => lo32 (aluMax true x y).1
  | 0x5 => fold (· &&& ·)
  | 0x6 => fold (· ||| ·)
  | 0x7 => fold (· ^^^ ·)
  | 0x8 =>
    let r := resNum fp32 .rne (sumN false (xs.map f32))
    (r.1, r.2 ||| flagIf (xs.any fun x => (f32 x).isNan) fINVALID)
  | 0x9 =>
    if xs.all fun x => (f32 x).isNan then (nan32, fl)
    else ((fold fun x y => lo32 (fltMinMax false x y).1).1, fl)
  | _ =>
    if xs.all fun x => (f32 x).isNan then (nan32, fl)
    else ((fold fun x y => lo32 (fltMinMax true x y).1).1, fl)

/-! ## Matrix sums (15 R235, R236) -/

/-- One group of products into a float accumulator, rounded once to FP32 (15 R235). -/
def groupFloat (acc : FltNum) (ps : List (FltNum × FltNum)) : Nat × LaneFlags :=
  let bad := ps.any fun p => p.1.isNan || p.2.isNan
  let s := sumN false (ps.map fun p => mulN p.1 p.2)
  let r := round fp32 .rne (addN false acc s)
  (r.1, r.2 ||| flagIf (bad || s.isNan) fINVALID)

/-- One group of products into an INT32 accumulator (15 R236). -/
def groupInt (acc : Int) (ps : List (Int × Int)) : Nat × LaneFlags :=
  let r := satS 32 (acc + ps.foldl (fun t p => t + p.1 * p.2) 0)
  (wrap 32 r.1, flagIf r.2 fSAT)

/-- The element formats of the matrix engine (00 R4; 19 R346, R349). -/
def matrixFmt (efmt : Nat) : Bool :=
  efmt == 2 || efmt == 3 || efmt == 4 || efmt == 5 || efmt == 6 || efmt == 7 || efmt == 8 || efmt == 9

/-- Both operands are integers under slots without scales (15 R236). -/
def Slot.intPlain (s : Slot) : Bool := s.fmt.isInt && s.plain

/-- The integer a code stands for in an integer format. -/
def Fmt.intVal (f : Fmt) (c : Nat) : Int := if f.kind = .uint then (c % 2 ^ f.width : Nat) else signed f.width c

end Sys2Proof.Machine
end

