-- ==== Sys2Proof/Machine/Encoding.lean ====
section
/-! DEFINITION. The encoding tables of the instruction words: operand kinds, the signature of every opcode, and what makes a
word legal (16 R240 to R253). WellFormed reads the legality from here and Decode both directions of the encoding. -/

namespace Sys2Proof

/-! ## Fields -/

/-- The field of n bits at bit lo of a word. -/
def fld (w lo n : Nat) : Nat := w / 2 ^ lo % 2 ^ n

/-- What an operand field of a word may hold (16 R242): nothing; a vector or scalar register whose number is a multiple of
align, with cnt consecutive registers in its file; a predicate (a destination excludes p0); the two predicate indices of
IADDC (17 R264); a segment (16 R248). -/
inductive Kind where
  | zero
  | reg (v s : Bool) (align cnt : Nat)
  | pred (dest : Bool)
  | carry
  | seg
  deriving DecidableEq, Repr, Inhabited

namespace Kind
/-- Any 32-bit register. -/
abbrev xr : Kind := .reg true true 1 1
/-- A 32-bit vector register. -/
abbrev vr : Kind := .reg true false 1 1
/-- A 32-bit scalar register. -/
abbrev sr : Kind := .reg false true 1 1
/-- Any wide register pair. -/
abbrev xw : Kind := .reg true true 2 2
/-- A wide vector register pair. -/
abbrev vw : Kind := .reg true false 2 2
/-- A wide scalar register pair. -/
abbrev sw : Kind := .reg false true 2 2
/-- Any 128-bit register quad. -/
abbrev xq : Kind := .reg true true 4 4
/-- A 128-bit vector register quad. -/
abbrev vq : Kind := .reg true false 4 4
/-- A 128-bit scalar register quad. -/
abbrev sq : Kind := .reg false true 4 4
/-- The eight registers of a GMMA accumulator (19 R349). -/
abbrev vo : Kind := .reg true false 8 8
end Kind

/-- The operand a field code stands for under a kind (16 R242), or nothing where the code is illegal. -/
def decOpd (k : Kind) (c : Nat) : Option Opd :=
  match k with
  | .zero => if c = 0 then some .none else none
  | .reg v s al n =>
    if c < 192 then if v = true ∧ c % al = 0 ∧ c + n ≤ 192 then some (.v c) else none
    else if s = true ∧ (c - 192) % al = 0 ∧ c - 192 + n ≤ 64 then some (.s (c - 192)) else none
  | .pred dest => if c < 8 ∧ (dest = true → c ≠ 0) then some (.p c) else none
  | .carry => if c < 64 then some (.imm c) else none
  | .seg => if c = 0 then some .none else if 192 ≤ c ∧ c % 2 = 0 then some (.s (c - 192)) else none

/-- The field code of an operand (16 R242). -/
def encOpd : Opd → Nat
  | .none => 0
  | .v n => n
  | .s n => n + 192
  | .p n => n
  | .imm n => n

/-- The operand is one that its field may hold. -/
def opdOk (k : Kind) (o : Opd) : Bool := encOpd o < 256 && decOpd k (encOpd o) == some o

/-! ## Codes -/

/-- Code of a crossbar pattern (16 R244). -/
def patCode : Pat → Nat
  | .ident => 0 | .rot => 1 | .bc => 2 | .xor => 3 | .mir => 4 | .dn => 5 | .up => 6 | .quad => 7

/-- Pattern of a code (16 R244). -/
def patOf (c : Nat) : Pat :=
  match c with
  | 0 => .ident | 1 => .rot | 2 => .bc | 3 => .xor | 4 => .mir | 5 => .dn | 6 => .up | _ => .quad

/-- Code of a width (16 R247). -/
def widthCode : Width → Nat
  | .w8 => 0 | .w16 => 1 | .w32 => 2 | .w64 => 3 | .w128 => 4

/-- Width of a code; 0b101 to 0b111 are illegal (16 R247). -/
def widthOf (c : Nat) : Option Width :=
  match c with
  | 0 => some .w8 | 1 => some .w16 | 2 => some .w32 | 3 => some .w64 | 4 => some .w128 | _ => none

/-- Code of an order (08 R125). -/
def orderCode : Order → Nat
  | .plain => 0 | .acq => 1 | .rel => 2 | .ar => 3

/-- Order of a code (08 R125). -/
def orderOf (c : Nat) : Order :=
  match c with
  | 0 => .plain | 1 => .acq | 2 => .rel | _ => .ar

/-- Code of a scope (08 R125). -/
def scopeCode : Scope → Nat
  | .grp => 0 | .team => 1 | .clu => 2 | .dev => 3 | .sys => 4

/-- Scope of a code; 0b101 to 0b111 are illegal (08 R125). -/
def scopeOf (c : Nat) : Option Scope :=
  match c with
  | 0 => some .grp | 1 => some .team | 2 => some .clu | 3 => some .dev | 4 => some .sys | _ => none

/-- Code of a scalar pair operation (16 R251). -/
def sopCode : SOp → Nat
  | .nop => 0x00
  | .iadd => 0x01
  | .isub => 0x02
  | .imul => 0x03
  | .imin => 0x04
  | .imax => 0x05
  | .andw => 0x06
  | .orw => 0x07
  | .xorw => 0x08
  | .andn => 0x09
  | .shl => 0x0A
  | .shr => 0x0B
  | .sar => 0x0C
  | .rotl => 0x0D
  | .mov => 0x0E

/-- Scalar pair operation of a code (16 R251). -/
def sopOf (c : Nat) : Option SOp :=
  match c with
  | 0x00 => some .nop
  | 0x01 => some .iadd
  | 0x02 => some .isub
  | 0x03 => some .imul
  | 0x04 => some .imin
  | 0x05 => some .imax
  | 0x06 => some .andw
  | 0x07 => some .orw
  | 0x08 => some .xorw
  | 0x09 => some .andn
  | 0x0A => some .shl
  | 0x0B => some .shr
  | 0x0C => some .sar
  | 0x0D => some .rotl
  | 0x0E => some .mov
  | _ => none

/-- Code of a vector pair operation (16 R251). -/
def vopCode : VOp → Nat
  | .nop => 0x00
  | .iadd => 0x01
  | .isub => 0x02
  | .imul => 0x03
  | .imin => 0x04
  | .imax => 0x05
  | .andw => 0x06
  | .orw => 0x07
  | .xorw => 0x08
  | .andn => 0x09
  | .shl => 0x0A
  | .shr => 0x0B
  | .sar => 0x0C
  | .mov => 0x0D
  | .fadd => 0x0E
  | .fsub => 0x0F
  | .fmul => 0x10
  | .fmin => 0x11
  | .fmax => 0x12
  | .hadd2 => 0x13
  | .hmul2 => 0x14
  | .padd2 => 0x15
  | .psub2 => 0x16
  | .satadd => 0x17
  | .satsub => 0x18
  | .pmax2 => 0x19
  | .pmin2 => 0x1A

/-- Vector pair operation of a code (16 R251). -/
def vopOf (c : Nat) : Option VOp :=
  match c with
  | 0x00 => some .nop
  | 0x01 => some .iadd
  | 0x02 => some .isub
  | 0x03 => some .imul
  | 0x04 => some .imin
  | 0x05 => some .imax
  | 0x06 => some .andw
  | 0x07 => some .orw
  | 0x08 => some .xorw
  | 0x09 => some .andn
  | 0x0A => some .shl
  | 0x0B => some .shr
  | 0x0C => some .sar
  | 0x0D => some .mov
  | 0x0E => some .fadd
  | 0x0F => some .fsub
  | 0x10 => some .fmul
  | 0x11 => some .fmin
  | 0x12 => some .fmax
  | 0x13 => some .hadd2
  | 0x14 => some .hmul2
  | 0x15 => some .padd2
  | 0x16 => some .psub2
  | 0x17 => some .satadd
  | 0x18 => some .satsub
  | 0x19 => some .pmax2
  | 0x1A => some .pmin2
  | _ => none

/-! ## Signatures -/

/-- The operand kinds of an R-form opcode, whether it may gather vector lanes into an s-register (16 R242), and whether it
is a terminator (03 R58). -/
structure RSig where
  d : Kind := .zero
  a : Kind := .zero
  b : Kind := .zero
  c : Kind := .zero
  crossS : Bool := false
  term : Bool := false
  deriving DecidableEq, Repr

/-- The operand kinds of an I-form opcode and whether it is a terminator. -/
structure ISig where
  d : Kind := .zero
  a : Kind := .zero
  term : Bool := false
  deriving DecidableEq, Repr

/-- The operand kinds of an M-form opcode; result: an s-register DATA needs an s-register BASE (18 R292). -/
structure MSig where
  data : Kind := .zero
  base : Kind := .zero
  seg : Kind := .zero
  off : Bool := true
  result : Bool := false
  deriving DecidableEq, Repr

/-- What form a step has, with its opcode. -/
inductive Form where
  | event
  | r (op : Nat) (w : RWord)
  | i (op : Nat) (w : IWord)
  | m (op : Nat) (w : MWord)
  | pair (w : PairWord)
  deriving DecidableEq, Repr

/-- Signatures of the R-form words (16 R252; operand columns of 17 R264, R270, R278, R282, R287, 18 R294, R299 and
19 R325, R327, R329, R332, R336, R351), by opcode and modifier field. -/
def sigR (op m : Nat) : Option RSig :=
  match op with
  | 0x00 => if m = 0 then some {} else none -- NOP
  | 0x03 => if m = 0 then some { a := .xw, term := true } else none -- BRX
  | 0x05 => if m = 0 then some { a := .xw, term := true } else none -- RET
  | 0x07 => if m = 0 then some { term := true } else none -- EXIT
  | 0x09 => if m = 0 then some { term := true } else none -- YIELD
  | 0x0B => if m = 0 then some { term := true } else none -- TRET
  | 0x0C => if m = 0 then some {} else none -- BKPT
  | 0x0D => if m = 0 then some { a := .xr } else none -- WSYNC
  | 0x0E => if m = 0 then some { term := true } else none -- HALT_F
  | 0x10 => if m = 0 then some { d := .xr, a := .xr, b := .xr }
     else if m = 1 then some { d := .xw, a := .xw, b := .xw } else none -- IADD
  | 0x11 => if m = 0 then some { d := .xr, a := .xr, b := .xr }
     else if m = 1 then some { d := .xw, a := .xw, b := .xw } else none -- ISUB
  | 0x12 => if m = 0 then some { d := .xr, a := .xr, b := .xr } else none -- IMUL
  | 0x13 => if m < 2 then some { d := .xr, a := .xr, b := .xr } else none -- IMULH
  | 0x14 => if m = 0 then some { d := .xr, a := .xr, b := .xr, c := .xr } else none -- IMAD
  | 0x15 => if m < 2 then some { d := .xr, a := .xr, b := .xr } else none -- IMIN
  | 0x16 => if m < 2 then some { d := .xr, a := .xr, b := .xr } else none -- IMAX
  | 0x17 => if m < 2 then some { d := .xr, a := .xr } else none -- IABS
  | 0x18 => if m < 2 then some { d := .xr, a := .xr } else none -- INEG
  | 0x19 => if m = 0 then some { d := .xr, a := .xr, b := .xr } else none -- AND
  | 0x1A => if m = 0 then some { d := .xr, a := .xr, b := .xr } else none -- OR
  | 0x1B => if m = 0 then some { d := .xr, a := .xr, b := .xr } else none -- XOR
  | 0x1C => if m = 0 then some { d := .xr, a := .xr, b := .xr } else none -- ANDN
  | 0x1D => if m = 0 then some { d := .xr, a := .xr, b := .xr } else none -- SHL
  | 0x1E => if m = 0 then some { d := .xr, a := .xr, b := .xr } else none -- SHR
  | 0x1F => if m = 0 then some { d := .xr, a := .xr, b := .xr } else none -- SAR
  | 0x20 => if m = 0 then some { d := .xr, a := .xr, b := .xr } else none -- ROTL
  | 0x21 => if m < 2 then some { d := .xr, a := .xr, b := .xr } else none -- BFX
  | 0x22 => if m = 0 then some { d := .xr, a := .xr, b := .xr, c := .xr } else none -- BFI
  | 0x23 => if m = 0 then some { d := .xr, a := .xr } else none -- POPC
  | 0x24 => if m = 0 then some { d := .xr, a := .xr } else none -- CLZ
  | 0x25 => if m = 0 then some { d := .xr, a := .xr } else none -- CTZ
  | 0x26 => if m = 0 then some { d := .xr, a := .xr } else none -- BREV
  | 0x27 => if m = 0 then some { d := .xr, a := .xr, b := .xr, c := .pred false } else none -- SEL
  | 0x28 => if m = 0 then some { d := .xr, a := .xr } else if m = 1 then some { d := .xw, a := .xw } else none -- MOV
  | 0x2B => if m < 8 then some { d := .xr, a := .xr, b := .xr } else none -- LEA
  | 0x2C => if m = 0 then some { d := .xr, a := .xr, b := .xr, c := .carry } else none -- IADDC
  | 0x2D => if m < 2 then some { d := .xr, a := .xr, b := .xr } else none -- IDIV
  | 0x2E => if m < 2 then some { d := .xr, a := .xr, b := .xr } else none -- IREM
  | 0x2F => if m < 2 then some { d := .xr, a := .xr, b := .xr, c := .xr } else none -- ISAD
  | 0x30 => if m < 16 then some { d := .xr, a := .xr, b := .xr } else none -- FADD
  | 0x31 => if m < 16 then some { d := .xr, a := .xr, b := .xr } else none -- FSUB
  | 0x32 => if m < 16 then some { d := .xr, a := .xr, b := .xr } else none -- FMUL
  | 0x33 => if m < 16 then some { d := .xr, a := .xr, b := .xr, c := .xr } else none -- FFMA
  | 0x34 => if m < 4 then some { d := .xr, a := .xr, b := .xr } else none -- FMIN
  | 0x35 => if m < 4 then some { d := .xr, a := .xr, b := .xr } else none -- FMAX
  | 0x36 => if m < 4 then some { d := .xr, a := .xr } else none -- FABS
  | 0x37 => if m < 4 then some { d := .xr, a := .xr } else none -- FNEG
  | 0x38 => if m < 4 then some { d := .xr, a := .xr } else none -- FRCP
  | 0x39 => if m < 4 then some { d := .xr, a := .xr } else none -- FRSQ
  | 0x3A => if m < 4 then some { d := .xr, a := .xr } else none -- FSQRT
  | 0x3B => if m < 4 then some { d := .xr, a := .xr, b := .xr } else none -- FDIV
  | 0x3C => if m = 0 then some { d := .xr, a := .xr } else none -- FEX2
  | 0x3D => if m = 0 then some { d := .xr, a := .xr } else none -- FLG2
  | 0x3E => if m = 0 then some { d := .xr, a := .xr } else none -- FSIN
  | 0x3F => if m = 0 then some { d := .xr, a := .xr } else none -- FCOS
  | 0x40 => if m = 0 then some { d := .xr, a := .xr } else none -- FTANH
  | 0x41 => if m < 4 then some { d := .xr, a := .xr } else none -- FRND
  | 0x42 => if m < 4 then some { d := .xr, a := .xr }
     else if m < 8 then some { d := .xr, a := .xw } else none -- FCLASS
  | 0x43 => if m < 4 then some { d := .xr, a := .xr, b := .xr } else none -- FSCALE
  | 0x44 => if m < 16 then some { d := .xw, a := .xw, b := .xw } else none -- DADD
  | 0x45 => if m < 16 then some { d := .xw, a := .xw, b := .xw } else none -- DMUL
  | 0x46 => if m < 16 then some { d := .xw, a := .xw, b := .xw, c := .xw } else none -- DFMA
  | 0x47 => if m < 4 then some { d := .xw, a := .xw, b := .xw } else none -- DDIV
  | 0x48 => if m < 4 then some { d := .xw, a := .xw } else none -- DSQRT
  | 0x49 => if m / 4 % 2 = 0 then some { d := .xr, a := .xr, b := .xr, c := .xr } else none -- HFMA2
  | 0x4A => if m / 4 % 2 = 0 then some { d := .xr, a := .xr, b := .xr } else none -- HADD2
  | 0x4B => if m / 4 % 2 = 0 then some { d := .xr, a := .xr, b := .xr } else none -- HMUL2
  | 0x4C => if m / 4 % 2 = 0 then some { d := .xr, a := .xr, b := .xr, c := .xr } else none -- FDOT2
  | 0x4D => if m < 8 then some { d := .xr, a := .xr, b := .xr, c := .xr } else none -- FDOT4Z
  | 0x4E => if m < 4 then some { d := .xr, a := .xr, b := .xr, c := .xr } else none -- FMED3
  | 0x50 => if m % 8 < 6 then some { d := .pred true, a := .xr, b := .xr, c := .pred false } else none -- ICMP
  | 0x51 => if m < 16 then some { d := .pred true, a := .xr, b := .xr, c := .pred false } else none -- FCMP
  | 0x52 => if m < 16 then some { d := .pred true, a := .xw, b := .xw, c := .pred false } else none -- DCMP
  | 0x53 => if m < 8 then some { d := .pred true, a := .pred false, b := .pred false } else none -- PSET
  | 0x54 => if m = 0 then some { d := .pred true, a := .xr }
     else if m = 1 then some { d := .vr, a := .pred false } else if m = 2 then some { a := .xr } else if m = 3 then some { d := .vr } else none -- PMOV
  | 0x55 => if m < 2 then some { d := .pred true, a := .pred false }
     else if m = 2 then some { d := .xr, a := .pred false } else none -- VOTE
  | 0x56 => if m = 0 then some { d := .xr } else none -- ACTIVE
  | 0x60 => if m = 0 then some { d := .xr, a := .xr, b := .xr, c := .xr } else none -- PMAC2
  | 0x61 => if m < 4 then some { d := .xr, a := .xr, b := .xr } else none -- PMUL2
  | 0x62 => if m = 0 ∨ m = 1 ∨ m = 3 then some { d := .xr, a := .xr, b := .xr } else none -- PADD2
  | 0x63 => if m = 0 ∨ m = 1 ∨ m = 3 then some { d := .xr, a := .xr, b := .xr } else none -- PSUB2
  | 0x64 => if m < 2 then some { d := .xr, a := .xr, b := .xr } else none -- SATADD
  | 0x65 => if m < 2 then some { d := .xr, a := .xr, b := .xr } else none -- SATSUB
  | 0x66 => if m < 3 then some { d := .xr, a := .xr, b := .xr } else none -- SHRR
  | 0x67 => if m < 4 then some { d := .xr, a := .xr, b := .xr } else none -- PACKS
  | 0x68 => if m < 4 then some { d := .xr, a := .xr, b := .xr } else none -- UNPACK
  | 0x69 => if m < 16 then some { d := .xr, a := .xr, b := .xr } else none -- ESLIDE
  | 0x6A => if m < 8 then some { d := .xr, a := .xr, b := .xr, c := .xr } else none -- DOT4
  | 0x6B => if m < 8 then some { d := .xr, a := .xr, b := .xr, c := .xr } else none -- DOT8
  | 0x6C => if m < 2 then some { d := .xr, a := .xr, b := .xr } else none -- PMAX2
  | 0x6D => if m < 2 then some { d := .xr, a := .xr, b := .xr } else none -- PMIN2
  | 0x6E => if m < 2 then some { d := .xr, a := .xr } else none -- PABS2
  | 0x70 => if m < 16 then some { d := .xr, a := .xr } else none -- CVT
  | 0x71 => if m < 16 then some { d := .xw, a := .xw } else none -- CVTF
  | 0x72 => if m < 8 then some { d := .xr, a := .xr, b := .xr, c := .xr } else none -- PACKZ
  | 0x73 => if m < 8 then some { d := .xr, a := .xr, b := .xr } else none -- UNPZ
  | 0x74 => if m < 8 then some { d := .xr, a := .xr } else none -- SCALEB
  | 0x75 => if m < 8 then some { d := .xr, a := .xr, b := .xr } else none -- QNT
  | 0x76 => if m < 8 then some { d := .xr, a := .xr, b := .xr } else none -- DQNT
  | 0x78 => if m = 0 then some { d := .vr, a := .xr, b := .xr } else none -- PERM
  | 0x79 => if m = 0 then some { d := .vr, a := .xr, b := .xr, c := .xr } else none -- SHUF
  | 0x7A => if m < 11 then some { d := .xr, a := .vr, crossS := true } else none -- WREDUCE
  | 0x7B => if m < 11 then some { d := .vr, a := .vr } else none -- WSCAN
  | 0x7C => if m = 0 then some { d := .vr, a := .vr }
     else if m = 1 then some { d := .vr, a := .vw } else none -- MATCH
  | 0x7D => if m = 0 then some { d := .xr, a := .vr, b := .sr, crossS := true } else none -- RDLANE
  | 0x7E => if m = 0 then some { d := .vr, a := .xr, b := .sr } else none -- WRLANE
  | 0xA6 => if m = 0 then some { d := .xr, a := .sr, b := .sr, c := .sr }
     else if m < 3 then some { d := .xr, a := .sr, b := .sr } else none -- RINGACQ
  | 0xA7 => if m = 0 then some { a := .sr, b := .sr, c := .sr }
     else if m = 1 then some { a := .sr, b := .sr } else if m = 2 then some { a := .sr } else none -- RINGREL
  | 0xA8 => if m = 0 then some {} else none -- RSBEG
  | 0xA9 => if m = 0 then some {} else none -- RSEND
  | 0xAA => if m = 0 then some { d := .xr } else none -- GPSTART
  | 0xAB => if m = 0 then some { a := .xr } else none -- GPWAIT
  | 0xAC => if m = 0 then some { d := .xr, a := .xr } else none -- GPPOLL
  | 0xAD => if m = 0 then some { d := .xr, a := .sw, b := .sr, c := .sr } else none -- DACC
  | 0xAE => if m = 0 then some { d := .xq } else none -- DFPOP
  | 0xB0 => if m = 0 then some { d := .xr, a := .sw, b := .sr, c := .sr } else none -- MSEND
  | 0xB1 => if m = 0 then some { d := .xr, a := .sq, b := .sr, c := .sr } else none -- MRECV
  | 0xB2 => if m = 0 then some { d := .xq, a := .sq } else none -- MPROBE
  | 0xB3 => if m = 0 then some { d := .xr, a := .sr } else none -- MCANCEL
  | 0xB4 => if m = 0 then some { d := .xr, a := .sr, b := .sr, c := .sw } else none -- GCALL
  | 0xB5 => if m = 0 then some { a := .sr, b := .sr } else none -- GWAIT
  | 0xB6 => if m = 0 then some { d := .xr, a := .sr, b := .sr } else none -- GRET
  | 0xB8 => if m = 0 then some { d := .xr, a := .sr } else none -- COPY
  | 0xB9 => if m = 0 then some { d := .xr, a := .sr } else none -- COPYT
  | 0xBA => if m = 0 then some { d := .xr, a := .sr } else none -- COPYM
  | 0xBB => if m = 0 then some { d := .xr, a := .sr } else none -- BANKOP
  | 0xBC => if m = 0 then some { d := .sr, a := .sr } else if m = 1 then some { d := .sr, a := .sw } else none -- MJOB
  | 0xBD => if m = 0 then some { d := .sr, a := .sr, b := .sr }
     else if m = 1 then some { d := .sr, a := .sw, b := .sr } else none -- MPAIR
  | 0xBE => if m = 0 then some { d := .xr, a := .xr } else none -- MWAIT
  | 0xBF => if m < 8 then some { d := .vo, a := .vq, b := .vq, c := .vo } else none -- GMMA
  | 0xC0 => if m = 0 then some { d := .xr, a := .sr, b := .sr } else none -- LAUNCH
  | 0xC1 => if m = 0 then some { d := .xw, a := .sr } else none -- LQUERY
  | 0xD2 => if m = 0 then some { a := .sr, b := .sr, c := .sr } else none -- VIEW
  | 0xD3 => if m = 0 then some { d := .xw } else none -- CLKRD
  | 0xD5 => if m = 0 then some {} else none -- SAVEF
  | 0xD6 => if m = 0 then some { d := .xr } else none -- LOADF
  | 0xD7 => if m < 3 then some { d := .xr, a := .sr } else none -- BANKROLE
  | 0xD8 => if m = 0 then some { a := .sr, b := .sr } else none -- SCRUB
  | _ => none

/-- Per-lane special registers (19 R352), which only a vector register may receive. -/
abbrev srLane (idx : Nat) : Prop := idx = 0x000 ∨ idx = 0x001 ∨ idx = 0x00A ∨ idx = 0x00D

/-- 64-bit special registers (19 R352). -/
abbrev srWide (idx : Nat) : Prop :=
  idx = 0x008 ∨ idx = 0x00F ∨ (0x020 ≤ idx ∧ idx ≤ 0x022) ∨ (0x030 ≤ idx ∧ idx ≤ 0x037)

/-- 32-bit special registers that are not per lane (19 R352). -/
abbrev srNarrow (idx : Nat) : Prop :=
  (0x002 ≤ idx ∧ idx ≤ 0x007) ∨ idx = 0x009 ∨ idx = 0x00B ∨ idx = 0x00C ∨ idx = 0x00E ∨ (0x010 ≤ idx ∧ idx ≤ 0x012)

/-- Signatures of the I-form words (16 R246, 17 R264, 18 R294, 19 R351), by opcode, immediate and modifier field. -/
def sigI (op imm m : Nat) : Option ISig :=
  match op with
  | 0x01 => if m = 0 then some { term := true } else none -- NEXT
  | 0x02 => if m < 2 then some { a := .pred false, term := true } else none -- BRC
  | 0x04 => if m = 0 then some { d := .xw, term := true } else none -- CALL
  | 0x06 => if m = 0 then some { term := true } else none -- REGROUP
  | 0x08 => if m = 0 then some { d := .xr, term := true } else none -- LOOP
  | 0x0A => if m = 0 then some { term := true } else none -- TRAP
  | 0x0F => if m = 0 ∧ imm < 16 then some {} else none -- SETPRI
  | 0x29 => if m < 2 then some { d := .xr } else none -- MOVI
  | 0x2A => if m = 0 ∧ imm < 65536 then some { d := .xr, a := .xr } else none -- MOVH
  | 0xD0 => if m = 0 ∧ srLane imm then some { d := .vr }
     else if m = 0 ∧ srWide imm then some { d := .xw } else if m = 0 ∧ srNarrow imm then some { d := .xr } else none -- RDSR
  | 0xD1 => if m = 0 ∧ imm = 0x00A then some { a := .xr } else none -- WRSR
  | 0xD4 => if m = 0 ∧ imm < 16 then some { d := .xw } else none -- CNTRD
  | _ => none

/-- The register kind that holds a value of a width (16 R247). -/
def widthKind : Width → Kind
  | .w64 => .xw
  | .w128 => .xq
  | _ => .xr

/-- The four registers, or the two, of a compare-and-swap (18 R312). -/
def casKind : Width → Kind
  | .w64 => .reg true true 2 4
  | _ => .reg true true 1 2

/-- Signatures of the M-form words (18 R303, R304; 19 R322; orders of 08 R125, 08 R131), by opcode, width, order, hint and
whether SEG names a register. -/
def sigM (op : Nat) (wd : Width) (o : Order) (hint : Nat) (hasSeg : Bool) : Option MSig :=
  let ld := o = .plain ∨ o = .acq
  let st := o = .plain ∨ o = .rel
  let rmtOk := hint < 8 ∨ (hasSeg = true ∧ st)
  let atomW := wd = .w32 ∨ wd = .w64
  let glob (data : Kind) (res : Bool) : MSig := { data := data, base := .xr, seg := .seg, result := res }
  let loc (data : Kind) (res : Bool) : MSig := { data := data, base := .xr, result := res }
  let phas (data : Kind) (res : Bool) : MSig :=
    { data := data, base := .sr, seg := if 8 ≤ hint then .seg else .zero, result := res }
  match op with
  | 0x80 => if ld ∧ hint < 8 ∧ (hint % 2 = 1 → wd = .w8 ∨ wd = .w16) ∧
               (hint / 2 % 2 = 1 → hasSeg = false ∧ o = .plain ∧ hint < 4)
            then some (glob (widthKind wd) true) else none -- LD
  | 0x81 => if st ∧ (hint = 0 ∨ hint = 8) ∧ rmtOk then some (glob (widthKind wd) false) else none -- ST
  | 0x82 => if ld ∧ hint < 2 ∧ (hint = 1 → wd = .w8 ∨ wd = .w16) then some (loc (widthKind wd) true) else none -- LDS
  | 0x83 => if st ∧ hint = 0 then some (loc (widthKind wd) false) else none -- STS
  | 0x84 => if ld ∧ hint < 2 ∧ (hint = 1 → wd = .w8 ∨ wd = .w16) then some (loc (widthKind wd) true) else none -- LDC
  | 0x85 => if st ∧ hint = 0 then some (loc (widthKind wd) false) else none -- STC
  | 0x86 => if st ∧ hint = 0 then some (glob (widthKind wd) false) else none -- MST
  | 0x87 => if o = .plain ∧ wd = .w8 ∧ hint < 2 then some (glob .zero false) else none -- PREF
  | 0x88 => if wd = .w8 ∧ hint = 0 then some { off := false } else none -- FENCE
  | 0x89 => if o = .plain ∧ wd = .w32 ∧ hint = 0 then some (glob .xr false) else none -- CLEANR
  | 0x8A => if o = .plain ∧ wd = .w32 ∧ hint = 0 then some (glob .xr false) else none -- INVALR
  | 0x8B => if o = .plain ∧ wd = .w32 ∧ hint = 0 then some (glob .xr false) else none -- FLUSHR
  | 0x8C => if atomW ∧ rmtOk then some (glob (widthKind wd) true) else none -- ATOM
  | 0x8D => if atomW ∧ (hint = 0 ∨ hint = 8) ∧ rmtOk then some (glob (casKind wd) true) else none -- CAS
  | 0x8E => if atomW ∧ st ∧ hint % 8 ≠ 6 ∧ rmtOk then some (glob (widthKind wd) false) else none -- RED
  | 0x8F => if atomW ∧ hint < 8 then some (loc (widthKind wd) true) else none -- ATOMS
  | 0x90 => if atomW ∧ hint = 0 then some (loc (casKind wd) true) else none -- CASS
  | 0x91 => if o = .plain ∧ wd = .w64 ∧ hint = 0 then some (glob .xw true) else none -- PROBE
  | 0x92 => if o = .plain ∧ wd = .w32 ∧ hint = 0 then some (glob .xr false) else none -- FPUSH
  | 0x93 => if o = .plain ∧ wd = .w64 ∧ hint = 0 then some (glob .xw true) else none -- FPOP
  | 0xA0 => if o = .plain ∧ wd = .w128 ∧ hint / 4 % 2 = 0
            then some (phas (if hint % 4 = 3 then .sr else .zero) false) else none -- PHREG
  | 0xA1 => if o = .plain ∧ wd = .w128 ∧ hint / 4 % 2 = 0
            then some (phas (if hint % 4 = 3 then .sr else .zero) false) else none -- PHDROP
  | 0xA2 => if o = .plain ∧ wd = .w128 ∧ hint % 8 = 0 then some (phas .zero false) else none -- PHARR
  | 0xA3 => if o = .plain ∧ wd = .w128 ∧ hint % 8 = 0 then some (phas .sr false) else none -- PHWAIT
  | 0xA4 => if o = .plain ∧ wd = .w128 ∧ hint % 8 < 2 then some (phas .sr false) else none -- PHEXP
  | 0xA5 => if o = .plain ∧ wd = .w128 ∧ hint % 8 = 0 then some (phas .xr true) else none -- PHTEST
  | _ => none

/-- The constructor an R-form opcode selects, its sub-operation lying in M where a row of the table has one. -/
def buildR (op : Nat) (w : RWord) : Option Instr :=
  match op with
  | 0x00 => some (.nop w)
  | 0x03 => some (.brx w)
  | 0x05 => some (.ret w)
  | 0x07 => some (.exit w)
  | 0x09 => some (.yield w)
  | 0x0B => some (.tret w)
  | 0x0C => some (.bkpt w)
  | 0x0D => some (.wsync w)
  | 0x0E => some (.haltF w)
  | 0x10 => some (.iadd w)
  | 0x11 => some (.isub w)
  | 0x12 => some (.imul w)
  | 0x13 => some (.imulh w)
  | 0x14 => some (.imad w)
  | 0x15 => some (.imin w)
  | 0x16 => some (.imax w)
  | 0x17 => some (.iabs w)
  | 0x18 => some (.ineg w)
  | 0x19 => some (.andw w)
  | 0x1A => some (.orw w)
  | 0x1B => some (.xorw w)
  | 0x1C => some (.andn w)
  | 0x1D => some (.shl w)
  | 0x1E => some (.shr w)
  | 0x1F => some (.sar w)
  | 0x20 => some (.rotl w)
  | 0x21 => some (.bfx w)
  | 0x22 => some (.bfi w)
  | 0x23 => some (.popc w)
  | 0x24 => some (.clz w)
  | 0x25 => some (.ctz w)
  | 0x26 => some (.brev w)
  | 0x27 => some (.sel w)
  | 0x28 => some (.mov w)
  | 0x2B => some (.lea w)
  | 0x2C => some (.iaddc w)
  | 0x2D => some (.idiv w)
  | 0x2E => some (.irem w)
  | 0x2F => some (.isad w)
  | 0x30 => some (.fadd w)
  | 0x31 => some (.fsub w)
  | 0x32 => some (.fmul w)
  | 0x33 => some (.ffma w)
  | 0x34 => some (.fmin w)
  | 0x35 => some (.fmax w)
  | 0x36 => some (.fabs w)
  | 0x37 => some (.fneg w)
  | 0x38 => some (.frcp w)
  | 0x39 => some (.frsq w)
  | 0x3A => some (.fsqrt w)
  | 0x3B => some (.fdiv w)
  | 0x3C => some (.fex2 w)
  | 0x3D => some (.flg2 w)
  | 0x3E => some (.fsin w)
  | 0x3F => some (.fcos w)
  | 0x40 => some (.ftanh w)
  | 0x41 => some (.frnd w)
  | 0x42 => some (.fclass w)
  | 0x43 => some (.fscale w)
  | 0x44 => some (.dadd w)
  | 0x45 => some (.dmul w)
  | 0x46 => some (.dfma w)
  | 0x47 => some (.ddiv w)
  | 0x48 => some (.dsqrt w)
  | 0x49 => some (.hfma2 w)
  | 0x4A => some (.hadd2 w)
  | 0x4B => some (.hmul2 w)
  | 0x4C => some (.fdot2 w)
  | 0x4D => some (.fdot4z w)
  | 0x4E => some (.fmed3 w)
  | 0x50 => some (.icmp w)
  | 0x51 => some (.fcmp w)
  | 0x52 => some (.dcmp w)
  | 0x53 => some (.pset w)
  | 0x54 => if w.m = 0#4 then some (.pmovToPred w)
     else if w.m = 1#4 then some (.pmovFromPred w) else if w.m = 2#4 then some (.pmovSetall w) else if w.m = 3#4 then some (.pmovGetall w) else none
  | 0x55 => if w.m = 0#4 then some (.voteAll w)
     else if w.m = 1#4 then some (.voteAny w) else if w.m = 2#4 then some (.voteBallot w) else none
  | 0x56 => some (.active w)
  | 0x60 => some (.pmac2 w)
  | 0x61 => some (.pmul2 w)
  | 0x62 => some (.padd2 w)
  | 0x63 => some (.psub2 w)
  | 0x64 => some (.satadd w)
  | 0x65 => some (.satsub w)
  | 0x66 => some (.shrr w)
  | 0x67 => some (.packs w)
  | 0x68 => some (.unpack w)
  | 0x69 => some (.eslide w)
  | 0x6A => some (.dot4 w)
  | 0x6B => some (.dot8 w)
  | 0x6C => some (.pmax2 w)
  | 0x6D => some (.pmin2 w)
  | 0x6E => some (.pabs2 w)
  | 0x70 => some (.cvt w)
  | 0x71 => some (.cvtf w)
  | 0x72 => some (.packz w)
  | 0x73 => some (.unpz w)
  | 0x74 => some (.scaleb w)
  | 0x75 => some (.qnt w)
  | 0x76 => some (.dqnt w)
  | 0x78 => some (.perm w)
  | 0x79 => some (.shuf w)
  | 0x7A => some (.wreduce w)
  | 0x7B => some (.wscan w)
  | 0x7C => some (.matchL w)
  | 0x7D => some (.rdlane w)
  | 0x7E => some (.wrlane w)
  | 0xA6 => if w.m = 0#4 then some (.ringacqNew w)
     else if w.m = 1#4 then some (.ringacqP w) else if w.m = 2#4 then some (.ringacqC w) else none
  | 0xA7 => if w.m = 0#4 then some (.ringrelP w)
     else if w.m = 1#4 then some (.ringrelC w) else if w.m = 2#4 then some (.ringrelEnd w) else none
  | 0xA8 => some (.rsbeg w)
  | 0xA9 => some (.rsend w)
  | 0xAA => some (.gpstart w)
  | 0xAB => some (.gpwait w)
  | 0xAC => some (.gppoll w)
  | 0xAD => some (.dacc w)
  | 0xAE => some (.dfpop w)
  | 0xB0 => some (.msend w)
  | 0xB1 => some (.mrecv w)
  | 0xB2 => some (.mprobe w)
  | 0xB3 => some (.mcancel w)
  | 0xB4 => some (.gcall w)
  | 0xB5 => some (.gwait w)
  | 0xB6 => some (.gret w)
  | 0xB8 => some (.copy w)
  | 0xB9 => some (.copyt w)
  | 0xBA => some (.copym w)
  | 0xBB => some (.bankop w)
  | 0xBC => some (.mjob w)
  | 0xBD => some (.mpair w)
  | 0xBE => some (.mwait w)
  | 0xBF => some (.gmma w)
  | 0xC0 => some (.launch w)
  | 0xC1 => some (.lquery w)
  | 0xD2 => some (.view w)
  | 0xD3 => some (.clkrd w)
  | 0xD5 => some (.savef w)
  | 0xD6 => some (.loadf w)
  | 0xD7 => some (.bankrole w)
  | 0xD8 => some (.scrub w)
  | _ => none

/-- The constructor an I-form opcode selects. -/
def buildI (op : Nat) (w : IWord) : Option Instr :=
  match op with
  | 0x01 => some (.nextw w)
  | 0x02 => some (.brc w)
  | 0x04 => some (.call w)
  | 0x06 => some (.regroup w)
  | 0x08 => some (.loop w)
  | 0x0A => some (.trapw w)
  | 0x0F => some (.setpri w)
  | 0x29 => some (.movi w)
  | 0x2A => some (.movh w)
  | 0xD0 => some (.rdsr w)
  | 0xD1 => some (.wrsr w)
  | 0xD4 => some (.cntrd w)
  | _ => none

/-- The constructor an M-form opcode selects. -/
def buildM (op : Nat) (w : MWord) : Option Instr :=
  match op with
  | 0x80 => some (.ld w)
  | 0x81 => some (.st w)
  | 0x82 => some (.lds w)
  | 0x83 => some (.sts w)
  | 0x84 => some (.ldc w)
  | 0x85 => some (.stc w)
  | 0x86 => some (.mst w)
  | 0x87 => some (.pref w)
  | 0x88 => some (.fence w)
  | 0x89 => some (.cleanr w)
  | 0x8A => some (.invalr w)
  | 0x8B => some (.flushr w)
  | 0x8C => some (.atom w)
  | 0x8D => some (.cas w)
  | 0x8E => some (.red w)
  | 0x8F => some (.atoms w)
  | 0x90 => some (.cass w)
  | 0x91 => some (.probe w)
  | 0x92 => some (.fpush w)
  | 0x93 => some (.fpop w)
  | 0xA0 => some (.phreg w)
  | 0xA1 => some (.phdrop w)
  | 0xA2 => some (.pharr w)
  | 0xA3 => some (.phwait w)
  | 0xA4 => some (.phexp w)
  | 0xA5 => some (.phtest w)
  | _ => none

/-- The form and the opcode of each constructor (16 R252); an event has no word. -/
def Form.of (i : Instr) : Form :=
  match i with
  | .partitionCommit => .event
  | .weightOnlyCommit => .event
  | .create => .event
  | .openDomain => .event
  | .closeDomain => .event
  | .kill => .event
  | .retire => .event
  | .frost => .event
  | .thaw => .event
  | .kick => .event
  | .snap => .event
  | .snapshotComplete => .event
  | .fkey => .event
  | .fkeyZeroDone => .event
  | .tlbinv => .event
  | .tlbinvDone => .event
  | .pgrespRetry => .event
  | .pgrespError => .event
  | .skip => .event
  | .queueDescriptorWrite => .event
  | .queueEnable => .event
  | .queueDisable => .event
  | .errcClear => .event
  | .queueTailWrite => .event
  | .doorbell => .event
  | .curatorRingWrite => .event
  | .dprovRingWrite => .event
  | .registerWrite => .event
  | .iwselWrite => .event
  | .iwdataRead => .event
  | .faultLogClear => .event
  | .barstatClear => .event
  | .tableWindowWrite => .event
  | .hostRead => .event
  | .hostWrite => .event
  | .hostSnoop => .event
  | .birspReceived => .event
  | .linkEnable => .event
  | .linkDisable => .event
  | .linkTrained => .event
  | .linkTrainingFail => .event
  | .laneFail => .event
  | .linkRetrainUp => .event
  | .linkFault => .event
  | .queueRecordRead => .event
  | .waitphTurnNotify => .event
  | .recordDispatch => .event
  | .teamPlace => .event
  | .zeroingComplete => .event
  | .teamRetire => .event
  | .gridComplete => .event
  | .provenanceRecordWrite => .event
  | .killComplete => .event
  | .retireComplete => .event
  | .issueSlotDecision => .event
  | .resultsComplete => .event
  | .pathDue => .event
  | .waitAging => .event
  | .rendezvousComplete => .event
  | .repackDone => .event
  | .preemptTake => .event
  | .forcedFrost => .event
  | .teamThaw => .event
  | .watchdogExpiry => .event
  | .beatTokenGrant => .event
  | .packetGrant => .event
  | .l2Load => .event
  | .l2Store => .event
  | .l2Atomic => .event
  | .replyReceived => .event
  | .msAccess => .event
  | .qclkReconcile => .event
  | .rebaseStart => .event
  | .unitRebase => .event
  | .rebaseEpochBroadcast => .event
  | .coreRebase => .event
  | .rebaseComplete => .event
  | .pageWalkComplete => .event
  | .pendingEntryFree => .event
  | .pageRequestWrite => .event
  | .catalogueEntryFree => .event
  | .replayComplete => .event
  | .eccUncorrectable => .event
  | .messageArrival => .event
  | .peerArrival => .event
  | .remoteAccess => .event
  | .enginePhaserUpdate => .event
  | .phaserWaitRetest => .event
  | .copyBeat => .event
  | .bankopElement => .event
  | .jobStepCommit => .event
  | .engineCommandFinish => .event
  | .mpairStart => .event
  | .mpairTimeout => .event
  | .scrubZero => .event
  | .bankScrubDone => .event
  | .curatorStart => .event
  | .dieCuratorClear => .event
  | .gracePeriodComplete => .event
  | .counterFlush => .event
  | .barometerWindowEnd => .event
  | .fabricError => .event
  | .thermalStop => .event
  | .thermalClockStep => .event
  | .powerClockStep => .event
  | .railFault => .event
  | .deviceReset => .event
  | .nop w => .r 0x00 w
  | .nextw w => .i 0x01 w
  | .brc w => .i 0x02 w
  | .brx w => .r 0x03 w
  | .call w => .i 0x04 w
  | .ret w => .r 0x05 w
  | .regroup w => .i 0x06 w
  | .exit w => .r 0x07 w
  | .loop w => .i 0x08 w
  | .yield w => .r 0x09 w
  | .trapw w => .i 0x0A w
  | .tret w => .r 0x0B w
  | .bkpt w => .r 0x0C w
  | .wsync w => .r 0x0D w
  | .haltF w => .r 0x0E w
  | .setpri w => .i 0x0F w
  | .iadd w => .r 0x10 w
  | .isub w => .r 0x11 w
  | .imul w => .r 0x12 w
  | .imulh w => .r 0x13 w
  | .imad w => .r 0x14 w
  | .imin w => .r 0x15 w
  | .imax w => .r 0x16 w
  | .iabs w => .r 0x17 w
  | .ineg w => .r 0x18 w
  | .andw w => .r 0x19 w
  | .orw w => .r 0x1A w
  | .xorw w => .r 0x1B w
  | .andn w => .r 0x1C w
  | .shl w => .r 0x1D w
  | .shr w => .r 0x1E w
  | .sar w => .r 0x1F w
  | .rotl w => .r 0x20 w
  | .bfx w => .r 0x21 w
  | .bfi w => .r 0x22 w
  | .popc w => .r 0x23 w
  | .clz w => .r 0x24 w
  | .ctz w => .r 0x25 w
  | .brev w => .r 0x26 w
  | .sel w => .r 0x27 w
  | .mov w => .r 0x28 w
  | .movi w => .i 0x29 w
  | .movh w => .i 0x2A w
  | .lea w => .r 0x2B w
  | .iaddc w => .r 0x2C w
  | .idiv w => .r 0x2D w
  | .irem w => .r 0x2E w
  | .isad w => .r 0x2F w
  | .fadd w => .r 0x30 w
  | .fsub w => .r 0x31 w
  | .fmul w => .r 0x32 w
  | .ffma w => .r 0x33 w
  | .fmin w => .r 0x34 w
  | .fmax w => .r 0x35 w
  | .fabs w => .r 0x36 w
  | .fneg w => .r 0x37 w
  | .frcp w => .r 0x38 w
  | .frsq w => .r 0x39 w
  | .fsqrt w => .r 0x3A w
  | .fdiv w => .r 0x3B w
  | .fex2 w => .r 0x3C w
  | .flg2 w => .r 0x3D w
  | .fsin w => .r 0x3E w
  | .fcos w => .r 0x3F w
  | .ftanh w => .r 0x40 w
  | .frnd w => .r 0x41 w
  | .fclass w => .r 0x42 w
  | .fscale w => .r 0x43 w
  | .dadd w => .r 0x44 w
  | .dmul w => .r 0x45 w
  | .dfma w => .r 0x46 w
  | .ddiv w => .r 0x47 w
  | .dsqrt w => .r 0x48 w
  | .hfma2 w => .r 0x49 w
  | .hadd2 w => .r 0x4A w
  | .hmul2 w => .r 0x4B w
  | .fdot2 w => .r 0x4C w
  | .fdot4z w => .r 0x4D w
  | .fmed3 w => .r 0x4E w
  | .icmp w => .r 0x50 w
  | .fcmp w => .r 0x51 w
  | .dcmp w => .r 0x52 w
  | .pset w => .r 0x53 w
  | .pmovToPred w => .r 0x54 w
  | .pmovFromPred w => .r 0x54 w
  | .pmovSetall w => .r 0x54 w
  | .pmovGetall w => .r 0x54 w
  | .voteAll w => .r 0x55 w
  | .voteAny w => .r 0x55 w
  | .voteBallot w => .r 0x55 w
  | .active w => .r 0x56 w
  | .pmac2 w => .r 0x60 w
  | .pmul2 w => .r 0x61 w
  | .padd2 w => .r 0x62 w
  | .psub2 w => .r 0x63 w
  | .satadd w => .r 0x64 w
  | .satsub w => .r 0x65 w
  | .shrr w => .r 0x66 w
  | .packs w => .r 0x67 w
  | .unpack w => .r 0x68 w
  | .eslide w => .r 0x69 w
  | .dot4 w => .r 0x6A w
  | .dot8 w => .r 0x6B w
  | .pmax2 w => .r 0x6C w
  | .pmin2 w => .r 0x6D w
  | .pabs2 w => .r 0x6E w
  | .cvt w => .r 0x70 w
  | .cvtf w => .r 0x71 w
  | .packz w => .r 0x72 w
  | .unpz w => .r 0x73 w
  | .scaleb w => .r 0x74 w
  | .qnt w => .r 0x75 w
  | .dqnt w => .r 0x76 w
  | .perm w => .r 0x78 w
  | .shuf w => .r 0x79 w
  | .wreduce w => .r 0x7A w
  | .wscan w => .r 0x7B w
  | .matchL w => .r 0x7C w
  | .rdlane w => .r 0x7D w
  | .wrlane w => .r 0x7E w
  | .ld w => .m 0x80 w
  | .st w => .m 0x81 w
  | .lds w => .m 0x82 w
  | .sts w => .m 0x83 w
  | .ldc w => .m 0x84 w
  | .stc w => .m 0x85 w
  | .mst w => .m 0x86 w
  | .pref w => .m 0x87 w
  | .fence w => .m 0x88 w
  | .cleanr w => .m 0x89 w
  | .invalr w => .m 0x8A w
  | .flushr w => .m 0x8B w
  | .atom w => .m 0x8C w
  | .cas w => .m 0x8D w
  | .red w => .m 0x8E w
  | .atoms w => .m 0x8F w
  | .cass w => .m 0x90 w
  | .probe w => .m 0x91 w
  | .fpush w => .m 0x92 w
  | .fpop w => .m 0x93 w
  | .phreg w => .m 0xA0 w
  | .phdrop w => .m 0xA1 w
  | .pharr w => .m 0xA2 w
  | .phwait w => .m 0xA3 w
  | .phexp w => .m 0xA4 w
  | .phtest w => .m 0xA5 w
  | .ringacqNew w => .r 0xA6 w
  | .ringacqP w => .r 0xA6 w
  | .ringacqC w => .r 0xA6 w
  | .ringrelP w => .r 0xA7 w
  | .ringrelC w => .r 0xA7 w
  | .ringrelEnd w => .r 0xA7 w
  | .rsbeg w => .r 0xA8 w
  | .rsend w => .r 0xA9 w
  | .gpstart w => .r 0xAA w
  | .gpwait w => .r 0xAB w
  | .gppoll w => .r 0xAC w
  | .dacc w => .r 0xAD w
  | .dfpop w => .r 0xAE w
  | .msend w => .r 0xB0 w
  | .mrecv w => .r 0xB1 w
  | .mprobe w => .r 0xB2 w
  | .mcancel w => .r 0xB3 w
  | .gcall w => .r 0xB4 w
  | .gwait w => .r 0xB5 w
  | .gret w => .r 0xB6 w
  | .copy w => .r 0xB8 w
  | .copyt w => .r 0xB9 w
  | .copym w => .r 0xBA w
  | .bankop w => .r 0xBB w
  | .mjob w => .r 0xBC w
  | .mpair w => .r 0xBD w
  | .mwait w => .r 0xBE w
  | .gmma w => .r 0xBF w
  | .launch w => .r 0xC0 w
  | .lquery w => .r 0xC1 w
  | .rdsr w => .i 0xD0 w
  | .wrsr w => .i 0xD1 w
  | .view w => .r 0xD2 w
  | .clkrd w => .r 0xD3 w
  | .cntrd w => .i 0xD4 w
  | .savef w => .r 0xD5 w
  | .loadf w => .r 0xD6 w
  | .bankrole w => .r 0xD7 w
  | .scrub w => .r 0xD8 w
  | .pairSNop w => .pair w
  | .pairSIadd w => .pair w
  | .pairSIsub w => .pair w
  | .pairSImul w => .pair w
  | .pairSImin w => .pair w
  | .pairSImax w => .pair w
  | .pairSAnd w => .pair w
  | .pairSOr w => .pair w
  | .pairSXor w => .pair w
  | .pairSAndn w => .pair w
  | .pairSShl w => .pair w
  | .pairSShr w => .pair w
  | .pairSSar w => .pair w
  | .pairSRotl w => .pair w
  | .pairSMov w => .pair w
  | .pairVNop w => .pair w
  | .pairVIadd w => .pair w
  | .pairVIsub w => .pair w
  | .pairVImul w => .pair w
  | .pairVImin w => .pair w
  | .pairVImax w => .pair w
  | .pairVAnd w => .pair w
  | .pairVOr w => .pair w
  | .pairVXor w => .pair w
  | .pairVAndn w => .pair w
  | .pairVShl w => .pair w
  | .pairVShr w => .pair w
  | .pairVSar w => .pair w
  | .pairVMov w => .pair w
  | .pairVFadd w => .pair w
  | .pairVFsub w => .pair w
  | .pairVFmul w => .pair w
  | .pairVFmin w => .pair w
  | .pairVFmax w => .pair w
  | .pairVHadd2 w => .pair w
  | .pairVHmul2 w => .pair w
  | .pairVPadd2 w => .pair w
  | .pairVPsub2 w => .pair w
  | .pairVSatadd w => .pair w
  | .pairVSatsub w => .pair w
  | .pairVPmax2 w => .pair w
  | .pairVPmin2 w => .pair w
  | .bridgeLineFetch => .event
  | .placementWaitExpiry => .event

/-- The constructor of a pair word: the scalar operation names the row when both halves act, or when neither does; a
lone vector operation its own row; a lone scalar operation the row of the vector NOP (16 R250). -/
def buildPair (w : PairWord) : Instr :=
  match w.vop, w.sop with
  | .nop, .nop => .pairSNop w
  | .nop, _ => .pairVNop w
  | .iadd, .nop => .pairVIadd w
  | .isub, .nop => .pairVIsub w
  | .imul, .nop => .pairVImul w
  | .imin, .nop => .pairVImin w
  | .imax, .nop => .pairVImax w
  | .andw, .nop => .pairVAnd w
  | .orw, .nop => .pairVOr w
  | .xorw, .nop => .pairVXor w
  | .andn, .nop => .pairVAndn w
  | .shl, .nop => .pairVShl w
  | .shr, .nop => .pairVShr w
  | .sar, .nop => .pairVSar w
  | .mov, .nop => .pairVMov w
  | .fadd, .nop => .pairVFadd w
  | .fsub, .nop => .pairVFsub w
  | .fmul, .nop => .pairVFmul w
  | .fmin, .nop => .pairVFmin w
  | .fmax, .nop => .pairVFmax w
  | .hadd2, .nop => .pairVHadd2 w
  | .hmul2, .nop => .pairVHmul2 w
  | .padd2, .nop => .pairVPadd2 w
  | .psub2, .nop => .pairVPsub2 w
  | .satadd, .nop => .pairVSatadd w
  | .satsub, .nop => .pairVSatsub w
  | .pmax2, .nop => .pairVPmax2 w
  | .pmin2, .nop => .pairVPmin2 w
  | _, .iadd => .pairSIadd w
  | _, .isub => .pairSIsub w
  | _, .imul => .pairSImul w
  | _, .imin => .pairSImin w
  | _, .imax => .pairSImax w
  | _, .andw => .pairSAnd w
  | _, .orw => .pairSOr w
  | _, .xorw => .pairSXor w
  | _, .andn => .pairSAndn w
  | _, .shl => .pairSShl w
  | _, .shr => .pairSShr w
  | _, .sar => .pairSSar w
  | _, .rotl => .pairSRotl w
  | _, .mov => .pairSMov w
/-! ## Legality (16 R253) -/

/-- A guard of the negated p0 would mean never, and is illegal (16 R241). -/
def headOk (h : Head) (term : Bool) : Bool :=
  !(h.gn && h.gp == 0#3) && (!term || h.last)

/-- A pattern other than identity needs a vector register source (16 R244). -/
def patOk (p : Pat) (o : Opd) : Bool :=
  p == .ident || (match o with | .v _ => true | _ => false)

/-- The parameter K lies in the range of a pattern (16 R244). -/
def kOk (p : Pat) (k : Nat) : Bool :=
  match p with
  | .mir => k ≤ 4
  | .quad => k ≤ 3
  | _ => true

/-- The operand is a vector register. -/
def Opd.isV : Opd → Bool
  | .v _ => true
  | _ => false

/-- The operand is a scalar register. -/
def Opd.isS : Opd → Bool
  | .s _ => true
  | _ => false

/-- An R-form word obeys its signature and the pattern rules. -/
def legalR (g : RSig) (w : RWord) : Bool :=
  headOk w.h g.term && opdOk g.d w.d && opdOk g.a w.a && opdOk g.b w.b && opdOk g.c w.c &&
  patOk w.pa w.a && patOk w.pb w.b && patOk w.pc w.c &&
  kOk w.pa w.k.toNat && kOk w.pb w.k.toNat && kOk w.pc w.k.toNat &&
  (!(w.pa == .ident && w.pb == .ident && w.pc == .ident) || w.k == 0#5) &&
  (g.crossS || !(w.d.isS && (w.a.isV || w.b.isV || w.c.isV)))

/-- An I-form word obeys its signature. -/
def legalI (g : ISig) (w : IWord) : Bool :=
  headOk w.h g.term && opdOk g.d w.d && opdOk g.a w.a && !(w.d.isS && w.a.isV)

/-- An M-form word obeys its signature (16 R247, R248; 18 R292). -/
def legalM (g : MSig) (w : MWord) : Bool :=
  headOk w.h false && opdOk g.data w.data && opdOk g.base w.base && opdOk g.seg w.seg &&
  (g.off || w.off == 0#14) && (!g.result || !w.data.isS || w.base.isS)

/-- The scalar operation reads source A. -/
def sopReadsA : SOp → Bool
  | .nop | .mov => false
  | _ => true

/-- The vector operation reads source B. -/
def vopReadsB : VOp → Bool
  | .nop | .mov => false
  | _ => true

/-- A pair obeys 16 R250. -/
def legalPair (w : PairWord) : Bool :=
  headOk w.h false &&
  (w.sop != .nop || (w.sd == 0#6 && w.sb == .s 0#6)) && (sopReadsA w.sop || w.sa == 0#6) &&
  opdOk (if w.vop == .nop then .zero else .vr) w.vd &&
  opdOk (if w.vop == .nop then .zero else .xr) w.va &&
  opdOk (if vopReadsB w.vop then .xr else .zero) w.vb &&
  (!vopReadsB w.vop || encOpd w.va % 4 != encOpd w.vb % 4) &&
  (w.sop == .nop || (w.va != .s w.sd.toNat && w.vb != .s w.sd.toNat))

/-- Some source names a segment register. -/
def hasSeg (w : MWord) : Bool := w.seg != .none

end Sys2Proof
end

