-- ==== Sys2Proof/Machine/Table.lean ====
section
/-! DEFINITION. Sparse tables and byte memories: one lookup and one update of each, from which every accessor is made. -/

namespace Sys2Proof.Machine

/-- The entry of a table at a number. -/
def tget {β : Type} (t : Tab β) (k : Nat) : Option β :=
  match t with
  | [] => none
  | (j, v) :: r => if j = k then some v else tget r k

/-- The table with an entry set, its numbers rising. -/
def tset {β : Type} (t : Tab β) (k : Nat) (v : β) : Tab β :=
  match t with
  | [] => [(k, v)]
  | (j, u) :: r => if k < j then (k, v) :: (j, u) :: r else if j = k then (k, v) :: r else (j, u) :: tset r k v

/-- The table without an entry. -/
def tdel {β : Type} (t : Tab β) (k : Nat) : Tab β :=
  match t with
  | [] => []
  | (j, u) :: r => if j = k then r else (j, u) :: tdel r k

/-- The table with an entry changed, where it has one. -/
def tmod {β : Type} (t : Tab β) (k : Nat) (f : β → β) : Tab β :=
  match t with
  | [] => []
  | (j, u) :: r => if j = k then (j, f u) :: r else (j, u) :: tmod r k f

/-- The byte of a memory at an address; a byte nothing has written reads as 0. -/
def memByte (m : Mem) (a : Nat) : Byte :=
  match m with
  | [] => 0#8
  | (j, b) :: r => if j = a then b else memByte r a

/-- The memory with a byte written: an entry of 0 is not kept. -/
def memSet (m : Mem) (a : Nat) (b : Byte) : Mem :=
  match m with
  | [] => if b = 0#8 then [] else [(a, b)]
  | (j, c) :: r =>
    if a < j then if b = 0#8 then (j, c) :: r else (a, b) :: (j, c) :: r
    else if j = a then if b = 0#8 then r else (a, b) :: r
    else (j, c) :: memSet r a b

/-- n bytes of a memory from an address. -/
def memBytes (m : Mem) (a : Nat) : Nat → Bytes
  | 0 => []
  | n + 1 => memByte m a :: memBytes m (a + 1) n

/-- The memory with bytes written from an address. -/
def memPut (m : Mem) (a : Nat) : Bytes → Mem
  | [] => m
  | b :: bs => memPut (memSet m a b) (a + 1) bs

/-- The entries' addresses rise strictly from a bound and no entry is 0. -/
def Memory.wfFrom (lo : Nat) : Mem → Bool
  | [] => true
  | (a, b) :: r => decide (lo ≤ a) && b != 0#8 && Memory.wfFrom (a + 1) r

/-- The canonical form of a memory. -/
def Memory.wf (m : Mem) : Bool := Memory.wfFrom 0 m

/-- The little-endian number of a run of bytes (00 R6). -/
def leVal : Bytes → Nat
  | [] => 0
  | b :: bs => b.toNat + 256 * leVal bs

/-- n bytes of a number, lowest first (00 R6). -/
def leOf (n w : Nat) : Bytes :=
  match n with
  | 0 => []
  | n + 1 => BitVec.ofNat 8 w :: leOf n (w / 256)

/-- The number in bits [hi:lo] of a word (00 R10). -/
def bits (w hi lo : Nat) : Nat := w / 2 ^ lo % 2 ^ (hi + 1 - lo)

/-- A word with its bits [hi:lo] replaced. -/
def setBits (w hi lo x : Nat) : Nat := w - bits w hi lo * 2 ^ lo + x % 2 ^ (hi + 1 - lo) * 2 ^ lo

/-- The list with its element i replaced. -/
def setAt {β : Type} (l : List β) (i : Nat) (v : β) : List β :=
  match l with
  | [] => []
  | x :: r => match i with
    | 0 => v :: r
    | i + 1 => x :: setAt r i v

/-- A list in order with one more element, before those that are not below it. -/
def insertSorted {α : Type} (le : α → α → Bool) (x : α) : List α → List α
  | [] => [x]
  | y :: r => if le x y then x :: y :: r else y :: insertSorted le x r

/-- A list in order; equal elements keep theirs. -/
def sortBy {α : Type} (le : α → α → Bool) : List α → List α
  | [] => []
  | x :: r => insertSorted le x (sortBy le r)

/-- The numbers 0 to n - 1. -/
def upTo (n : Nat) : List Nat := List.range n

end Sys2Proof.Machine
end

