-- ==== Sys2Proof/Machine/Ops.lean ====
section
/-! DEFINITION. The named operations over the state: reading and writing groups, registers and rows; issuing one word; taking
a trap and returning from one; forming paths. Every meaning is made of these. -/

namespace Sys2Proof.Machine

/-- The outcome of a step. -/
abbrev Out := Host.Outcome State Fault Refusal

/-- The state where the device is up, after a function of it; else unchanged (23 R380). -/
def whenUp (s : State) (f : State → State) : State := if s.sys.up then f s else s

/-! ## Lanes -/

/-- The lanes 0 to 31, ascending. -/
def lanes32 : List Nat := List.range 32

/-- The mask of the lanes that satisfy a test. -/
def maskOf (f : Nat → Bool) : Mask := BitVec.ofNat 32 (lanes32.foldl (fun m l => if f l then m + 2 ^ l else m) 0)

/-- Lane l is in the mask. -/
def inMask (m : Mask) (l : Nat) : Bool := m.getLsbD l

/-- The lanes of a mask, ascending. -/
def lanesOf (m : Mask) : List Nat := lanes32.filter (inMask m)

/-- The number of lanes of a mask. -/
def maskCount (m : Mask) : Nat := popc 32 m.toNat

/-- The lowest lane of a mask; 32 for none. -/
def lowLane (m : Mask) : Nat := ctz 32 m.toNat

/-- The highest lane of a mask. -/
def highLane (m : Mask) : Nat := Nat.log2 m.toNat

/-! ## Entries of the state -/

/-- A group, or a matrix sequencer, by its key: 64 times the team's number plus %gid. -/
def State.group (s : State) (k : Nat) : Option Group := tget s.work.groups k
/-- A team by its number. -/
def State.team (s : State) (t : Nat) : Option Team := tget s.work.teams t
/-- A grid by its number. -/
def State.grid (s : State) (n : Nat) : Option Grid := tget s.work.grids n

/-- The state with its groups, teams and grids changed. -/
def State.setWork (s : State) (w : Work) : State := { s with work := w }
/-- The state with its administration changed. -/
def State.setAdm (s : State) (a : Admin) : State := { s with adm := a }
/-- The state with its core space changed. -/
def State.setCore (s : State) (c : CoreSpace) : State := { s with core := c }
/-- The state with its memory system changed. -/
def State.setMem (s : State) (m : MemSys) : State := { s with mem := m }
/-- The state with its traffic changed. -/
def State.setFly (s : State) (f : Flight) : State := { s with fly := f }
/-- The state with its device-wide part changed. -/
def State.setSys (s : State) (x : Sys) : State := { s with sys := x }
/-- The state with its control fields changed. -/
def State.setCtl (s : State) (c : Control) : State := { s with ctl := c }

/-- The state with a group set. -/
def State.setGroup (s : State) (k : Nat) (g : Group) : State := s.setWork { s.work with groups := tset s.work.groups k g }
/-- The state with a group changed, where it exists. -/
def State.modGroup (s : State) (k : Nat) (f : Group → Group) : State :=
  s.setWork { s.work with groups := tmod s.work.groups k f }
/-- The state with a team set. -/
def State.setTeam (s : State) (k : Nat) (t : Team) : State := s.setWork { s.work with teams := tset s.work.teams k t }
/-- The state with a team changed. -/
def State.modTeam (s : State) (k : Nat) (f : Team → Team) : State :=
  s.setWork { s.work with teams := tmod s.work.teams k f }
/-- The state with a grid changed. -/
def State.modGrid (s : State) (k : Nat) (f : Grid → Grid) : State :=
  s.setWork { s.work with grids := tmod s.work.grids k f }
/-- The state with all groups changed. -/
def State.mapGroups (s : State) (f : Nat → Group → Group) : State :=
  s.setWork { s.work with groups := s.work.groups.map fun e => (e.1, f e.1 e.2) }

/-- The element of a list with the least key, the first of equals. -/
def leastBy {α : Type} (key : α → Nat) : List α → Option α
  | [] => none
  | x :: xs => match leastBy key xs with
    | none => some x
    | some y => if key y < key x then some y else some x

/-- A curator of a domain that has none running (12 R197): NEXT is 1. -/
def Curator.fresh : Curator :=
  { v := false, basePage := 0, order := 0, tail := 0, head := 0, ripe := 0, entries := [], next := 1, doneTk := 0, gfloor := ⟨0, false⟩,
    running := none, trun := ⟨0, false⟩, last := 0, tpend := ⟨0, false⟩, pendLast := 0, pendv := false, marked := [],
    clear := [] }

/-- A free domain: every register at its reset value (13 R384). -/
def Dom.fresh : Dom :=
  { st := .free, part := 0, slot := 0, root := 0, vector := 0, gates := 0, gateCnt := 0, stop := 0, scause := 0, score := 0,
    stinfo := 0, ffrost := false, arrf := false, wcount := 0, wlimit := 0, save0 := 0#64, save1 := 0#64, provV := false,
    provBase := 0, provOrder := 0, provHead := 0, provTail := 0, counters := List.replicate 16 0,
    satBits := List.replicate 16 false, vclk := 0, snum := 0, pseq := 0, dgen := 0, snaps := [], inbox := [],
    cur := Curator.fresh, rrQueue := [], freezing := [], tlbinv := [], keyGen := 0, vpend := 0, vsent := 0 }

/-- A domain by its DID. -/
def State.dom (s : State) (d : Nat) : Dom := (tget s.adm.doms d).getD Dom.fresh
/-- The state with a domain set. -/
def State.setDom (s : State) (d : Nat) (x : Dom) : State := s.setAdm { s.adm with doms := tset s.adm.doms d x }
/-- The state with a domain changed. -/
def State.modDom (s : State) (d : Nat) (f : Dom → Dom) : State := s.setDom d (f (s.dom d))

/-- An uncommitted partition. -/
def Part.fresh : Part :=
  { committed := false, cores := [], domLimit := 0, quota := 0, lim0 := 0#64, lim1 := 0#64, barb := [0#64, 0#64, 0#64],
    ent0 := 0#64, ent1 := 0#64, e := 0, log := 0#64, barstat := 0, hist := List.replicate 3 (List.replicate 32 0),
    histLast := List.replicate 3 (List.replicate 32 0), rrDom := 255, winAt := [0, 0, 0] }

/-- A partition by its number. -/
def State.part (s : State) (p : Nat) : Part := (tget s.adm.parts p).getD Part.fresh
/-- The state with a partition changed. -/
def State.modPart (s : State) (p : Nat) (f : Part → Part) : State :=
  s.setAdm { s.adm with parts := tset s.adm.parts p (f (s.part p)) }

/-- A core with nothing committed. -/
def Core.fresh : Core :=
  { dpreg := [], roles := [], bankPart := [], l1 := [], tlb := [], deficits := [], pointers := [], buckets := [], inj := [],
    catalogue := [], catWait := [], catSeq := 0, recvs := [], ovf := [], matrixTurn := 0, tileOwner := none,
    incs := [], epoch := false, sentAt := [] }

/-- A core by its number. -/
def State.coreAt (s : State) (c : Nat) : Core := (tget s.core.cores c).getD Core.fresh
/-- The state with a core changed. -/
def State.modCore (s : State) (c : Nat) (f : Core → Core) : State :=
  s.setCore { s.core with cores := tset s.core.cores c (f (s.coreAt c)) }

/-- A queue that has not been written. -/
def Queue.unwritten : Queue :=
  { st := .off, kind := false, qpri := 0, base := 0, order := 0, quota := 0, errc := 0, head := 0, tail := 0, outst := 0,
    fresh := false, record := none, hash := 0, lastGrid := none, waitGen := none }

/-- Queue q of a domain. -/
def State.queue (s : State) (did q : Nat) : Queue := (tget s.adm.queues (did * 16 + q)).getD Queue.unwritten
/-- The state with a queue changed. -/
def State.modQueue (s : State) (did q : Nat) (f : Queue → Queue) : State :=
  s.setAdm { s.adm with queues := tset s.adm.queues (did * 16 + q) (f (s.queue did q)) }

/-- The team of a group. -/
def State.teamOf (s : State) (g : Group) : Option Team := s.team g.team

/-- The launch record of a team. -/
def State.launchOf (s : State) (t : Team) : Option Launch := (s.grid t.grid).map (·.launch)

/-- The domain of a group; 0 where its team is gone. -/
def State.didOf (s : State) (g : Group) : Nat := ((s.teamOf g).map (·.did)).getD 0

/-- The core of a group. -/
def State.coreOf (s : State) (g : Group) : Nat := ((s.teamOf g).map (·.core)).getD 0

/-- The register rows of a team that have been evicted (05 R80). -/
def Team.awayRows (t : Team) : List Nat := match t.image with | some im => im.evRows | none => []
/-- The scratchpad rows of a team that have been evicted. -/
def Team.awayPads (t : Team) : List Nat := match t.image with | some im => im.evSram | none => []
/-- The scalar files of a team that have been evicted, by %gid, with their group slots; under 32 the sequencer's, with the team slot. -/
def Team.awayFiles (t : Team) : List Nat := match t.image with | some im => im.evSregs | none => []

/-- The ranges of a block of n rows from a base that a team still holds. -/
def heldRuns (base n : Nat) (away : List Nat) : List (Nat × Nat) :=
  if away.isEmpty then [(base, n)] else ((List.range n).filter fun j => !away.contains j).map fun j => (base + j, 1)

/-- The team's scratchpad rows are in place (05 R80). -/
def Team.rowsHere (t : Team) : Bool := t.awayPads.isEmpty

/-- The group is a matrix sequencer (04 R64). -/
def Group.isSeq (g : Group) : Bool := g.gid == 32

/-- A number for a new request, command or other object. -/
def State.fresh (s : State) : Nat × State := (s.ctl.nextId, s.setCtl { s.ctl with nextId := s.ctl.nextId + 1 })

/-! ## Predicates, flags, guards -/

/-- Predicate n in lane l; p0 is true (00 R11). -/
def Group.pred (g : Group) (n l : Nat) : Bool := n == 0 || inMask (g.preds.getD (n - 1) 0#32) l

/-- The group with predicate n written in the lanes of a mask. -/
def Group.setPred (g : Group) (n : Nat) (m v : Mask) : Group :=
  if n = 0 then g else
    let old := g.preds.getD (n - 1) 0#32
    { g with preds := setAt g.preds (n - 1) ((old &&& ~~~m) ||| (v &&& m)) }

/-- The lanes in which the guard of a word is true (16 R241). -/
def guardMask (g : Group) (h : Head) : Mask :=
  let p := if h.gp = 0#3 then 0xFFFFFFFF#32 else g.preds.getD (h.gp.toNat - 1) 0#32
  if h.gn then ~~~p else p

/-- The group with flags set in the lanes of a mask (15 R232). -/
def Group.orFlags (g : Group) (fs : Nat → LaneFlags) (m : Mask) : Group :=
  { g with flags := lanes32.map fun l => if inMask m l then g.flags.getD l 0#8 ||| fs l else g.flags.getD l 0#8 }

/-! ## Registers (06 R87) -/

/-- Rows of a group's slice (06 R87). -/
def sliceRows (vregs : Nat) : Nat := 8 * ((vregs + 4 + 7) / 8)

/-- A row of register space of a core. -/
def State.row (s : State) (core r : Nat) : List Word := (tget s.core.rows (core * 6144 + r)).getD (List.replicate 32 0#32)

/-- The state with a row of register space set. -/
def State.setRow (s : State) (core r : Nat) (v : List Word) : State :=
  s.setCore { s.core with rows := tset s.core.rows (core * 6144 + r) v }

/-- Owner tag and poison of a row. -/
def State.rowTag (s : State) (core r : Nat) : RowTag := (tget s.core.rowTags (core * 6144 + r)).getD ⟨none, false⟩

/-- The team row of register v(n) of a group (06 R87), or nothing where the number is out of range. -/
def teamRow (s : State) (g : Group) (n : Nat) : Option Nat :=
  match s.teamOf g with
  | none => none
  | some t =>
    match s.launchOf t with
    | none => none
    | some r =>
      let sl := sliceRows r.vregs
      if 0 < g.wcount ∧ g.wbase ≤ n ∧ n < g.wbase + g.wcount then some (g.wrow + (n - g.wbase))
      else if n < r.vregs then some (g.gid * sl + n)
      else if 188 ≤ n then some (g.gid * sl + sl - 4 + (n - 188))
      else none

/-- The row of register space of a team row. -/
def physRow (s : State) (g : Group) (row : Nat) : Nat := ((s.teamOf g).map (·.rowBase)).getD 0 + row

/-- The values of a team row, lane by lane. -/
def State.teamRowVals (s : State) (g : Group) (row : Nat) : List Word := s.row (s.coreOf g) (physRow s g row)

/-- The values of v(n), lane by lane. -/
def State.vreg (s : State) (g : Group) (n : Nat) : List Word :=
  match teamRow s g n with
  | some r => s.teamRowVals g r
  | none => List.replicate 32 0#32

/-- The state with the lanes of a mask of a team row written. -/
def State.setTeamRow (s : State) (g : Group) (row : Nat) (m : Mask) (v : Nat → Word) : State :=
  let old := s.teamRowVals g row
  s.setRow (s.coreOf g) (physRow s g row) (lanes32.map fun l => if inMask m l then v l else old.getD l 0#32)

/-- s(n) of a group. -/
def State.sreg (s : State) (k n : Nat) : Word := (tget s.core.sregs (k * 64 + n)).getD 0#32

/-- The state with s(n) of a group written. -/
def State.setSreg (s : State) (k n : Nat) (v : Word) : State :=
  s.setCore { s.core with sregs := tset s.core.sregs (k * 64 + n) v }

/-! ## Fatal conditions -/

/-- The state with the status that a function's command register shows (01 R383). -/
def setStatus (s : State) (fn v : Nat) : State := s.setSys { s.sys with status := tset s.sys.status fn v }

/-- The state with the status that a FROST of a function returns; it stands beside the status of the function's last command, which may
be another by then (05 R75, R83). -/
def setFrost (s : State) (fn v : Nat) : State :=
  (setStatus s fn v).setSys { (setStatus s fn v).sys with frost := tset s.sys.frost fn v }

/-- The WAITING queues of a domain that is no longer LIVE are HELD (02 R29). -/
def holdQueues (s : State) (did : Nat) : State :=
  s.setAdm { s.adm with queues := s.adm.queues.map fun e =>
    if e.1 / 16 = did ∧ e.2.st = .waiting then (e.1, { e.2 with st := .held }) else e }

/-! ## Paths (04 R59, R60) -/

/-- A ready path with nothing pending. -/
def Path.new (pc depth : Nat) (mask : Mask) : Path :=
  { pc := pc, depth := depth, mask := mask, timer := 0, due := false, waits := [], fence := [], rdv := none }

/-- A path is ready when no wait blocks it and its lanes do not stand at REGROUP. -/
def Path.isReady (p : Path) : Bool := p.waits.isEmpty && p.rdv.isNone

/-- A path added to a list of paths, merging with a ready path of equal PC and call depth; the merged path keeps the release
obligations of both (08 R131) and the higher timer (04 R60's bound, log 13). -/
def addPath (ps : List Path) (q : Path) : List Path :=
  match ps with
  | [] => [q]
  | p :: r =>
    if p.isReady && q.isReady && p.pc == q.pc && p.depth == q.depth then
      { p with mask := p.mask ||| q.mask, timer := max p.timer q.timer, due := p.due || q.due, fence := p.fence ++ q.fence } :: r
    else p :: addPath r q

/-- Re-ganging: every ready path merges with those of equal PC and call depth (04 R59). -/
def reGang (ps : List Path) : List Path := ps.foldl addPath []

/-- The group's state once it stands at a boundary with these paths (04 R67). -/
def restState (ps : List Path) : GState :=
  if ps.isEmpty then .exited
  else if ps.all (·.rdv.isSome) then .rendezvous
  else if ps.any Path.isReady then .ready
  else .blocked

/-! ## Taking a trap (13 R201) and returning from one (13 R203) -/

/-- Word i of the trap record of 13 R201. -/
def recordWord (t : Trap) (i : Nat) : Word :=
  let n := t.pc % 2 ^ 57 + t.depth % 64 * 2 ^ 57 + t.mask.toNat * 2 ^ 64 + t.cause * 2 ^ 96 + t.sub * 2 ^ 104 +
    t.info % 2 ^ 64 * 2 ^ 128
  BitVec.ofNat 32 (n / 2 ^ (32 * i))

/-- The state with the trap record in k3 of lanes 0 to 5, whatever their masks. -/
def writeRecord (s : State) (g : Group) (t : Trap) : State :=
  match teamRow s g 191 with
  | some r => s.setTeamRow g r 0x3F#32 (recordWord t)
  | none => s

/-- The group enters its handler: the source path's lanes form the handler path at the trap vector, the other paths are
held, the trap record and %trapcause and %trapinfo are written, and the group is in TRAP (13 R201). The source path is no
longer among the paths given. -/
def takeTrap (s : State) (k : Nat) (t : Trap) (others : List Path) (waits : List (Nat × Wait)) (fence : List Nat)
    (frame : Nat) : State :=
  match s.group k with
  | none => s
  | some g =>
    let s1 := writeRecord s g t
    let h : Path := Path.new (s.dom (s.didOf g)).vector t.depth t.mask
    s1.modGroup k fun g =>
      { g with st := .trap, paths := [h], trapcause := t.sub * 256 + t.cause, trapinfo := t.info % 2 ^ 64,
               handler := some { trap := t, held := others, waits := waits, fence := fence, finished := 0#32, budget := none,
                                 frame := frame } }

/-- The resume PC that the handler left in its trap record. -/
def resumePc (s : State) (g : Group) : Nat :=
  match teamRow s g 191 with
  | some r =>
    let v := s.teamRowVals g r
    ((v.getD 0 0#32).toNat + 2 ^ 32 * (v.getD 1 0#32).toNat) % 2 ^ 57
  | none => 0

/-- The budget of a handler has ended (05 R79). -/
def Handler.over (h : Handler) (clk : Nat) : Bool := match h.budget with | some b => decide (b ≤ clk) | none => false

/-- The group leaves TRAP: the lanes of the recorded mask that are live resume at the record's PC, where some handler path
finished by TRET, and merge with the held paths (13 R202, R203). -/
def leaveTrap (s : State) (k : Nat) : State :=
  match s.group k with
  | none => s
  | some g =>
    match g.handler with
    | none => s
    | some h =>
      let m := h.trap.mask &&& g.live
      let ps := if h.finished ≠ 0#32 ∧ m ≠ 0#32 then
        reGang (h.held ++ [{ Path.new (resumePc s g) h.trap.depth m with waits := h.waits, fence := h.fence }])
        else reGang h.held
      s.modGroup k fun g =>
        { g with handler := none, paths := ps, st := if g.owed.isEmpty then restState ps else .blocked }

/-! ## Issuing one word (04 R54 to R58) -/

/-- What a word sees: its unit, the run, its own address, and the lanes whose guard is true. -/
structure Ctx where
  k : Nat
  g : Group
  r : Run
  pc : Nat
  act : Mask

/-- A word trap (04 R57): the saved PC is the word's address. -/
def Ctx.trap (c : Ctx) (cause sub info : Nat) : Trap :=
  { cause := cause, sub := sub, info := info, pc := c.pc, depth := c.r.depth, mask := c.r.gang, word := true, owner := 0 }

/-- The state with the run of a unit changed. -/
def State.modRun (s : State) (k : Nat) (f : Run → Run) : State :=
  s.modGroup k fun g => { g with run := g.run.map f }

/-- The successors of the gang's lanes that neither exited nor took one from a terminator: the word after (04 R58). -/
def fallThrough (r : Run) : List Succ :=
  (lanesOf (r.gang &&& ~~~r.exits)).filterMap fun l =>
    if r.succ.any (·.lane == l) then none else some { lane := l, pc := r.pc, depth := r.depth }

/-- A grid has committed counts in counters (14 R216, FMTUSE). -/
def useCounters (s : State) (team : Nat) (cs : List Nat) : State :=
  match s.team team with
  | none => s
  | some t => s.modGrid t.grid fun g => { g with used := g.used ++ cs.filter fun c => !g.used.contains c }

/-- Adds the increments of a committed run to the core's local counters of its domain (14 R210, R212). -/
def commitCounts (s : State) (k : Nat) : State :=
  match s.group k with
  | none => s
  | some g =>
    match g.run with
    | none => s
    | some r =>
      let did := s.didOf g
      (useCounters s g.team (r.counts.map (·.1))).modCore (s.coreOf g) fun c =>
        let old := (tget c.incs did).getD (List.replicate 16 0)
        { c with incs := tset c.incs did (r.counts.foldl (fun l e => setAt l e.1 (l.getD e.1 0 + e.2)) old) }

/-- The run ends: its group leaves ISSUING for RESULTS, or stays in TRAP, and the run commits (04 R57, R67). -/
def closeRun (s : State) (k : Nat) : State :=
  (commitCounts s k).modGroup k fun g =>
    { g with st := if g.st = .issuing then .results else g.st,
             run := g.run.map fun r => { r with closed := true, succ := if r.trap.isSome then [] else r.succ ++ fallThrough r } }

/-- The domain enters STOPPED: every live group is parked, and STOP records the reason (01 R22, 13 R384). A run that this ends commits the
words that have issued (14 R210). -/
def stopDomain (s : State) (did reason cause core info : Nat) : State :=
  let mine := fun (g : Group) => s.didOf g == did && g.st != .exited && g.st != .empty
  let cut := (s.work.groups.filter fun e => mine e.2 && e.2.run.any fun r => !r.closed).map (·.1)
  let s1 := holdQueues ((cut.foldl commitCounts s).modDom did fun d =>
    { d with st := .stopped, stop := reason, scause := cause, score := core, stinfo := info }) did
  s1.mapGroups fun _ g => if mine g then { g with st := .stopped, run := g.run.map fun r => { r with counts := [] } } else g

/-- A word has issued: the run moves past it, its count is kept, the timers of the other paths run, and a boundary word
closes the run (04 R54, R60). -/
def wordDone (s : State) (k : Nat) (last : Bool) (cls n : Nat) : State :=
  let s1 := s.modGroup k fun g =>
    { g with paths := g.paths.map fun p => { p with timer := p.timer + 1 },
             run := g.run.map fun r =>
               { r with pc := r.pc + 8, words := r.words.tail, issued := r.issued + 1,
                        counts := if n = 0 then r.counts else tset r.counts cls ((tget r.counts cls).getD 0 + n) } }
  if last then closeRun s1 k else s1

/-- The domain fault log of a partition takes a fault: the first after a clear whole, later ones as OVF (01 R19). -/
def logDomain (s : State) (did code owner core : Nat) : State :=
  s.modPart (s.dom did).part fun p =>
    let old := p.log.toNat
    { p with log := BitVec.ofNat 64 (if old / 2 ^ 63 = 1 then setBits old 62 62 1
        else 2 ^ 63 + code % 16 * 2 ^ 58 + did % 256 * 2 ^ 50 + owner % 256 * 2 ^ 42 + core % 256 * 2 ^ 34) }

/-- A word trap ends the run; the word has issued, for the timers of the other paths, and those after it do not (04 R57, R60). A DOMAIN
trap is logged (01 R19). -/
def wordTrap (s : State) (k : Nat) (t : Trap) : State :=
  let s1 := match s.group k with
    | some g => if t.cause = 0x0E then logDomain s (s.didOf g) t.info t.owner (s.coreOf g) else s
    | none => s
  closeRun (s1.modGroup k fun g =>
    { g with paths := g.paths.map fun p => { p with timer := p.timer + 1 }, run := g.run.map fun r => { r with trap := some t } }) k

/-- A cause that waits for the boundary; one that is already pending is recorded once (13 R200). -/
def addBoundaryTrap (s : State) (k : Nat) (t : Trap) : State :=
  s.modGroup k fun g => if g.btraps.any (·.cause == t.cause) then g else { g with btraps := g.btraps ++ [t] }

/-- The counter class and count of a word (14 R209): a sequencer word counts one SOP; a group word counts one SOP where it
names no vector register and writes no predicate, else one lane-operation per active lane of its class. -/
def countOf (c : Ctx) (lanewise : Bool) (cls : Nat) : Nat × Nat :=
  if c.act = 0#32 then (14, 0)
  else if c.g.isSeq || !lanewise then (14, 1)
  else (cls, maskCount c.act)

/-- One word issues: it acts in the state of the run's unit under its guard, and either moves on or traps. A word is never
executed unless a unit has a run in progress. The counter class and the count are those the function gives. -/
def issueCounted (h : Head) (count : Ctx → Nat × Nat) (f : Ctx → State → Except Trap State) (s : State) : Out :=
  match s.ctl.cur with
  | none => .fault .notIssuing
  | some k =>
    match s.group k with
    | none => .fault .notIssuing
    | some g =>
      match g.run with
      | none => .fault .notIssuing
      | some r =>
        if r.closed then .fault .notIssuing
        else
          let c : Ctx := { k := k, g := g, r := r, pc := r.pc, act := r.gang &&& guardMask g h }
          match f c s with
          | .error t => .next (wordTrap s k t)
          | .ok s1 => .next (wordDone s1 k h.last (count c).1 (count c).2)

/-- A word that counts as `countOf` says, by its class and by whether it works on lanes. -/
def issueWord (h : Head) (lanewise : Bool) (cls : Nat) (f : Ctx → State → Except Trap State) (s : State) : Out :=
  issueCounted h (fun c => countOf c lanewise cls) f s

/-- What the next word sees, where a unit has a run in progress. -/
def wordCtx (h : Head) (s : State) : Option Ctx :=
  match s.ctl.cur with
  | none => none
  | some k =>
    match s.group k with
    | none => none
    | some g => match g.run with
      | none => none
      | some r => if r.closed then none else some { k := k, g := g, r := r, pc := r.pc, act := r.gang &&& guardMask g h }

/-! ## Cause codes (13 R199) -/

/-- ILLEGAL_OPCODE. -/
def cILLEGAL : Nat := 0x01
/-- FETCH. -/
def cFETCH : Nat := 0x02
/-- CALL_DEPTH. -/
def cCALLDEPTH : Nat := 0x03
/-- MASK. -/
def cMASK : Nat := 0x04
/-- SYNC_MASK. -/
def cSYNCMASK : Nat := 0x05
/-- ROLE. -/
def cROLE : Nat := 0x06
/-- PRIV. -/
def cPRIV : Nat := 0x07
/-- REG_RANGE. -/
def cREGRANGE : Nat := 0x08
/-- ALIGN. -/
def cALIGN : Nat := 0x09
/-- BOUNDS. -/
def cBOUNDS : Nat := 0x0A
/-- ATOMIC_CONFLICT. -/
def cCONFLICT : Nat := 0x0B
/-- RSECT. -/
def cRSECT : Nat := 0x0C
/-- PHASER. -/
def cPHASER : Nat := 0x0D
/-- DOMAIN. -/
def cDOMAIN : Nat := 0x0E
/-- PAGE. -/
def cPAGE : Nat := 0x0F
/-- ECC. -/
def cECC : Nat := 0x10
/-- MSG_OVERFLOW. -/
def cMSGOVF : Nat := 0x11
/-- LINK. -/
def cLINK : Nat := 0x12
/-- TRAP. -/
def cTRAP : Nat := 0x13
/-- BKPT. -/
def cBKPT : Nat := 0x14
/-- PREEMPT. -/
def cPREEMPT : Nat := 0x15

end Sys2Proof.Machine
end

