-- ==== Sys2Proof/Machine/Operands.lean ====
section
/-! DEFINITION. The operand forms: reading registers through patterns, the checks a register operand meets, writing
destinations at once or as variable-latency results, and the shared shapes of lane-wise words (16 R242 to R244, 17 R260,
R261). -/

namespace Sys2Proof.Machine

/-! ## Reading -/

/-- The lane that lane i reads through a pattern; nothing outside 0 to 31 (16 R244). -/
def sourceLane (p : Pat) (k i : Nat) : Option Nat :=
  match p with
  | .ident => some i
  | .rot => some ((i + k) % 32)
  | .bc => some k
  | .xor => some (i ^^^ k)
  | .mir => some (i ^^^ (2 ^ (k + 1) - 1))
  | .dn => if i + k < 32 then some (i + k) else none
  | .up => if k ≤ i then some (i - k) else none
  | .quad => some (4 * (i / 4) + k)

/-- The lanes of a vector read through a pattern; a lane outside reads zero. -/
def permute (p : Pat) (k : Nat) (v : List Word) : List Word :=
  match p with
  | .ident => v
  | _ => lanes32.map fun i => match sourceLane p k i with
    | some j => v.getD j 0#32
    | none => 0#32

/-- Register j of an operand, lane by lane: an s-register gives one value in every lane. -/
def opdWords (s : State) (c : Ctx) (o : Opd) (p : Pat) (k j : Nat) : List Word :=
  match o with
  | .v n => permute p k (s.vreg c.g (n + j))
  | .s n => List.replicate 32 (s.sreg c.k (n + j))
  | _ => List.replicate 32 0#32

/-- The values of an operand of one or two registers, lane by lane (17 R260). -/
def opdVals (s : State) (c : Ctx) (o : Opd) (p : Pat) (k cnt : Nat) : List Bits64 :=
  let lo := opdWords s c o p k 0
  if cnt = 2 then (lo.zip (opdWords s c o p k 1)).map fun e => join32 e.1 e.2
  else lo.map fun x => x.zeroExtend 64

/-- The value of cnt s-registers from n, the first lowest. -/
def sregVal (s : State) (k n : Nat) : Nat → Nat
  | 0 => 0
  | j + 1 => (s.sreg k n).toNat + 2 ^ 32 * sregVal s k (n + 1) j

/-- The value of an s-register operand of cnt registers; 0 for an absent one. -/
def sopd (s : State) (c : Ctx) (o : Opd) (cnt : Nat) : Nat :=
  match o with
  | .s n => sregVal s c.k n cnt
  | _ => 0

/-- The number of a predicate operand. -/
def opdPred (o : Opd) : Nat :=
  match o with
  | .p n => n
  | _ => 0

/-! ## Checks -/

/-- The v-registers an operand of cnt registers names. -/
def vregsOf (o : Opd) (cnt : Nat) : List Nat :=
  match o with
  | .v n => (List.range cnt).map (n + ·)
  | _ => []

/-- The checks of a word's register operands: ROLE for a v-register in the matrix sequencer (04 R64), REG_RANGE (06 R87),
and the owner of each row (01 R18 code 0, R19). -/
def checkRegs (s : State) (c : Ctx) (op : Nat) (ns : List Nat) : Except Trap Unit :=
  if c.g.isSeq && !ns.isEmpty then .error (c.trap cROLE 0 op)
  else match ns.find? fun n => (teamRow s c.g n).isNone with
    | some n => .error (c.trap cREGRANGE 0 n)
    | none =>
      match ns.find? fun n => match teamRow s c.g n with
          | some r => (s.rowTag (s.coreOf c.g) (physRow s c.g r)).owner != some (s.didOf c.g)
          | none => false with
      | some n =>
        let r := (teamRow s c.g n).getD 0
        .error { c.trap cDOMAIN 0 0 with owner := ((s.rowTag (s.coreOf c.g) (physRow s c.g r)).owner).getD 0 }
      | none => .ok ()

/-- The first team row among the v-registers read that is poisoned (13 R207). -/
def poisonedRow (s : State) (c : Ctx) (ns : List Nat) : Option Nat :=
  (ns.filterMap (teamRow s c.g)).find? fun r => (s.rowTag (s.coreOf c.g) (physRow s c.g r)).poison

/-- The group takes ECC at its boundary for a poisoned row (13 R207). -/
def pendEcc (s : State) (c : Ctx) (row : Nat) : State :=
  addBoundaryTrap s c.k { c.trap cECC 3 row with word := false }

/-! ## Writing -/

/-- Clears the poison of a row of which every lane is written (13 R207). -/
def clearPoison (s : State) (core r : Nat) (m : Mask) : State :=
  if m = 0xFFFFFFFF#32 ∧ (s.rowTag core r).poison then
    s.setCore { s.core with rowTags := tset s.core.rowTags (core * 6144 + r) ⟨(s.rowTag core r).owner, false⟩ }
  else s

/-- Writes values of one register each into team rows, lane by lane, from the low word. -/
def writeRows (s : State) (g : Group) (rows : List Nat) (m : Mask) (v : Nat → Nat) : State :=
  match rows with
  | [] => s
  | r :: rs =>
    let s1 := s.setTeamRow g r m fun l => BitVec.ofNat 32 (v l)
    writeRows (clearPoison s1 (s1.coreOf g) (physRow s1 g r) m) g rs m fun l => v l / 2 ^ 32

/-- Writes cnt s-registers from n with a value, from the low word. -/
def writeSregs (s : State) (k n : Nat) : Nat → Nat → State
  | 0, _ => s
  | cnt + 1, v => writeSregs (s.setSreg k n (BitVec.ofNat 32 v)) k (n + 1) cnt (v / 2 ^ 32)

/-- The destination an operand of cnt registers names, bound to team rows when the word issues (19 R354). -/
def destOf (s : State) (c : Ctx) (o : Opd) (cnt : Nat) : Dest :=
  match o with
  | .v n => .rows (((List.range cnt).map (n + ·)).filterMap (teamRow s c.g))
  | .s n => .sregs n cnt
  | _ => .none

/-- Writes a destination: the lanes of a mask of a vector register, or a scalar register once where the mask is not empty
(16 R242). The scalar value is that of the lowest lane. -/
def writeDest (s : State) (k : Nat) (d : Dest) (m : Mask) (v : Nat → Nat) : State :=
  match s.group k with
  | none => s
  | some g =>
    match d with
    | .none => s
    | .rows rs => writeRows s g rs m v
    | .sregs n cnt => if m = 0#32 then s else writeSregs s k n cnt (v (lowLane m))

/-- A variable-latency result whose values are known (04 R56). -/
def doneResult (d : Dest) (m : Mask) (v : Nat → Nat) (fl : Nat → LaneFlags) : Result :=
  { dest := d, lanes := m, vals := (lanesOf m).map fun l => (l, v l), flags := (lanesOf m).map fun l => (l, fl l),
    src := none, done := true, held := false }

/-- The value of a result by lane; an entry of lane 32 stands for every lane. -/
def resultValue (vals : List (Nat × Nat)) (l : Nat) : Nat :=
  match vals.find? (·.1 == l) with
  | some e => e.2
  | none => ((vals.find? (·.1 == 32)).map (·.2)).getD 0

/-- Adds a result to those the run's group awaits, in issue order. -/
def addResult (s : State) (k : Nat) (r : Result) : State := s.modGroup k fun g => { g with results := g.results ++ [r] }

/-! ## Lane-wise words -/

/-- The operand names a vector register, or is a predicate destination. -/
def lanewiseR (w : RWord) : Bool :=
  w.d.isV || w.a.isV || w.b.isV || w.c.isV || (match w.d with | .p _ => true | _ => false)

/-- The R-form view of an I-form word: the same guard, destination and source A, without patterns. -/
def asR (w : IWord) : RWord :=
  { h := w.h, d := w.d, a := w.a, b := .none, c := .none, pa := .ident, pb := .ident, pc := .ident, k := 0#5, m := w.m }

/-- Numbers of registers of the operands of a word. -/
structure Widths where
  d : Nat := 1
  a : Nat := 1
  b : Nat := 1
  c : Nat := 1

/-- The v-registers a word reads. -/
def readsR (w : RWord) (n : Widths) : List Nat := vregsOf w.a n.a ++ vregsOf w.b n.b ++ vregsOf w.c n.c

/-- The checks common to an R-form word: the matrix sequencer may not issue it (04 R64), or an operand fails. -/
def checkR (s : State) (c : Ctx) (w : RWord) (op : Nat) (seqOk : Bool) (n : Widths) : Except Trap Unit :=
  if c.g.isSeq && !seqOk then .error (c.trap cROLE 0 op) else checkRegs s c op (vregsOf w.d n.d ++ readsR w n)

/-- The body of a word that computes each active lane from its operands: an s-register destination takes one result, whose
flags go to every active lane (17 R261). A poisoned source row leaves the destination unwritten (13 R207). -/
def laneBody (w : RWord) (op : Nat) (seqOk varLat : Bool) (n : Widths) (f : Ctx → Nat → Bits64 → Bits64 → Bits64 → LaneRes)
    (c : Ctx) (s : State) : Except Trap State :=
  match checkR s c w op seqOk n with
  | .error t => .error t
  | .ok () =>
    match poisonedRow s c (readsR w n) with
    | some r => .ok (pendEcc s c r)
    | none =>
      let a := opdVals s c w.a w.pa w.k.toNat n.a
      let b := opdVals s c w.b w.pb w.k.toNat n.b
      let cc := opdVals s c w.c w.pc w.k.toNat n.c
      let one : Nat → Nat := fun l => if w.d.isS then lowLane c.act else l
      let res := lanes32.map fun l =>
        if inMask c.act l then f c (one l) (a.getD (one l) 0#64) (b.getD (one l) 0#64) (cc.getD (one l) 0#64)
        else (0#64, 0#8)
      let v : Nat → Nat := fun l => (res.getD l (0#64, 0#8)).1.toNat
      let fl : Nat → LaneFlags := fun l => (res.getD l (0#64, 0#8)).2
      let d := destOf s c w.d n.d
      if varLat then .ok (if c.act = 0#32 then s else addResult s c.k (doneResult d c.act v fl))
      else .ok ((writeDest s c.k d c.act v).modGroup c.k fun g => g.orFlags fl c.act)

/-- A lane-wise word of the R-form. -/
def laneWord (w : RWord) (op cls : Nat) (seqOk varLat : Bool) (n : Widths)
    (f : Ctx → Nat → Bits64 → Bits64 → Bits64 → LaneRes) (s : State) : Out :=
  issueWord w.h (lanewiseR w) cls (laneBody w op seqOk varLat n f) s

/-- An integer word on 32-bit operands (17 R263: the sequencer may issue it). -/
def intWord (w : RWord) (op : Nat) (f : Word → Word → Word → LaneRes) (s : State) : Out :=
  laneWord w op 12 true false {} (fun _ _ a b c => f (lo32 a) (lo32 b) (lo32 c)) s

/-- A float word on 32-bit operands; class VOP_F32 unless given. -/
def floatWord (w : RWord) (op cls : Nat) (varLat : Bool) (f : Word → Word → Word → LaneRes) (s : State) : Out :=
  laneWord w op cls false varLat {} (fun _ _ a b c => f (lo32 a) (lo32 b) (lo32 c)) s

/-- The format slot word a modifier names: the grid's own copy (17 R287). -/
def slotWord (s : State) (g : Group) (i : Nat) : Bits64 :=
  match s.teamOf g with
  | none => 0#64
  | some t => match s.launchOf t with
    | none => 0#64
    | some r => r.fmts.getD i 0#64

/-- The body of a word that writes a predicate: p(D) := t and p(C) in every active lane, with the flags (17 R279). -/
def predBody (w : RWord) (op : Nat) (n : Widths) (f : Ctx → Nat → Bits64 → Bits64 → Bool × LaneFlags) (c : Ctx)
    (s : State) : Except Trap State :=
  match checkR s c w op true n with
  | .error t => .error t
  | .ok () =>
    match poisonedRow s c (readsR w n) with
    | some r => .ok (pendEcc s c r)
    | none =>
      let a := opdVals s c w.a w.pa w.k.toNat n.a
      let b := opdVals s c w.b w.pb w.k.toNat n.b
      let res := lanes32.map fun l => f c l (a.getD l 0#64) (b.getD l 0#64)
      let t := maskOf fun l => (res.getD l (false, 0#8)).1 && c.g.pred (opdPred w.c) l
      .ok (s.modGroup c.k fun g =>
        (g.setPred (opdPred w.d) c.act t).orFlags (fun l => (res.getD l (false, 0#8)).2) c.act)

/-- A word that writes a predicate. -/
def predWord (w : RWord) (op : Nat) (n : Widths) (f : Ctx → Nat → Bits64 → Bits64 → Bool × LaneFlags) (s : State) : Out :=
  issueWord w.h true 12 (predBody w op n f) s

end Sys2Proof.Machine
end

