-- ==== Sys2Proof/Machine/Clocks.lean ====
section
/-! DEFINITION. Timestamps and their epochs (07 R105, R106, R115, R116), and what the groups hold of them. -/

namespace Sys2Proof.Machine

/-- The epoch that the device is in, or is moving to: the rebase count modulo 2, one further while phase 2 of a rebase runs
(07 R105, R115). -/
def newEpoch (s : State) : Bool :=
  (s.sys.rbc % 2 == 1) != (match s.sys.rebase with | some r => r.phase == 2 | none => false)

/-- The rebase count that goes with an epoch now: RBC, or one more for the epoch that phase 2 of a rebase is moving to (07 R115). -/
def rbcOf (s : State) (ep : Bool) : Nat :=
  if (s.sys.rbc % 2 == 1) == ep then s.sys.rbc else if newEpoch s = ep then (s.sys.rbc + 1) % 2 ^ 16 else (s.sys.rbc + 2 ^ 16 - 1) % 2 ^ 16

/-- A timestamp value as a unit of an epoch uses it: one of the other epoch is rebased first (07 R116). -/
def Ts.at (t : Ts) (ep : Bool) : Nat := if t.ep = ep then t.v else t.v - 2 ^ 38

/-- A timestamp value as a unit of an epoch uses it now. A unit that has not yet rebased may meet a value of the epoch that the rebase
moves to; it takes it back to its own (log 62). -/
def State.tsAt (s : State) (t : Ts) (ep : Bool) : Nat :=
  if t.ep = ep then t.v else if ep = newEpoch s then t.v - 2 ^ 38 else t.v + 2 ^ 38

/-- The value of a timestamp in an epoch where it names one write there: nothing where a rebase has clamped it (07 R115). -/
def State.tsExact (s : State) (t : Ts) (ep : Bool) : Option Nat :=
  if t.ep ≠ ep ∧ ep = newEpoch s ∧ t.v < 2 ^ 38 then none else some (s.tsAt t ep)

/-- A timestamp rebased once (07 R115). -/
def Ts.rebased (t : Ts) : Ts := ⟨t.v - 2 ^ 38, !t.ep⟩

/-- The later of two timestamps, in an epoch. -/
def Ts.maxAt (a b : Ts) (ep : Bool) : Ts := ⟨max (a.at ep) (b.at ep), ep⟩

/-- The lease length of a class (07 R111). -/
def leaseLen (c : Nat) : Nat := 4 * 4 ^ c

/-- A timestamp at or above 2^39 is reported to directory 0 (07 R115). -/
def reportTs (s : State) (v : Nat) : State :=
  if 2 ^ 39 ≤ v then s.setSys { s.sys with tsReport := true } else s

/-- A unit holds an operation that would set a timestamp above 2^40 - 1 (07 R106). -/
def tsHolds (v : Nat) : Bool := decide (2 ^ 40 ≤ v)

/-- The group with its timestamp raised: a group of the old epoch that meets a value of the new one is rebased first
(07 R116). -/
def Group.raise (g : Group) (t : Ts) (new : Bool) : Group :=
  let old := if g.gts.ep ≠ t.ep ∧ t.ep = new then g.gts.rebased else g.gts
  { g with gts := ⟨max old.v (t.at old.ep), old.ep⟩ }

/-- The state with the timestamp of a group raised (07 R106); a value at or above 2^39 is reported. -/
def raiseGroup (s : State) (k : Nat) (t : Ts) : State :=
  let new := newEpoch s
  reportTs (s.modGroup k fun g => g.raise t new) t.v

/-- A timestamp that the release of a grid's DONEPH arrival must cover (02 R34). -/
def noteRelease (s : State) (team : Nat) (t : Ts) : State :=
  match s.team team with
  | none => s
  | some m => s.modGrid m.grid fun g => { g with rel := g.rel.maxAt t (newEpoch s) }

/-- The entry of a group's drift: the multiples of 256 cycles crossed since its reference (07 R106). -/
def driftOf (clk ref : Nat) : Nat := clk / 256 - ref / 256

/-- The group's timestamp raised by its drift, and the reference set to the current cycle; taken at each run boundary
(07 R106); a value at or above 2^39 is reported. -/
def driftGroup (s : State) (k : Nat) : State :=
  match s.group k with
  | none => s
  | some g =>
    let v := g.gts.v + driftOf s.sys.clk g.drift
    reportTs (s.modGroup k fun g => { g with gts := ⟨v, g.gts.ep⟩, drift := s.sys.clk }) v

/-- The drift of a group would pass the last timestamp, so that its boundary waits for the rebase (07 R106). -/
def driftHolds (s : State) (g : Group) : Bool := tsHolds (g.gts.v + driftOf s.sys.clk g.drift)

/-! ## Barometers (14 R218) -/

/-- A sample of a barometer: 0 INJ, 1 SLQ, 2 HBQ (14 R218). -/
def sampleBaro (s : State) (part b lat : Nat) : State :=
  s.modPart part fun p =>
    let h := p.hist.getD b []
    let k := min 31 (Nat.log2 (max lat 1))
    { p with hist := setAt p.hist b (setAt h k (min (h.getD k 0 + 1) (2 ^ 32 - 1))) }

/-- Samples of a latency that the model does not time, each of them free (DESIGN CHOICE, log 73). -/
def sampleFree (s : State) (part b : Nat) : Nat → State
  | 0 => s
  | n + 1 =>
    let f := s.ctl.free
    sampleFree (sampleBaro (s.setCtl { s.ctl with free := f + 1 }) part b (Config.latency f)) part b n

end Sys2Proof.Machine
end

