-- ==== Sys2Proof/Machine/Phys.lean ====
section
/-! DEFINITION. The memory units: regions of the physical space (09 R143), sectors of device memory and their keys (01 R20,
R382), lines of the L2 slices and of the bridge (07 R107 to R111, R117 to R119), timestamp directories (07 R112), stack
engines (07 R113). -/

namespace Sys2Proof.Machine

/-! ## Regions and homes -/

/-- Device memory (09 R143). -/
def isDevice (pa : Nat) : Bool := decide (pa < 2 ^ 39)
/-- Host memory over CXL.cache (09 R143). -/
def isHost (pa : Nat) : Bool := decide (2 ^ 51 ≤ pa ∧ pa < 2 ^ 52)
/-- The quarter of a device address (09 R143). -/
def quarterOf (pa : Nat) : Nat := bits pa 38 37
/-- The stack of a device address (09 R143). -/
def stackOf (pa : Nat) : Nat := 2 * quarterOf pa + bits pa 36 36
/-- The enabled slices of a die, ascending (10 R160). -/
def enabledSlices (s : State) (d : Nat) : List Nat := (upTo 32).filter fun i => !s.sys.harvest.contains (d, i)
/-- The slice table of a quarter: entry h (10 R160). -/
def sliceEntry (s : State) (q h : Nat) : Nat :=
  let e := enabledSlices s q
  e.getD (h % e.length) 0
/-- The hash of a physical address (10 R160). -/
def sliceHash (pa : Nat) : Nat := bits pa 15 8 ^^^ bits pa 23 16 ^^^ bits pa 31 24 ^^^ bits pa 38 32
/-- The home slice of a device address, as die * 32 + slice (10 R160, 06 R97). -/
def homeSlice (s : State) (pa : Nat) : Nat := quarterOf pa * 32 + sliceEntry s (quarterOf pa) (sliceHash pa)
/-- The bridge as an ordering point. -/
def pBridge : Nat := 136
/-- The ordering point of an access (08 R121): a slice 0 to 127, 128 plus a stack, or the bridge. -/
def pointOf (s : State) (pa : Nat) (ms : Bool) : Nat :=
  if isHost pa then pBridge else if ms then 128 + stackOf pa else homeSlice s pa
/-- The die of an ordering point. -/
def dieOfPoint (p : Nat) : Nat := if p < 128 then p / 32 else if p < 136 then (p - 128) / 2 else if p = 136 then 0 else (p - 137) / 2
/-- The address lies in the table region (09 R143). -/
def inTables (s : State) (pa : Nat) : Bool := decide (s.sys.tbase ≤ pa ∧ pa < s.sys.tbase + s.sys.tsize)

/-! ## Sectors -/

/-- The key index of a sector that nothing has written. -/
def noKey : Nat := 256
/-- The index under which sectors of the table region are held (09 R143). -/
def tableKey : Nat := 257

/-- Key index, key generation and poison of sector n, the 128 B from 128 n. -/
def State.sector (s : State) (n : Nat) : Sector := (tget s.mem.sectors n).getD ⟨noKey, 0, false⟩
/-- The generation of the key held at an index; every device reset draws a new table key (09 R143). -/
def keyGenOf (s : State) (k : Nat) : Option Nat := if k = tableKey then some s.sys.resets else tget s.sys.keys k

/-- The 128 bytes of a sector as a reader under its own key index finds them: as written where the key it was written under
is still held, else bytes that carry no meaning (01 R382). -/
def sectorPlain (s : State) (n : Nat) : Bytes :=
  let c := s.sector n
  let raw := memBytes s.mem.dram (n * 128) 128
  if keyGenOf s c.key = some c.gen then raw
  else
    let x := Config.garble c.key c.gen (match keyGenOf s c.key with | some g => g + 1 | none => 0) n raw
    (upTo 128).map fun i => x.getD i 0#8

/-- The state with a sector written whole under a key index. -/
def writeSector (s : State) (n key : Nat) (bs : Bytes) (poison : Bool) : State :=
  s.setMem { s.mem with dram := memPut s.mem.dram (n * 128) (bs.take 128),
                        sectors := tset s.mem.sectors n ⟨key, (keyGenOf s key).getD 0, poison⟩ }

/-- Bytes placed over a run of bytes at an offset. -/
def overlay (base : Bytes) (off : Nat) (bs : Bytes) : Bytes :=
  base.take off ++ bs ++ base.drop (off + bs.length)

/-! ## Slices, directories, lines -/

/-- A slice's registers. -/
def State.slice (s : State) (n : Nat) : Slice := (tget s.mem.slices n).getD ⟨0, false⟩
/-- A quarter's directory. -/
def State.dir (s : State) (q : Nat) : Dir := (tget s.mem.dirs q).getD ⟨[], 0, 0, false⟩
/-- The state with a directory set. -/
def State.setDir (s : State) (q : Nat) (d : Dir) : State := s.setMem { s.mem with dirs := tset s.mem.dirs q d }
/-- A stack engine's clock (07 R113). -/
def State.engineClock (s : State) (st : Nat) : Ts := (tget s.mem.clocks st).getD ⟨0, false⟩
/-- The epoch of an ordering point. -/
def pointEpoch (s : State) (p : Nat) : Bool :=
  if p < 128 then (s.slice p).ep else if p < 136 then (s.engineClock (p - 128)).ep else s.mem.bridge.ep

/-- The place of a bridge line among the lines' numbers. -/
def bridgeBase : Nat := 2 ^ 40

/-- A line of a slice, by slice, set and way, or of the bridge, by its host address. -/
def State.line (s : State) (lk : Nat) : Option Line :=
  if lk < bridgeBase then tget s.mem.lines lk else tget s.mem.bridge.lines (lk - bridgeBase)
/-- The state with a line set. -/
def State.setLine (s : State) (lk : Nat) (l : Line) : State :=
  if lk < bridgeBase then s.setMem { s.mem with lines := tset s.mem.lines lk l }
  else s.setMem { s.mem with bridge := { s.mem.bridge with lines := tset s.mem.bridge.lines (lk - bridgeBase) l } }
/-- The state with a line invalid. -/
def State.noLine (s : State) (lk : Nat) : State :=
  if lk < bridgeBase then s.setMem { s.mem with lines := tdel s.mem.lines lk }
  else s.setMem { s.mem with bridge := { s.mem.bridge with lines := tdel s.mem.bridge.lines (lk - bridgeBase) } }

/-- The 16 ways of the set of a line address in its slice: set PA[24:16] (07 R107). -/
def waysOf (sl pa : Nat) : List Nat := (upTo 16).map fun w => sl * 8192 + bits pa 24 16 * 16 + w

/-- The valid line of an address at an ordering point: a slice, or the bridge. -/
def findLine (s : State) (p pa : Nat) : Option Nat :=
  if p < 128 then (waysOf p pa).find? fun lk => match s.line lk with | some l => l.v && l.pa == pa / 256 | none => false
  else
    let lk := bridgeBase + (pa - 2 ^ 51) / 256
    if (s.line lk).isSome then some lk else none

/-- The mts of a 64 KiB region (07 R112). -/
def mtsOf (d : Dir) (region : Nat) : Nat := (tget d.regions region).getD d.qfloor

/-- The directory with the mts of a region raised: a new entry displaces the least recently set one (07 R112). -/
def dirRaise (d : Dir) (region mts : Nat) : Dir :=
  let m := max (mtsOf d region) mts
  let rest := d.regions.filter fun e => e.1 != region
  let d1 := { d with qclk := max d.qclk m }
  if rest.length < 65536 then { d1 with regions := rest ++ [(region, m)] }
  else match rest with
    | [] => { d1 with regions := [(region, m)] }
    | o :: r => { d1 with regions := r ++ [(region, m)], qfloor := max d.qfloor o.2 }

/-- The state with the dirty sectors of a line written back under its key index (06 R97). -/
def writeBack (s : State) (lk : Nat) : State :=
  match s.line lk with
  | none => s
  | some l =>
    let one (s : State) (i : Nat) : State :=
      if l.dirty.testBit i then
        writeSector s (l.pa * 2 + i) l.key (l.data.drop (128 * i)) (l.poison.testBit i)
      else s
    (one (one s 0) 1).setLine lk { l with dirty := 0 }

/-- The mts that the drop of a line sets for its region, in the epoch of the directory (07 R112). -/
def dropTs (s : State) (l : Line) : Nat := s.tsAt ⟨l.rts, l.ep⟩ (s.dir (quarterOf (l.pa * 256))).ep + 1

/-- The state with a line written back and dropped, its region's mts raised past its rts (06 R101, 07 R112). -/
def dropLine (s : State) (lk : Nat) : State :=
  let s1 := writeBack s lk
  match s1.line lk with
  | none => s1
  | some l =>
    let q := quarterOf (l.pa * 256)
    let d := s1.dir q
    reportTs ((s1.setDir q (dirRaise d (l.pa / 256) (dropTs s1 l))).noLine lk) (dropTs s1 l)

/-- BISnp is sent for the four host lines of a 256 B line, for a device write or an eviction (07 R118). -/
def sendBisnp (s : State) (line : Nat) (write : Bool) : State :=
  let b := s.mem.bridge
  let more := ((upTo 4).map fun i => (line * 4 + i, write)).filter fun e => !b.bisnp.any (·.1 == e.1)
  s.setMem { s.mem with bridge := { b with bisnp := b.bisnp ++ more } }

/-- A BIRsp for some host line of a 256 B line is awaited. -/
def awaitsBirsp (s : State) (line : Nat) : Bool := s.mem.bridge.bisnp.any fun e => e.1 / 4 == line

/-- What an access finds when it needs its line. -/
inductive Got where
  /-- The line stands here. -/
  | line (lk : Nat) (s : State)
  /-- It must wait: for BIRsp of a line in its way, or for the bridge to fetch. -/
  | wait (s : State)

/-- Tile fetch of some job has pinned a line (06 R98). -/
def State.pinned (s : State) (lk : Nat) : Bool := s.fly.cmds.any fun e => e.2.pins.contains lk

/-- The way a refill takes: an invalid one, else the least recently used one of those whose lines are not pinned (07 R107, 06 R98). -/
def victim (s : State) (ways : List Nat) : Option Nat :=
  match ways.find? fun lk => (s.line lk).isNone with
  | some lk => some lk
  | none =>
    let use := fun lk => ((s.line lk).map (·.used)).getD 0
    (ways.filter fun lk => !s.pinned lk).foldl
      (fun b lk => match b with | none => some lk | some c => if use lk < use c then some lk else some c) none

/-- The state with a line marked as the one used last. -/
def touchLine (s : State) (lk : Nat) : State :=
  let (n, s1) := s.fresh
  match s1.line lk with
  | none => s1
  | some l => s1.setLine lk { l with used := n }

/-- A line of device memory refilled from DRAM: its timestamps are the mts of its region and its class 2 (07 R107). -/
def refill (s : State) (sl pa lk : Nat) : State :=
  let n := pa / 256 * 2
  let q := quarterOf pa
  let d := s.dir q
  let ep := (s.slice sl).ep
  let t := s.tsAt ⟨mtsOf d (pa / 65536), d.ep⟩ ep
  s.setLine lk
    { v := true, pa := pa / 256, wts := t, rts := t, cls := 2, key := (s.sector (pa / 128)).key, h := false, ep := ep,
      snooped := false, dirty := 0, data := sectorPlain s n ++ sectorPlain s (n + 1), used := 0, mesi := [],
      poison := (if (s.sector n).poison then 1 else 0) + (if (s.sector (n + 1)).poison then 2 else 0) }

/-- The line of an address at its home slice, refilled where it is absent; an eviction of a line the host may hold waits for its BIRsp (07
R107, R118), and one whose mts would pass the last timestamp for the rebase (07 R106). At the bridge an absent line waits for its fetch.
-/
def getLine (s : State) (p pa : Nat) : Got :=
  match findLine s p pa with
  | some lk => .line lk (touchLine s lk)
  | none =>
    if 128 ≤ p then .wait s
    else match victim s (waysOf p pa) with
      | none => .wait s
      | some lk =>
        match s.line lk with
        | some l =>
          if l.h then .wait (sendBisnp s l.pa false)
          else if tsHolds (dropTs s l) then .wait s
          else .line lk (touchLine (refill (dropLine s lk) p pa lk) lk)
        | none => .line lk (touchLine (refill s p pa lk) lk)

/-- The key index of a sector as its line holds it: a dirty sector that of the line, a clean one that of its DRAM sector. -/
def sectorKey (s : State) (l : Line) (i : Nat) : Nat := if l.dirty.testBit i then l.key else (s.sector (l.pa * 2 + i)).key

/-- The owner a device access meets at a line: the first of the sectors touched whose key index is not the one given
(01 R18 code 4). -/
def keyMismatch (s : State) (lk : Nat) (sectors : List Nat) (key : Nat) : Option Nat :=
  if bridgeBase ≤ lk then none
  else match s.line lk with
    | none => none
    | some l => (sectors.map (sectorKey s l)).find? (· != key)

/-- The line with the key index of a write through a leaf: the other sector, where dirty under another index, is written back
first (01 R382). -/
def adoptKey (s : State) (lk key : Nat) : State :=
  match s.line lk with
  | none => s
  | some l =>
    if bridgeBase ≤ lk ∨ l.key = key then s
    else
      let s1 := writeBack s lk
      match s1.line lk with
      | some l => s1.setLine lk { l with key := key }
      | none => s1

/-- The subcode of a read of these sectors of a line, one of them poisoned: 2 where a dirty one is, else 1 (13 R207). -/
def eccSub (s : State) (lk : Nat) (sectors : List Nat) : Nat :=
  match s.line lk with
  | some l => if sectors.any fun i => l.poison.testBit i && l.dirty.testBit i then 2 else 1
  | none => 1

/-- A sector touched is poisoned (13 R207). -/
def linePoisoned (s : State) (lk : Nat) (sectors : List Nat) : Bool :=
  match s.line lk with
  | none => false
  | some l => sectors.any fun i => l.poison.testBit i

/-- A load at the home slice (07 R108): the class rises on a renewal that finds the line unchanged, the lease is extended,
and the reply carries data unless the renewal found the line unchanged. -/
def leaseLoad (s : State) (lk gts : Nat) (renew : Option Ts) : Bool × State :=
  match s.line lk with
  | none => (true, s)
  | some l =>
    let same := renew.bind (s.tsExact · l.ep) == some l.wts
    let c := if same then min (l.cls + 1) 7 else l.cls
    let r := max l.rts (max (l.wts + leaseLen c) (gts + leaseLen c))
    (!same, reportTs (s.setLine lk { l with cls := c, rts := r }) r)

/-- The next sequence number of an ordering point (07 R107, R117). -/
def nextSeq (s : State) (p : Nat) : State :=
  if p < 128 then
    s.setMem { s.mem with slices := tset s.mem.slices p { s.slice p with seq := ((s.slice p).seq + 1) % 2 ^ 32 } }
  else s.setMem { s.mem with bridge := { s.mem.bridge with seq := (s.mem.bridge.seq + 1) % 2 ^ 32 } }

/-- The write timestamp a write takes (07 R109, R118). -/
def writeTs (s : State) (l : Line) (gts : Nat) : Nat :=
  let t := max gts (l.rts + 1)
  if l.snooped then max t (s.tsAt ⟨s.mem.bridge.hts, s.mem.bridge.ep⟩ l.ep + 1) else t

/-- The sectors of a line in which its bytes differ from others. -/
def changedSectors (old new : Bytes) : Nat :=
  (if old.take 128 = new.take 128 then 0 else 1) + (if old.drop 128 = new.drop 128 then 0 else 2)

/-- A write at an ordering point that holds lines: one write of the line, which takes a timestamp beyond every lease and a
sequence number (07 R109). The sectors marked are dirty from then on; a sector written whole loses its poison. -/
def leaseWrite (s : State) (p lk gts : Nat) (data : Bytes) (dirty whole : Nat) : Nat × State :=
  match s.line lk with
  | none => (gts, s)
  | some l =>
    let t := writeTs s l gts
    let c := if gts ≤ l.rts then l.cls - 1 else l.cls
    let l1 := { l with cls := c, wts := t, rts := t, data := data, dirty := l.dirty ||| dirty, snooped := false,
                       poison := l.poison &&& (3 ^^^ whole) }
    (t, nextSeq (reportTs (s.setLine lk l1) t) p)

/-! ## Coherent reads that leave no trace -/

/-- The 128 bytes of the sector of an address as its ordering point holds them, and whether they are poisoned. -/
def peekSector (s : State) (pa : Nat) : Bytes × Bool :=
  if isHost pa then
    match findLine s pBridge pa with
    | some lk => (((s.line lk).map fun l => (l.data.drop (bits pa 7 7 * 128)).take 128).getD [], false)
    | none => (memBytes s.mem.host ((pa - 2 ^ 51) / 128 * 128) 128, false)
  else match findLine s (homeSlice s pa) pa with
    | some lk => match s.line lk with
      | some l => ((l.data.drop (bits pa 7 7 * 128)).take 128, l.poison.testBit (bits pa 7 7))
      | none => ([], false)
    | none => (sectorPlain s (pa / 128), (s.sector (pa / 128)).poison)

/-- n bytes from an address. -/
def peek (s : State) (pa n : Nat) : Bytes :=
  let parts := (upTo ((pa % 128 + n + 127) / 128)).flatMap fun i => (peekSector s ((pa / 128 + i) * 128)).1
  (parts.drop (pa % 128)).take n

/-! ## The bridge (07 R117 to R119) -/

/-- The host clock raised. -/
def raiseHts (s : State) (t : Nat) : State :=
  reportTs (s.setMem { s.mem with bridge := { s.mem.bridge with hts := max s.mem.bridge.hts t } }) t

/-- A bridge line dropped for a snoop or an eviction: its M lines are written back and hts passes its rts (07 R119). -/
def dropBridge (s : State) (lk : Nat) : State :=
  match s.line lk with
  | none => s
  | some l =>
    let back (m : Mem) (i : Nat) : Mem :=
      if l.mesi.getD i 0 = 3 then memPut m (l.pa * 256 + 64 * i) ((l.data.drop (64 * i)).take 64) else m
    raiseHts ((s.setMem { s.mem with host := (upTo 4).foldl back s.mem.host }).noLine lk) (s.tsAt ⟨l.rts, l.ep⟩ s.mem.bridge.ep + 1)

/-- The drop of a bridge line waits for the rebase, because the host clock would pass the last timestamp (07 R106). -/
def bridgeHolds (s : State) (lk : Nat) : Bool :=
  match s.line lk with
  | some l => tsHolds (s.tsAt ⟨l.rts, l.ep⟩ s.mem.bridge.ep + 1)
  | none => false

/-- The bridge fetches the 256 B line of a host address, the 64 B lines named with RdOwn; a fetch sets wts and rts to hts and
the class to 2 (07 R119). Where the bridge holds 16,384 lines and not this one, the least recently used line makes room: the
specification gives the bridge no replacement policy (log 63). -/
def fetchBridge (s : State) (pa : Nat) (own : List Nat) : State :=
  let n := (pa - 2 ^ 51) / 256
  let s1 :=
    if s.mem.bridge.lines.length < 16384 ∨ (s.line (bridgeBase + n)).isSome then s
    else match s.mem.bridge.lines.foldl (fun (b : Option (Nat × Nat)) e => match b with
        | none => some (e.1, e.2.used)
        | some c => if e.2.used < c.2 then some (e.1, e.2.used) else some c) none with
      | some v => if bridgeHolds s (bridgeBase + v.1) then s else dropBridge s (bridgeBase + v.1)
      | none => s
  let b := s1.mem.bridge
  if 16384 ≤ b.lines.length ∧ (s1.line (bridgeBase + n)).isNone then s
  else
  let l : Line :=
    match s1.line (bridgeBase + n) with
    | some l => { l with mesi := (upTo 4).map fun i => if own.contains i then max 2 (l.mesi.getD i 0) else l.mesi.getD i 0 }
    | none =>
      { v := true, pa := n, wts := b.hts, rts := b.hts, cls := 2, key := noKey, h := false, ep := b.ep, snooped := false,
        dirty := 0, data := memBytes s1.mem.host (n * 256) 256, used := 0,
        mesi := (upTo 4).map fun i => if own.contains i then 2 else 1, poison := 0 }
  touchLine (s1.setLine (bridgeBase + n) l) (bridgeBase + n)

/-! ## Stack engines (07 R113) -/

/-- The engine clock after an access: max(clock, gts) for a load, max(clock + 1, gts) for a store or atomic. -/
def engineTick (s : State) (st gts : Nat) (write : Bool) : Nat × State :=
  let c := s.engineClock st
  let t := max (if write then c.v + 1 else c.v) gts
  (t, reportTs (s.setMem { s.mem with clocks := tset s.mem.clocks st ⟨t, c.ep⟩ }) t)

/-- Bytes written into a sector through a stack engine, under its own key index; a sector that the access writes whole loses its
poison (13 R207). -/
def engineWrite (s : State) (pa : Nat) (bs : Bytes) (whole : Bool) : State :=
  let n := pa / 128
  let c := s.sector n
  writeSector s n c.key (overlay (sectorPlain s n) (pa % 128) bs) (c.poison && !whole)

end Sys2Proof.Machine
end

