-- ==== Sys2Proof/Machine/Translate.lean ====
section
/-! DEFINITION. Translation (09 R141 to R151): the fields of a table entry, a walk of the tree of tables, the TLBs, and the
pending table. -/

namespace Sys2Proof.Machine

/-! ## Table entries (09 R142 to R144) -/

/-- V. -/
def pteV (e : Nat) : Bool := e.testBit 63
/-- L: a leaf. -/
def pteL (e : Nat) : Bool := e.testBit 62
/-- RD. -/
def pteRd (e : Nat) : Bool := e.testBit 61
/-- WR. -/
def pteWr (e : Nat) : Bool := e.testBit 60
/-- EX. -/
def pteEx (e : Nat) : Bool := e.testBit 59
/-- REPL. -/
def pteRepl (e : Nat) : Bool := e.testBit 58
/-- MS. -/
def pteMs (e : Nat) : Bool := e.testBit 57
/-- SC. -/
def pteSc (e : Nat) : Bool := e.testBit 56
/-- The physical address PA[51:14] of the page or table. -/
def ptePa (e : Nat) : Nat := bits e 51 14 * 2 ^ 14
/-- KEY. -/
def pteKey (e : Nat) : Nat := bits e 13 6

/-- The bytes a leaf at a level maps (09 R141). -/
def pageBytes (lvl : Nat) : Nat := 2 ^ (14 + 11 * lvl)

/-- A leaf whose attributes, level or address break 09 R142 to R144. -/
def leafBad (s : State) (lvl e : Nat) : Bool :=
  let pa := ptePa e
  let n := pageBytes lvl
  (pteWr e && !pteRd e) ||
  (pteEx e && (pteRd e || pteWr e)) ||
  (pteRepl e && (pteMs e || decide (2 ^ 37 ≤ pa))) ||
  (pteMs e && (pteEx e || !isDevice pa)) ||
  (pteSc e && pteEx e) ||
  (isHost pa && (pteRepl e || pteMs e)) ||
  !(isDevice pa || isHost pa) ||
  decide (pa % n ≠ 0) ||
  (isDevice pa && decide (pa < s.sys.tbase + s.sys.tsize ∧ s.sys.tbase < pa + n)) ||
  (pteRepl e && (upTo 4).any fun d =>
    let p := pa + d * 2 ^ 37
    decide (p < s.sys.tbase + s.sys.tsize ∧ s.sys.tbase < p + n))

/-- An entry with V = 1 that is malformed at a level (09 R142). -/
def pteBad (s : State) (lvl e : Nat) : Bool :=
  bits e 55 52 != 0 || bits e 5 0 != 0 ||
  (if pteL e then lvl == 3 || leafBad s lvl e
   else lvl == 0 || bits e 61 56 != 0 || pteKey e != 0)

/-! ## Reasons (09 R152) -/

/-- NOT_VALID. -/
def rNotValid : Nat := 1
/-- PERM. -/
def rPerm : Nat := 2
/-- MALFORMED. -/
def rMalformed : Nat := 3
/-- TABLE. -/
def rTable : Nat := 4

/-- How a walk ends: a leaf at a level; a reason and the level of the failing entry; or a leaf that names another key
(09 R144, R148, R151). -/
inductive Walked where
  | leaf (e : TlbEntry)
  | failed (reason lvl : Nat)
  | alien (owner : Nat)

/-- Index into the table of a level (09 R141). -/
def tableIndex (va lvl : Nat) : Nat := va / 2 ^ (14 + 11 * lvl) % (if lvl = 3 then 1024 else 2048)

/-- The walk from the table of a level, with the pointers it passes, newest last. -/
def walkFrom (s : State) (did va table lvl : Nat) : Walked × List (Nat × Nat × Nat × Nat) :=
  let at' := table + 8 * tableIndex va lvl
  if !(isDevice at' && inTables s at') || (peekSector s (at' / 128 * 128)).2 then (.failed rTable lvl, [])
  else
    let e := leVal (peek s at' 8)
    if !pteV e then (.failed rNotValid lvl, [])
    else if pteBad s lvl e then (.failed rMalformed lvl, [])
    else if pteL e then
      if pteKey e != did then (.alien (pteKey e), [])
      else (.leaf ⟨did, lvl, va / pageBytes lvl * pageBytes lvl / 2 ^ 14, e⟩, [])
    else match lvl with
      | 0 => (.failed rMalformed 0, [])
      | l + 1 =>
        let r := walkFrom s did va (ptePa e) l
        (r.1, (did, l + 1, va / pageBytes (l + 1), ptePa e) :: r.2)

/-- A die's translation units. -/
def State.die (s : State) (d : Nat) : Die := (tget s.mem.dies d).getD ⟨[], [], [], [], [], 0, [], [], 0⟩
/-- The state with a die's units changed. -/
def State.modDie (s : State) (d : Nat) (f : Die → Die) : State :=
  s.setMem { s.mem with dies := tset s.mem.dies d (f (s.die d)) }

/-- The walk of an address, from the lowest table the walk cache holds, else from the domain's root, with the pointers it has used,
that of the walk cache among them (09 R147, R148). -/
def walk (s : State) (d did va : Nat) : Walked × List (Nat × Nat × Nat × Nat) :=
  let c := (s.die d).wcache
  match [1, 2, 3].findSome? fun l => c.find? fun w => w.1 == did && w.2.1 == l && w.2.2.1 == va / pageBytes l with
  | some w =>
    let r := walkFrom s did va w.2.2.2 (w.2.1 - 1)
    (r.1, w :: r.2)
  | none => walkFrom s did va (s.dom did).root 3

/-! ## TLBs (09 R147) -/

/-- The entry matches the domain and the 16 KiB page. -/
def TlbEntry.hits (e : TlbEntry) (did page : Nat) : Bool := e.did == did && e.page / 2 ^ (11 * e.lvl) == page / 2 ^ (11 * e.lvl)

/-- The entry put first, as the one used last; the least recently used beyond the capacity goes. -/
def tlbPut (t : List TlbEntry) (e : TlbEntry) (cap : Nat) : List TlbEntry := (e :: t.filter (· != e)).take cap

/-- The entry put first among the entries of a structure of sets; the least recently used of its set beyond the ways goes. -/
def setPut {α : Type} [DecidableEq α] (t : List α) (e : α) (set : α → Nat) (ways : Nat) : List α :=
  let rest := t.filter fun x => decide (x ≠ e)
  let mine := rest.filter fun x => set x == set e
  e :: if mine.length < ways then rest else rest.filter fun x => decide (some x ≠ mine.getLast?)

/-- The set of a TLB entry of a die: 1024 sets of 8 ways (09 R147). -/
def TlbEntry.set (e : TlbEntry) : Nat := Config.tlbSet e.did e.lvl (e.page / 2 ^ (11 * e.lvl)) % 1024

/-- The set of a pointer of the walk cache: 256 sets of 4 ways (09 R147). -/
def ptrSet (w : Nat × Nat × Nat × Nat) : Nat := Config.tlbSet w.1 w.2.1 w.2.2.1 % 256

/-- The translation of a page held by a core's TLB or its die's, and the state with its use noted. -/
def tlbFind (s : State) (core did page : Nat) : Option (TlbEntry × State) :=
  match (s.coreAt core).tlb.find? (·.hits did page) with
  | some e => some (e, s.modCore core fun c => { c with tlb := tlbPut c.tlb e 128 })
  | none =>
    match (s.die (core / 48)).tlb.find? (·.hits did page) with
    | some e =>
      some (e, (s.modCore core fun c => { c with tlb := tlbPut c.tlb e 128 }).modDie (core / 48) fun d =>
        { d with tlb := setPut d.tlb e TlbEntry.set 8 })
    | none => none

/-- The state with the entries for a page dropped from a core's TLB and its die's (09 R151). -/
def tlbDrop (s : State) (core did page : Nat) : State :=
  (s.modCore core fun c => { c with tlb := c.tlb.filter fun e => !e.hits did page }).modDie (core / 48) fun d =>
    { d with tlb := d.tlb.filter fun e => !e.hits did page }

/-- The state with a leaf put into a die's TLB and a core's, and the pointers of its walk into the walk cache. -/
def tlbFill (s : State) (d : Nat) (cores : List Nat) (e : TlbEntry) (ptrs : List (Nat × Nat × Nat × Nat)) : State :=
  let s1 := s.modDie d fun x =>
    { x with tlb := setPut x.tlb e TlbEntry.set 8, wcache := ptrs.foldl (fun c p => setPut c p ptrSet 4) x.wcache }
  cores.foldl (fun s c => s.modCore c fun x => { x with tlb := tlbPut x.tlb e 128 }) s1

/-- The physical address of a virtual one through a leaf; on a REPL page that of the die's own copy (09 R145). -/
def physOf (e : TlbEntry) (d va : Nat) : Nat :=
  ptePa e.pte + va % pageBytes e.lvl + (if pteRepl e.pte then d * 2 ^ 37 else 0)

/-- What an access needs of its leaf (09 R146), as the ACCESS bits of 09 R152: read 1, write 2, fetch 4, engine 8. -/
def allowed (e acc : Nat) : Bool :=
  (!acc.testBit 0 || pteRd e) && (!acc.testBit 1 || pteWr e) && (!acc.testBit 2 || pteEx e)

/-! ## The pending table (09 R151) -/

/-- A request identifier that no pending entry of the die has. -/
def freeReqid (x : Die) : Nat :=
  (((upTo 257).map fun i => (x.reqid + i) % 65536).find? fun n => !x.pend.any (·.id == n)).getD x.reqid

/-- A waiter joins the pending entry of its domain, page and reason, takes a new entry with a new request identifier, or waits
for one. -/
def pendFail (s : State) (d did page reason acc lvl core waiter : Nat) : State :=
  s.modDie d fun x =>
    if (x.pend ++ x.pendWait).any fun p => p.did == did && p.page == page && p.reason == reason && p.waiters.contains waiter then x
    else if x.pend.any fun p => p.did == did && p.page == page && p.reason == reason then
      { x with pend := x.pend.map fun p =>
          if p.did == did && p.page == page && p.reason == reason then { p with waiters := p.waiters ++ [waiter] } else p }
    else
      let p : PendEntry :=
        { id := freeReqid x, did := did, page := page, reason := reason, access := acc, level := lvl, core := core, written := [],
          waiters := [waiter] }
      if x.pend.length < 256 ∧ x.pendWait.isEmpty then { x with pend := x.pend ++ [p], reqid := (p.id + 1) % 65536 }
      else { x with pendWait := x.pendWait ++ [p] }

/-! ## Walkers (09 R148) -/

/-- A die's 96 walkers are given to the walks that wait: to their partitions in turn, the oldest walk of each first; a partition holds at
most 48 of them while walks of another one wait. -/
def takeWalkers (part : Nat → Nat) (x : Die) : Nat → Die
  | 0 => x
  | n + 1 =>
    let waits := (x.walkWait.map fun w => part w.1).eraseDups
    let may := waits.filter fun p => waits == [p] || decide ((x.walks.filter fun w => part w.1 == p).length < 48)
    match (if 96 ≤ x.walks.length then none else leastBy (fun p => (p + 64 - x.rrWalk) % 64) may).bind fun p =>
        x.walkWait.find? fun w => part w.1 == p with
    | none => x
    | some w =>
      takeWalkers part { x with walks := x.walks ++ [w], walkWait := x.walkWait.filter (· != w), rrWalk := part w.1 + 1 } n

/-- The free walkers of a die are taken. -/
def grantWalkers (s : State) (d : Nat) : State :=
  s.modDie d fun x => takeWalkers (fun did => (s.dom did).part) x x.walkWait.length

/-- A walk of a page is in flight on a die, or waits for a walker: a later miss on the page joins it. -/
def walking (s : State) (d did page : Nat) : Bool := (s.die d).walks.contains (did, page) || (s.die d).walkWait.contains (did, page)

/-- A miss of the die TLB is given to a walker, or joins the walk of its page. -/
def startWalk (s : State) (d did page : Nat) : State :=
  if walking s d did page then s
  else grantWalkers (s.modDie d fun x => { x with walkWait := x.walkWait ++ [(did, page)] }) d

/-- How an engine's or the distributor's own access translates: it walks at once where the TLBs miss and a walker is free; it waits for
a walk of its page that is in flight, and for a walker (09 R148). -/
inductive Xlate where
  | ok (e : TlbEntry) (pa : Nat) (s : State)
  | failed (reason lvl : Nat) (s : State)
  | alien (owner : Nat) (s : State)
  | busy (s : State)

/-- The reads of a walk that ends so, of the tables that its pointers name and of the failing or last entry, as samples of SLQ
(14 R218). -/
def sampleWalk (s : State) (did : Nat) (ptrs : List (Nat × Nat × Nat × Nat)) : State := sampleFree s (s.dom did).part 1 (ptrs.length + 1)

/-- A walk of an address; a leaf that permits the access is put into the TLBs. -/
def freshWalk (s : State) (d : Nat) (cores : List Nat) (did va acc : Nat) : Xlate :=
  let x := s.die d
  if walking s d did (va / 2 ^ 14) then .busy s
  else if 96 ≤ x.walks.length ∨ !x.walkWait.isEmpty then .busy (startWalk s d did (va / 2 ^ 14))
  else match walk s d did va with
  | (.leaf e, ptrs) =>
    let s1 := sampleWalk s did ptrs
    if allowed e.pte acc then .ok e (physOf e d va) (tlbFill s1 d cores e ptrs) else .failed rPerm e.lvl s1
  | (.failed r l, ptrs) => .failed r l (sampleWalk s did ptrs)
  | (.alien o, ptrs) => .alien o (sampleWalk s did ptrs)

/-- The translation of an address for an engine of a core; a permission failure on a TLB entry drops it and walks again
(09 R151). -/
def translateNow (s : State) (core did va acc : Nat) : Xlate :=
  match tlbFind s core did (va / 2 ^ 14) with
  | some (e, s1) =>
    if allowed e.pte acc then .ok e (physOf e (core / 48) va) s1
    else freshWalk (tlbDrop s1 core did (va / 2 ^ 14)) (core / 48) [core] did va acc
  | none => freshWalk s (core / 48) [core] did va acc

/-- The translation of an address by a unit of die 0 that is no core's: the distributor, the domain control unit or the curator. -/
def translateDie0 (s : State) (did va acc : Nat) : Xlate := freshWalk s 0 [] did va acc

end Sys2Proof.Machine
end

