-- ==== Sys2Proof/Machine/Access.lean ====
section
/-! DEFINITION. What engines, the curator, the distributor and the control unit do in memory (07 R114, 12 R195, 02 R34): reads that
extend no lease and writes under a given timestamp, at the ordering point itself. An access lies within one 256 B line. -/

namespace Sys2Proof.Machine

/-- How a unit's access ends: it must wait, it is refused, or it is performed, with the bytes read and the timestamp returned. -/
inductive Acc where
  | wait (s : State)
  | denied (cause sub info owner : Nat) (s : State)
  | done (bs : Bytes) (t : Ts) (s : State)

/-- The sectors of its line that n bytes from an address touch. -/
def sectorsOf (pa n : Nat) : List Nat := [0, 1].filter fun i => decide (pa % 256 < 128 * (i + 1) ∧ 128 * i < pa % 256 + n)

/-- The 64 B lines of an MS access that the bridge's snoop filter records (07 R118). -/
def filterHits (s : State) (pa n : Nat) : List Nat :=
  s.mem.bridge.snoop.filter fun l => decide (pa < 64 * (l + 1) ∧ 64 * l < pa + n)

/-- BISnp for lines of the snoop filter, where none is outstanding for them. -/
def snoopLines (s : State) (ls : List Nat) : State :=
  let b := s.mem.bridge
  s.setMem { s.mem with bridge := { b with bisnp := b.bisnp ++
    (ls.filter fun n => !b.bisnp.any (·.1 == n)).map fun n => (n, true) } }

/-- An access of n bytes to an MS page (07 R113): a write where bytes are given. -/
def msAccess (s : State) (pa key va n : Nat) (gts : Ts) (w : Option Bytes) : Acc :=
  let secs := (sectorsOf pa n).map fun j => pa / 256 * 2 + j
  match secs.find? fun x => (s.sector x).key != key with
  | some x => .denied cDOMAIN 0 4 (s.sector x).key s
  | none =>
    let st := stackOf pa
    let ep := (s.engineClock st).ep
    if w.isNone && secs.any fun x => (s.sector x).poison then .denied cECC 1 (va / 128 * 128) 0 s
    else if w.isSome && !(filterHits s pa n).isEmpty then .wait (snoopLines s (filterHits s pa n))
    else if tsHolds (max ((s.engineClock st).v + 1) (s.tsAt gts ep)) then .wait s
    else
      let t := engineTick s st (s.tsAt gts ep) w.isSome
      let d := secs.flatMap (sectorPlain s)
      let base := pa / 256 * 256 + 128 * ((sectorsOf pa n).headD 0)
      match w with
      | none => .done ((d.drop (pa - base)).take n) ⟨t.1, ep⟩ t.2
      | some bs =>
        let new := overlay d (pa - base) bs
        let whole := fun (j : Nat) => decide (pa ≤ base + 128 * j ∧ base + 128 * (j + 1) ≤ pa + n)
        let s1 := (upTo secs.length).foldl (fun s j => engineWrite s (base + 128 * j) ((new.drop (128 * j)).take 128) (whole j)) t.2
        .done [] ⟨t.1, ep⟩ s1

/-- An access of n bytes to a line of a slice or of the bridge: a write where bytes are given. A line of host memory that the bridge
does not hold, or not in the state a write needs, is fetched first (07 R119). -/
def lineAccess (s : State) (pa key va n : Nat) (gts : Ts) (w : Option Bytes) : Acc :=
  let p := if isHost pa then pBridge else homeSlice s pa
  let own := if w.isSome then (upTo 4).filter fun j => decide (pa % 256 < 64 * (j + 1) ∧ 64 * j < pa % 256 + n) else []
  let s0 := if isHost pa then fetchBridge s pa own else s
  match getLine s0 p pa with
  | .wait s1 => .wait s1
  | .line lk s1 =>
    match keyMismatch s1 lk (sectorsOf pa n) key with
    | some o => .denied cDOMAIN 0 4 o s1
    | none =>
      match s1.line lk with
      | none => .wait s1
      | some l =>
        if w.isNone && linePoisoned s1 lk (sectorsOf pa n) then .denied cECC (eccSub s1 lk (sectorsOf pa n)) (va / 128 * 128) 0 s1
        else match w with
          | none => .done ((l.data.drop (pa % 256)).take n) ⟨l.wts, l.ep⟩ s1
          | some bs =>
            if l.h then .wait (if awaitsBirsp s1 l.pa then s1 else sendBisnp s1 l.pa true)
            else if tsHolds (writeTs s1 l (s1.tsAt gts l.ep)) then .wait s1
            else
              let s2 := if bridgeBase ≤ lk then
                  s1.setLine lk { l with mesi := (upTo 4).map fun j => if own.contains j then 3 else l.mesi.getD j 0 }
                else adoptKey s1 lk key
              let marks := (sectorsOf pa n).foldl (fun m j => m ||| (1 <<< j)) 0
              let whole := (if pa % 256 = 0 ∧ 128 ≤ n then 1 else 0) + (if pa % 256 ≤ 128 ∧ 256 ≤ pa % 256 + n then 2 else 0)
              let x := leaseWrite s2 p lk (s1.tsAt gts l.ep) (overlay l.data (pa % 256) bs) marks whole
              .done [] ⟨x.1, l.ep⟩ x.2

/-- A unit's access through a leaf. -/
def unitAccess (s : State) (e : TlbEntry) (pa va n : Nat) (gts : Ts) (w : Option Bytes) : Acc :=
  if pteMs e.pte then msAccess s pa (pteKey e.pte) va n gts w else lineAccess s pa (pteKey e.pte) va n gts w

/-! ## The spill unit of a core (05 R76, R80) -/

/-- A state as it was before a piece of work that did not go through, with what the attempt asked for: BISnp, page requests, faults
logged, and the translations that it dropped or looked up. -/
def State.keepAsked (s s1 : State) : State :=
  let s2 := (s.setMem { s.mem with bridge := { s.mem.bridge with bisnp := s1.mem.bridge.bisnp }, dies := s1.mem.dies }).setAdm
    { s.adm with parts := s.adm.parts.map fun e => (e.1, { e.2 with log := (s1.part e.1).log }) }
  s2.setCore { s2.core with cores := s2.core.cores.map fun e => (e.1, { e.2 with tlb := (s1.coreAt e.1).tlb }) }

/-- The name under which a team's spill unit waits in a pending entry. -/
def spillWaiter (team : Nat) : Nat := 2 ^ 62 + team

/-- Bytes that the spill unit writes for a team of a domain: true where all have been written. A translation that fails is reported to
the host (09 R151); a page of another domain is refused (01 R18). -/
def spillRun (s : State) (core did team va : Nat) : Nat → Bytes → State × Bool
  | 0, _ => (s, true)
  | fuel + 1, bs =>
    if bs.isEmpty then (s, true)
    else
      let k := min bs.length (128 - va % 128)
      match translateNow s core did va 10 with
      | .ok e pa s1 =>
        match unitAccess s1 e pa va k s1.sys.distTs (some (bs.take k)) with
        | .done _ _ s2 => spillRun s2 core did team (va + k) fuel (bs.drop k)
        | .wait s2 => (s2, false)
        | .denied _ _ info o s2 => (logDomain s2 did info o core, false)
      | .failed r l s1 => (pendFail s1 (core / 48) did (va / 2 ^ 14) r 10 l core (spillWaiter team), false)
      | .alien o s1 => (logDomain s1 did 4 o core, false)
      | .busy s1 => (s1, false)

/-- Bytes that the spill unit reads for a team, within 128 B: nothing where they cannot be read yet; none of them where they are
poisoned (13 R207). -/
def spillRead (s : State) (core did team va n : Nat) : State × Option (Option Bytes) :=
  match translateNow s core did va 9 with
  | .ok e pa s1 =>
    match unitAccess s1 e pa va n s1.sys.distTs none with
    | .done bs _ s2 => (s2, some (some bs))
    | .wait s2 => (s2, none)
    | .denied c _ info o s2 => if c = cDOMAIN then (logDomain s2 did info o core, none) else (s2, some none)
  | .failed r l s1 => (pendFail s1 (core / 48) did (va / 2 ^ 14) r 9 l core (spillWaiter team), none)
  | .alien o s1 => (logDomain s1 did 4 o core, none)
  | .busy s1 => (s1, none)

/-- A team's writes of its image that memory has not taken, in order, as far as it takes them now. -/
def flushImage (s : State) (k : Nat) : Nat → State
  | 0 => s
  | fuel + 1 =>
    match s.team k with
    | none => s
    | some t => match t.image with
      | none => s
      | some im => match im.pending with
        | [] => s
        | w :: ws =>
          let r := spillRun s t.core t.did k (im.addr + w.1) (w.2.length + 1) w.2
          if r.2 then
            flushImage (r.1.modTeam k fun t => { t with image := t.image.map fun im => { im with pending := ws } }) k fuel
          else s.keepAsked r.1

/-- Every image that memory can take up to date is. -/
def flushImages (s : State) : State :=
  (s.work.teams.map Prod.fst).foldl (fun s k =>
    flushImage s k (match s.team k with | some t => ((t.image.map (·.pending.length)).getD 0) | none => 0)) s

end Sys2Proof.Machine
end

