-- ==== Sys2Proof/Machine/Frame.lean ====
section
/-! DEFINITION. Save frames (05 R78): their bits, where they stand, and what raises their GTS. -/

namespace Sys2Proof.Machine

/-- The 64 bits of PATH j: a blocked path stands at its blocking word with W = 1, and one at REGROUP in a group that is not in
RENDEZVOUS at its REGROUP word, which issues again at thaw. -/
def pathBits (p : Path) : Nat :=
  let pc := match p.waits with
    | w :: _ => w.1
    | [] => p.rdv.getD p.pc
  2 ^ 63 + p.depth % 64 * 2 ^ 57 + pc % 2 ^ 57 / 8 * 8 + (if p.waits.isEmpty then 0 else 4)

/-- The index of the path of a lane among paths. -/
def pathIndex (ps : List Path) (l : Nat) : Nat :=
  match ps with
  | [] => 0
  | p :: r => if inMask p.mask l then 0 else 1 + pathIndex r l

/-- A number made of fields of w bits, the first lowest. -/
def packFields (w : Nat) : List Nat → Nat
  | [] => 0
  | x :: xs => x % 2 ^ w + 2 ^ w * packFields w xs

/-- The STATUS field (05 R78): RDV, FORCED, GATE, REPLY from bit 3 down. -/
def frameStatus (rdv forced gate reply : Bool) : Nat :=
  (if rdv then 8 else 0) + (if forced then 4 else 0) + (if gate then 2 else 0) + (if reply then 1 else 0)

/-- A group's frame with these paths. -/
def frameBits (g : Group) (ps : List Path) (status : Nat) : Nat :=
  packFields 64 ((upTo 32).map fun j => match ps[j]? with | some p => pathBits p | none => 0) +
  packFields 8 (lanes32.map fun l => if inMask g.live l then pathIndex ps l else 128) * 2 ^ 2048 +
  packFields 4 (lanes32.map fun l => g.depth.getD l 0) * 2 ^ 2304 +
  packFields 8 (lanes32.map fun l => packFields 1 (0 :: (upTo 7).map fun i => if inMask (g.preds.getD i 0#32) l then 1 else 0))
    * 2 ^ 2432 +
  packFields 8 (lanes32.map fun l => (g.flags.getD l 0#8).toNat) * 2 ^ 2688 +
  g.gts.v % 2 ^ 40 * 2 ^ 2944 + g.phreg % 2 ^ 32 * 2 ^ 2984 + status * 2 ^ 3016

/-- Word w of a frame as lane w mod 32 of k(w / 32) (05 R78). -/
def frameWord (f w : Nat) : Word := BitVec.ofNat 32 (f / 2 ^ (32 * w))

/-- The state with a frame written into k0 to k3 of a group, whatever the lanes' masks. -/
def writeFrame (s : State) (g : Group) (f : Nat) : State :=
  (upTo 4).foldl (fun s j => match teamRow s g (188 + j) with
    | some r => s.setTeamRow g r 0xFFFFFFFF#32 fun l => frameWord f (32 * j + l)
    | none => s) s

/-! ## Team images (05 R76) -/

/-- Groups of a team (03 R47). -/
def Launch.groups (r : Launch) : Nat := (r.threads + 31) / 32

/-- Bytes of the parts of a team image: register rows, scalar files, scratchpad rows, presence bytes, reply blocks. -/
def imageParts (s : State) (t : Team) : List Nat :=
  match s.launchOf t with
  | some r => [t.rowCnt * 128, (r.groups + if r.mx then 1 else 0) * 256, t.sramCnt * 256, t.sramCnt, r.groups * 256]
  | none => []

/-- The size of a team image: its parts, rounded up to 4 KiB. -/
def imageSize (s : State) (t : Team) : Nat := ((imageParts s t).sum + 4095) / 4096 * 4096

/-- The offset of a part in a team image. -/
def imageOff (s : State) (t : Team) (part : Nat) : Nat := ((imageParts s t).take part).sum

/-- The presence byte of a scratchpad row. -/
def presenceByte (r : SRow) : Byte := BitVec.ofNat 8 (r.pend % 16 + if r.scrub then 16 else 0)

/-- Bytes written over others from an index, as the core holds them until memory takes them: later writes follow earlier ones. -/
def Image.owe (im : Image) (off : Nat) (bs : Bytes) : Image := { im with pending := im.pending ++ [(off, bs)] }

/-- A register row of an image that has been evicted takes new words: the bytes that change are written into the image. -/
def Image.putRow (im : Image) (r : Nat) (new : List Word) : Image :=
  let bytes := fun (ws : List Word) => ws.flatMap fun w => leOf 4 w.toNat
  let old := bytes (((im.rows.find? (·.1 == r)).map (·.2)).getD [])
  let now := bytes new
  let diff := (upTo now.length).filter fun i => old.getD i 0#8 != now.getD i 0#8 || old.length ≤ i
  { im with rows := im.rows.map (fun e => if e.1 = r then (r, new) else e),
            pending := im.pending ++ diff.map fun i => (128 * r + i, [now.getD i 0#8]) }

/-! ## Scalar files of slots (01 R21) -/

/-- The name under which the contents of a group slot of a core (0 to 63), or of the sequencer of a team slot (64 and up), stay when no
team holds it. -/
def slotFile (core f : Nat) : Nat := 2 ^ 40 + core * 80 + f

/-- A scalar file copied, in place of what stood under the other name. -/
def copyFile (s : State) (src dst : Nat) : State :=
  let keep := s.core.sregs.filter fun e => e.1 / 64 != dst
  s.setCore { s.core with sregs := (s.core.sregs.filter fun e => e.1 / 64 == src).foldl (fun l e => tset l (dst * 64 + e.1 % 64) e.2) keep }

/-- The scalar files of a team: the %gid, and the file of the core that its slot has. -/
def Team.files (t : Team) (mx : Bool) : List (Nat × Nat) :=
  ((upTo t.slots.length).map fun i => (i, t.slots.getD i 0)) ++ if mx then [(32, 64 + t.slot)] else []

/-! ## Frames where they stand -/

/-- The rows k0 to k3 of a group, in place or as they were spilt into its team's image. -/
def frameRow (s : State) (g : Group) (j : Nat) : List Word :=
  match teamRow s g (188 + j) with
  | none => []
  | some r =>
    match s.teamOf g with
    | some t => match t.image with
      | some im => if im.evRows.contains r then ((im.rows.find? (·.1 == r)).map (·.2)).getD [] else s.teamRowVals g r
      | none => s.teamRowVals g r
    | none => []

/-- The frame that k0 to k3 of a group hold. -/
def readFrame (s : State) (g : Group) : Nat :=
  packFields 32 ((upTo 4).flatMap fun j => lanes32.map fun l => ((frameRow s g j).getD l 0#32).toNat)

/-- The state with the frame of a frozen group rewritten where it stands. -/
def rewriteFrame (s : State) (g : Group) (f : Nat) : State :=
  match s.teamOf g with
  | none => s
  | some t =>
    if t.awayRows.isEmpty then writeFrame s g f
    else (upTo 4).foldl (fun s j => match teamRow s g (188 + j) with
      | none => s
      | some r =>
        if t.awayRows.contains r then
          s.modTeam g.team fun t => { t with image := t.image.map (·.putRow r (lanes32.map fun l => frameWord f (32 * j + l))) }
        else s.setTeamRow g r 0xFFFFFFFF#32 fun l => frameWord f (32 * j + l)) s

/-- The group's timestamp raised, and with it the GTS of its frame while the group is frozen, with the rebase count of the value
(08 R139, 07 R116, 12 R192). -/
def raiseAll (s : State) (k : Nat) (t : Ts) : State :=
  let s1 := raiseGroup s k t
  match s1.group k with
  | none => s1
  | some g =>
    if g.st = .frozen ∨ g.st = .evicted then
      let s2 := if g.isSeq then s1 else rewriteFrame s1 g (setBits (readFrame s1 g) 2983 2944 g.gts.v)
      s2.modGroup k fun g =>
        { g with rbcAt := rbcOf s1 g.gts.ep, frame := if g.isSeq then setBits g.frame 2983 2944 g.gts.v else g.frame }
    else s1

end Sys2Proof.Machine
end

