-- ==== Sys2Proof/Machine/Order.lean ====
section
/-! DEFINITION. What a release or a fence waits for: the accesses of a path and of a group that have not completed (08 R122,
R126, R131). A request leaves the table of requests when its acknowledgement or reply has reached the core. -/

namespace Sys2Proof.Machine

/-- The operation orders nothing and holds nothing: a PREF, or the wait for a fetch (18 R308). -/
def ReqOp.free (o : ReqOp) : Bool :=
  match o with
  | .prefetch _ | .fetch => true
  | _ => false

/-- The request belongs to the accesses a release of these lanes of the group awaits. -/
def Req.ofLanes (q : Req) (k : Nat) (m : Mask) : Bool := q.grp == k && (q.mask &&& m) != 0#32 && !q.op.free

/-- The accesses of lanes of a group that have not completed. -/
def lanesAccesses (s : State) (k : Nat) (m : Mask) : List Nat :=
  (s.fly.reqs.filter fun e => e.2.ofLanes k m).map Prod.fst

/-- All accesses of a group that have not completed. -/
def groupAccesses (s : State) (k : Nat) : List Nat := (s.fly.reqs.filter fun e => e.2.grp == k && !e.2.op.free).map Prod.fst

/-- Those of a list of accesses that have not completed. -/
def stillOut (s : State) (l : List Nat) : List Nat := l.filter fun i => (tget s.fly.reqs i).isSome

/-- A release fence of the gang: later writes and engine commands of its path are held until the path's accesses have
completed (08 R131). -/
def releaseFence (s : State) (c : Ctx) : State :=
  s.modRun c.k fun r => { r with hold := r.hold ++ (lanesAccesses s c.k c.r.gang).filter fun i => !r.hold.contains i }

/-- A full fence: a release fence, and the group stays in RESULTS until its earlier accesses have completed (08 R131). -/
def fullFence (s : State) (c : Ctx) : State :=
  (releaseFence s c).modRun c.k fun r => { r with fence := r.fence ++ groupAccesses s c.k }

end Sys2Proof.Machine
end

