-- ==== Sys2Proof/Machine/Request.lean ====
section
/-! DEFINITION. Memory requests between a core and an ordering point: routes over the crossbars (10 R155 to R161), the order in
which a group's requests are sent (08 R123, R129, 06 R103), the L1 (06 R96, 07 R108), and results as they return. -/

namespace Sys2Proof.Machine

/-! ## Routes -/

/-- The die bridge of a die that leads to another (10 R155). -/
def bridgePort (d e : Nat) : Nat := if e < d then e else e - 1
/-- The crossbar port of an ordering point: a slice, a stack engine, the CXL bridge, or a peer link (10 R155). -/
def portOf (p : Nat) : Nat := if p < 128 then p % 32 else if p < 136 then 32 + p % 2 else if p = 136 then 39 else 37 + (p - 137) % 2
/-- A crosspoint block in passive bypass (10 R158). -/
def blockBypassed (s : State) (d : Nat) (resp : Bool) (i j : Nat) : Bool := s.sys.bypass.contains (d, resp, i / 4, j / 4)
/-- The route of an input to an output of one die: direct, or by the relay that bring-up fixed (10 R159); a relay is left by outputs 43
and 47 and entered by inputs 55 and 59 on the request network, and the other way round on the response network (10 R155). -/
def dieRoute (s : State) (d : Nat) (resp : Bool) (i j : Nat) : List Hop :=
  if !blockBypassed s d resp i j then [⟨d, resp, i, j⟩]
  else
    let r0 := if resp then (55, 43) else (43, 55)
    let r1 := if resp then (59, 47) else (47, 59)
    if !blockBypassed s d resp i r0.1 && !blockBypassed s d resp r0.2 j then [⟨d, resp, i, r0.1⟩, ⟨d, resp, r0.2, j⟩]
    else [⟨d, resp, i, r1.1⟩, ⟨d, resp, r1.2, j⟩]
/-- The route of a request from a core to an ordering point (10 R161). -/
def requestRoute (s : State) (core p : Nat) : List Hop :=
  let d := core / 48
  let e := dieOfPoint p
  if d = e then dieRoute s d false (core % 48) (portOf p)
  else dieRoute s d false (core % 48) (34 + bridgePort d e) ++ dieRoute s e false (48 + bridgePort e d) (portOf p)
/-- The mirrored route of its reply. -/
def replyRoute (s : State) (p core : Nat) : List Hop :=
  let d := core / 48
  let e := dieOfPoint p
  if d = e then dieRoute s e true (portOf p) (core % 48)
  else dieRoute s e true (portOf p) (48 + bridgePort e d) ++ dieRoute s d true (34 + bridgePort d e) (core % 48)

/-! ## Requests -/

/-- A request by its number. -/
def State.req (s : State) (i : Nat) : Option Req := tget s.fly.reqs i
/-- The state with a request set. -/
def State.setReq (s : State) (i : Nat) (q : Req) : State := s.setFly { s.fly with reqs := tset s.fly.reqs i q }
/-- The state with a request changed. -/
def State.modReq (s : State) (i : Nat) (f : Req → Req) : State := s.setFly { s.fly with reqs := tmod s.fly.reqs i f }
/-- The state without a request. -/
def State.delReq (s : State) (i : Nat) : State := s.setFly { s.fly with reqs := tdel s.fly.reqs i }

/-- The request writes memory. -/
def ReqOp.writes (o : ReqOp) : Bool :=
  match o with
  | .store | .mst _ | .atomic _ | .red _ | .cas | .push | .pop => true
  | _ => false

/-- The request is a range operation (18 R310). -/
def ReqOp.isRange (o : ReqOp) : Bool :=
  match o with
  | .clean | .inval | .flush => true
  | _ => false

/-- An access to an SC page (06 R103); a PREF is none (18 R308). -/
def Req.sc (q : Req) : Bool := (match q.pte with | some e => pteSc e | none => false) && !q.op.free
/-- A request on an MS page (06 R99). -/
def Req.ms (q : Req) : Bool := match q.pte with | some e => pteMs e | none => false
/-- The key index of its page. -/
def Req.key (q : Req) : Nat := match q.pte with | some e => pteKey e | none => 0
/-- It is of a group and shares a lane with it: an access of one path. -/
def Req.samePath (q r : Req) : Bool := q.grp == r.grp && (q.mask &&& r.mask) != 0#32
/-- Two requests touch a common byte: of one virtual address, or, where both are translated, of one physical address. -/
def Req.overlaps (q r : Req) : Bool :=
  q.rmt.isNone && r.rmt.isNone &&
    q.lanes.any fun a => r.lanes.any fun b =>
      decide (a.va < b.va + b.size ∧ b.va < a.va + a.size) ||
        (q.pte.isSome && r.pte.isSome && decide (a.pa < b.pa + b.size ∧ b.pa < a.pa + a.size))
/-- A request is catalogued where the other one is: they touch a common byte, or they are parts of one instruction that share a line
(13 R205). -/
def Req.follows (q r : Req) : Bool :=
  q.overlaps r || (q.iseq == r.iseq && q.pc == r.pc && q.rmt.isNone && r.rmt.isNone &&
    q.lanes.any fun a => r.lanes.any fun b => a.va / 256 == b.va / 256)
/-- The first virtual address of a request. -/
def Req.va (q : Req) : Nat := (q.lanes.head?.map (·.va)).getD 0
/-- The 16 KiB page of a request. -/
def Req.page (q : Req) : Nat := q.va / 2 ^ 14

/-- A request whose turn it is to be sent: what a release waits for has completed; requests of its group to its ordering point
are sent in issue order (08 R123); behind an access of its path to an SC page nothing is sent before it completes, and an SC access
waits for all before it (06 R103); and it waits until every earlier access of its path has been translated or has failed. A PREF
holds nothing back (18 R308). -/
def mayGo (s : State) (i : Nat) (q : Req) : Bool :=
  q.waits.all (fun j => (s.req j).isNone) &&
  s.fly.posts.all (fun e => decide (i ≤ e.1) || e.2.grp != q.grp || e.2.unit != 100 + q.point) &&
  s.fly.reqs.all fun e =>
    let r := e.2
    decide (i ≤ e.1) || r.grp != q.grp ||
      (!(r.point == q.point && r.stage == .inject) &&
       !(r.samePath q && !r.op.free && (r.stage == .walk || r.sc || q.sc)))

/-! ## Results -/

/-- The state with values, by lane, delivered to a result of a group. -/
def deliver (s : State) (k rid : Nat) (vals : List (Nat × Nat)) : State :=
  s.modGroup k fun g =>
    { g with results := g.results.map fun r => if r.src = some rid then { r with vals := r.vals ++ vals } else r }

/-- A result is complete once no request for it is outstanding. -/
def settle (s : State) (k rid : Nat) : State :=
  if s.fly.reqs.any fun e => e.2.grp == k && e.2.res == some rid then s
  else s.modGroup k fun g =>
    { g with results := g.results.map fun r => if r.src = some rid then { r with done := true } else r }

/-- The catalogue entries of a request are freed. -/
def freeEntries (s : State) (core i : Nat) : State :=
  s.modCore core fun c =>
    { c with catalogue := c.catalogue.filter (·.req != i), catWait := c.catWait.filter (·.req != i) }

/-- A request ends: it leaves the table, and the catalogue where it has entries there, and its result may be complete. -/
def endReq (s : State) (i : Nat) : State :=
  match s.req i with
  | none => s
  | some q =>
    let s1 := if (s.group q.grp).any (·.parked.contains i) then freeEntries (s.delReq i) q.core i else s.delReq i
    match q.res with
    | some rid => settle s1 q.grp rid
    | none => s1

/-- The value of a load of a width: zero- or sign-extended to 32 bits below 32 (18 R305). -/
def loadValue (size : Nat) (sx : Bool) (bs : Bytes) : Nat :=
  let v := leVal (bs.take size)
  if sx && decide (size < 4) && v.testBit (8 * size - 1) then v + 2 ^ 32 - 2 ^ (8 * size) else v

/-! ## The L1 (06 R96) -/

/-- The role of a bank of a core. -/
def roleOf (c : Core) (b : Nat) : Role := (tget c.roles b).getD .sharedL1
/-- The L1 ways a partition's access may use. -/
def l1Ways (c : Core) (part : Nat) : List Nat :=
  (upTo 32).filter fun b => match roleOf c b with
    | .sharedL1 => true
    | .partL1 => tget c.bankPart b == some part
    | _ => false
/-- The valid L1 sector of an address with the tag of a domain. -/
def l1Find (c : Core) (part did pa : Nat) : Option L1Sector :=
  let ways := l1Ways c part
  c.l1.find? fun x => x.pa == pa / 128 && x.did == did && ways.contains x.way
/-- The set of a sector number: PA[14:8]. -/
def l1Set (sec : Nat) : Nat := sec / 2 % 128
/-- The L1 with a sector filled: into the way that holds its line, else an unused way of the set, else the least recently used
one, whose line goes. -/
def l1Fill (c : Core) (part : Nat) (x : L1Sector) : Core :=
  let ways := l1Ways c part
  let inSet := fun (w : Nat) => c.l1.filter fun y => y.way == w && l1Set y.pa == l1Set x.pa
  let mine := fun (w : Nat) => (inSet w).any fun y => y.pa / 2 == x.pa / 2 && y.did == x.did
  let age := fun (w : Nat) => (inSet w).foldl (fun m y => max m y.used) 0
  let pick := match ways.find? mine with
    | some w => some w
    | none => match ways.find? fun w => (inSet w).isEmpty with
      | some w => some w
      | none => ways.foldl (fun b w => match b with | none => some w | some v => if age w < age v then some w else some v) none
  match pick with
  | none => c
  | some w =>
    { c with l1 := { x with way := w } :: c.l1.filter fun y =>
        !(y.way == w && l1Set y.pa == l1Set x.pa && (y.pa / 2 != x.pa / 2 || y.did != x.did || y.pa == x.pa)) }

/-- An earlier write of the group to a byte of the request is not yet acknowledged (08 R124). -/
def behindWrite (s : State) (i : Nat) (q : Req) : Bool :=
  s.fly.reqs.any fun e => decide (e.1 < i) && e.2.grp == q.grp && e.2.op.writes && e.2.overlaps q

/-- An earlier access of its path to an SC page has not completed (06 R103). -/
def behindSc (s : State) (i : Nat) (q : Req) : Bool :=
  s.fly.reqs.any fun e => decide (e.1 < i) && e.2.samePath q && e.2.sc

/-- A request that renews the sector that the L1 holds: a load, or a PREF that fills the L1 (07 R108, 18 R308). -/
def ReqOp.renews (o : ReqOp) : Bool :=
  match o with
  | .load | .prefetch false => true
  | _ => false

/-- A translated load meets the L1: on a hit its values are delivered and its group's timestamp rises, and it is sent nowhere; else it
renews at its home, with the wts of the sector where the core has a valid one, of this epoch or of the one before (07 R108). A PREF
renews always (18 R308). -/
def meetL1 (s : State) (i : Nat) (q : Req) : State :=
  let pa := (q.lanes.head?.map (·.pa)).getD 0
  if !q.op.renews || q.ms || behindWrite s i q then s.modReq i fun q => { q with stage := .inject }
  else match l1Find (s.coreAt q.core) q.part q.did pa with
    | none => s.modReq i fun q => { q with stage := .inject }
    | some x =>
      if q.op = .load ∧ q.order = .plain ∧ q.sc = false ∧ x.ep = q.gts.ep ∧ x.rbc = rbcOf s q.gts.ep ∧ q.gts.v ≤ x.rts ∧
          !behindSc s i q then
        let (n, s1) := s.fresh
        let s2 := s1.modCore q.core fun c =>
          { c with l1 := c.l1.map fun y => if y.pa = x.pa ∧ y.did = x.did ∧ y.way = x.way then { y with used := n } else y }
        let vals := q.lanes.map fun a => (a.lane, loadValue a.size q.sx (x.data.drop (a.pa % 128)))
        let s3 := raiseGroup s2 q.grp ⟨x.wts, x.ep⟩
        match q.res with
        | some rid => endReq (deliver s3 q.grp rid vals) i
        | none => endReq s3 i
      else
        let w : Option Ts := if x.rbc = rbcOf s x.ep then some ⟨x.wts, x.ep⟩ else none
        s.modReq i fun q => { q with stage := .inject, renew := w }

/-! ## Range operations at the slices (06 R101, 18 R310) -/

/-- The physical pieces of a virtual range through the core's TLBs and walks: address, length, leaf; a permission or
translation failure gives its reason, level and page. -/
def rangePieces (s : State) (core did : Nat) : Nat → Nat → Nat → Except (Xlate × Nat) (List (Nat × Nat × Nat)) × State
  | 0, _, _ => (.ok [], s)
  | fuel + 1, va, len =>
    if len = 0 then (.ok [], s)
    else
      let n := min len (2 ^ 14 - va % 2 ^ 14)
      match translateNow s core did va 1 with
      | .ok e pa s1 =>
        match rangePieces s1 core did fuel (va + n) (len - n) with
        | (.ok l, s2) => (.ok ((pa, n, e.pte) :: l), s2)
        | (.error x, s2) => (.error x, s2)
      | x => (.error (x, va / 2 ^ 14), s)

/-- The lines of slices, or of the bridge, that a physical range touches. -/
def linesOf (s : State) (pa n : Nat) : List Nat :=
  if isHost pa then
    (s.mem.bridge.lines.filter fun e => decide ((pa - 2 ^ 51) / 256 ≤ e.1 ∧ e.1 ≤ (pa + n - 1 - 2 ^ 51) / 256)).map fun e =>
      bridgeBase + e.1
  else (s.mem.lines.filter fun e => e.2.v && decide (pa / 256 ≤ e.2.pa ∧ e.2.pa ≤ (pa + n - 1) / 256)).map (·.1)

/-- The M lines of a bridge line written back to the host. -/
def cleanBridge (s : State) (lk : Nat) : State :=
  match s.line lk with
  | none => s
  | some l =>
    let back (m : Mem) (i : Nat) : Mem :=
      if l.mesi.getD i 0 = 3 then memPut m (l.pa * 256 + 64 * i) ((l.data.drop (64 * i)).take 64) else m
    (s.setMem { s.mem with host := (upTo 4).foldl back s.mem.host }).setLine lk
      { l with mesi := l.mesi.map fun x => if x = 3 then 2 else x }

/-- One line of a range operation: written back, and dropped by INVALR and FLUSHR; the mts raised, with its epoch. A bridge line that is
dropped raises hts and no mts (18 R310). -/
def rangeLine (s : State) (op : ReqOp) (lk : Nat) : State × Option Ts :=
  match s.line lk with
  | none => (s, none)
  | some l =>
    if bridgeBase ≤ lk then
      (if op = .clean then cleanBridge s lk else dropBridge s lk, none)
    else if op = .clean then (writeBack s lk, none)
    else
      let s1 := dropLine s lk
      let q := quarterOf (l.pa * 256)
      let d := s1.dir q
      (s1, some ⟨mtsOf d (l.pa / 256), d.ep⟩)

/-- The virtual ranges that a BANKOP reads or writes: its sources, as its operation has them, and its destination, of one element for a
REDUCE (19 R341). -/
def Cmd.bankRanges (c : Cmd) : List (Nat × Nat) :=
  let b := leVal c.blk
  let w := if b.testBit 228 then 2 else 4
  let n := bits b 223 192 * w
  let op := bits b 227 224
  (bits b 56 0, if op = 4 then w else n) ::
    ((if op = 3 then [] else [(bits b 120 64, n)]) ++ if op ≤ 2 then [(bits b 184 128, n)] else [])

/-- A BANKOP of the domain issued before a request and not yet finished touches a virtual range; one whose block has not been read may
touch any. -/
def bankopTouches (s : State) (did before va len : Nat) : Bool :=
  s.fly.cmds.any fun e =>
    let c := e.2
    decide (e.1 < before) && c.did == did && c.kind == 0xBB &&
      (c.blk.isEmpty || c.bankRanges.any fun r => decide (va < r.1 + r.2 ∧ r.1 < va + len))

/-- A DOMAIN fault met by an access of a group: a boundary trap and an entry of the partition's log (01 R19). -/
def domainFault (s : State) (k did core code owner pc : Nat) (mask : Mask) (depth : Nat) : State :=
  addBoundaryTrap (logDomain s did code owner core) k
    { cause := cDOMAIN, sub := 0, info := code, pc := pc, depth := depth, mask := mask, word := false, owner := owner }

/-- The number of bytes a range operation names. -/
def Req.rangeLen (q : Req) : Nat := (q.lanes.head?.map (·.data)).getD 0

/-! ## The replay catalogue (13 R204, R205) -/

/-- An entry may be taken for a partition: a core has 256, of which a partition may hold at most 128 while an access of another
partition waits for one. -/
def catalogueRoom (c : Core) (part : Nat) : Bool :=
  decide (c.catalogue.length < 256) &&
  (!(c.catWait.any (·.part != part)) || decide ((c.catalogue.filter (·.part == part)).length < 128))

/-- The lane accesses that wait in a core's request buffer take the entries that they may, in failure order: none passes an earlier
one of its partition. -/
def takeWaiting (c : Core) : Nat → Core
  | 0 => c
  | n + 1 =>
    let firsts := c.catWait.filter fun e => (c.catWait.find? (·.part == e.part)) == some e
    match firsts.find? fun e => catalogueRoom c e.part with
    | none => c
    | some e => takeWaiting { c with catalogue := c.catalogue ++ [e], catWait := c.catWait.erase e } n

/-- Lane accesses take entries of their core's catalogue, behind those that wait, or wait in the request buffer (13 R205). -/
def takeEntries (s : State) (core : Nat) (es : List CatEntry) : State :=
  s.modCore core fun c =>
    let c1 := { c with catWait := c.catWait ++ es }
    takeWaiting c1 c1.catWait.length

/-- The lane accesses of a request, one entry each; the four parts of an MST share theirs, and a range is one (18 R310). -/
def Req.entries (q : Req) (i : Nat) : List CatEntry :=
  match q.op with
  | .mst (_ + 1) => []
  | _ => q.lanes.map fun a => { req := i, lane := a.lane, did := q.did, part := q.part }

/-- A request is catalogued. -/
def catalogue (s : State) (i : Nat) : State :=
  match s.req i with
  | none => s
  | some q =>
    if q.stage = .catalogued then s
    else
      ((takeEntries s q.core (q.entries i)).modReq i fun q => { q with stage := .catalogued }).modGroup q.grp fun g =>
        { g with parked := g.parked.filter (· != i) ++ [i] }

/-- An access fails translation finally: it is catalogued, as are the later accesses of its group to a byte of it, and the other parts of
its instruction that share a line with it, that have not been sent; and its failure joins or makes a pending entry (09 R151, 13 R205, 08
R138). -/
def failAccess (s : State) (i page reason lvl acc : Nat) : State :=
  match s.req i with
  | none => s
  | some q =>
    let s1 := catalogue s i
    let later := (s1.fly.reqs.filter fun e =>
      e.1 != i && !e.2.op.free && e.2.grp == q.grp && (decide (i < e.1) || e.2.iseq == q.iseq) && e.2.follows q &&
        (e.2.stage == .walk || e.2.stage == .inject)).map Prod.fst
    pendFail (later.foldl catalogue s1) (q.core / 48) q.did page reason acc lvl q.core i

/-- The pieces of a range that do not lie on MS pages, on which it has no effect (06 R99): virtual address, physical address, length. -/
def cachedParts (va : Nat) : List (Nat × Nat × Nat) → List (Nat × Nat × Nat)
  | [] => []
  | (pa, n, pte) :: r => (if pteMs pte then [] else [(va, pa, n)]) ++ cachedParts (va + n) r

/-- The drop of a line waits for the rebase, because its mts, or the host clock, would pass the last timestamp (07 R106). -/
def dropHolds (s : State) (lk : Nat) : Bool :=
  match s.line lk with
  | none => false
  | some l => tsHolds (if bridgeBase ≤ lk then s.tsAt ⟨l.rts, l.ep⟩ s.mem.bridge.ep + 1 else dropTs s l)

/-- A range operation whose turn has come acts on every line its range touches, and ends; a line the host may hold is first
back-invalidated, a pinned one is waited for (06 R98), and FLUSHR waits for the earlier BANKOPs that touch what it drops. -/
def performRange (s : State) (i : Nat) (q : Req) : State :=
  let len := q.rangeLen
  match rangePieces s q.core q.did (len / 2 ^ 14 + 2) q.va len with
  | (.error (.alien o _, _), s1) => endReq (domainFault s1 q.grp q.did q.core 4 o q.pc q.mask 0) i
  | (.error (.failed r l _, page), s1) => failAccess s1 i page r l 1
  | (.error _, s1) => s1
  | (.ok ps, s1) =>
    let parts := (cachedParts q.va ps)
    let lks := parts.flatMap fun p => linesOf s1 p.2.1 p.2.2
    let held := if q.op = .clean then [] else lks.filter fun lk => match s1.line lk with | some l => l.h | none => false
    if !held.isEmpty then
      (held.foldl (fun s lk => match s.line lk with | some l => sendBisnp s l.pa false | none => s) s1).modReq i fun q =>
        { q with stage := .inject }
    else if lks.any s1.pinned || (q.op != .clean && lks.any (dropHolds s1)) then s1
    else if q.op = .flush && parts.any fun p => bankopTouches s1 q.did i p.1 p.2.2 then s1
    else
      let r := lks.foldl (fun (a : State × List Ts) lk =>
        let b := rangeLine a.1 q.op lk
        (b.1, match b.2 with | some t => a.2 ++ [t] | none => a.2)) (s1, [])
      endReq (r.2.foldl (fun s t => raiseGroup s q.grp t) r.1) i

/-! ## Scratchpads (06 R84 to R86, R94, R95, 08 R133) -/

/-- The ordering point of a team's scratchpad. -/
def pScratch (team : Nat) : Nat := 1000 + team
/-- The key of a scratchpad row of a team. -/
def rowKey (t : Team) (row : Nat) : Nat := t.core * 4096 + t.sramBase + row
/-- Presence, owner and poison of a scratchpad row of a team. -/
def State.srow (s : State) (t : Team) (row : Nat) : SRow := (tget s.core.sramTags (rowKey t row)).getD ⟨0, false, none, false⟩
/-- The state with a scratchpad row's tag changed. -/
def State.modSrow (s : State) (t : Team) (row : Nat) (f : SRow → SRow) : State :=
  s.setCore { s.core with sramTags := tset s.core.sramTags (rowKey t row) (f (s.srow t row)) }
/-- The place of byte off of a team's scratchpad. -/
def padKey (t : Team) (off : Nat) : Nat := t.core * 2 ^ 20 + t.sramBase * 256 + off
/-- n bytes of a team's scratchpad. -/
def padBytes (s : State) (t : Team) (off n : Nat) : Bytes := memBytes s.core.sram (padKey t off) n
/-- The state with bytes of a team's scratchpad written; a row written whole loses its poison (13 R207). -/
def padPut (s : State) (t : Team) (off : Nat) (bs : Bytes) : State :=
  let s1 := s.setCore { s.core with sram := memPut s.core.sram (padKey t off) bs }
  if off % 256 = 0 ∧ bs.length = 256 then s1.modSrow t (off / 256) fun r => { r with poison := false } else s1
/-- Rows that a run of bytes touches. -/
def rowsOf (off n : Nat) : List Nat := if n = 0 then [] else (upTo ((off + n - 1) / 256 + 1 - off / 256)).map (off / 256 + ·)
/-- A row is present (06 R94). -/
def rowPresent (s : State) (t : Team) (row : Nat) : Bool := (s.srow t row).pend == 0 && !(s.srow t row).scrub

/-- The new value of an atomic operation (18 R311). -/
def atomicValue (op size v x : Nat) : Nat :=
  let w := 8 * size
  let lt : Bool := decide (signed w v < signed w x)
  match op with
  | 0 => (v + x) % 2 ^ w
  | 1 => v &&& x
  | 2 => v ||| x
  | 3 => v ^^^ x
  | 4 => if lt then v else x
  | 5 => if lt then x else v
  | 6 => x % 2 ^ w
  | _ => (resNum (if size = 4 then fp32 else fp64) .rne
      (addN false (decodeNum (if size = 4 then fp32 else fp64) v) (decodeNum (if size = 4 then fp32 else fp64) x))).1.toNat

/-- A scratchpad access is performed at its bank: in ascending lanes (08 R121, 18 R306, R311, R312). -/
def performPad (s : State) (i : Nat) (q : Req) (t : Team) : State :=
  let done := fun (s : State) => endReq s i
  match q.op with
  | .load =>
    let vals := q.lanes.map fun a => (a.lane, loadValue a.size q.sx (padBytes s t a.pa a.size))
    match q.res with
    | some rid => done (deliver s q.grp rid vals)
    | none => done s
  | .store =>
    let rows := (q.lanes.map fun a => a.pa / 256).eraseDups
    done (rows.foldl (fun s r =>
      let d := (q.lanes.filter fun a => a.pa / 256 == r).foldl (fun d a => overlay d (a.pa % 256) (leOf a.size a.data))
        (padBytes s t (r * 256) 256)
      let whole := (upTo 256).all fun b => q.lanes.any fun a => decide (a.pa ≤ r * 256 + b ∧ r * 256 + b < a.pa + a.size)
      if whole then padPut s t (r * 256) d
      else s.setCore { s.core with sram := memPut s.core.sram (padKey t (r * 256)) d }) s)
  | .atomic _ | .cas =>
    let r := q.lanes.foldl (fun (x : State × List (Nat × Nat)) a =>
      let v := leVal (padBytes x.1 t a.pa a.size)
      let w := match q.op with
        | .atomic op => atomicValue op a.size v a.data
        | _ => if v = a.data then a.data2 else v
      (padPut x.1 t a.pa (leOf a.size w), x.2 ++ [(a.lane, v)])) (s, [])
    match q.res with
    | some rid => done (deliver r.1 q.grp rid r.2)
    | none => done r.1
  | _ => done s

/-- The rows of a team's scratchpad that a request touches. -/
def Req.rows (q : Req) : List Nat := (q.lanes.flatMap fun a => rowsOf a.pa a.size).eraseDups

/-- Two scratchpad requests of a team have no row in common. -/
def Req.apart (q r : Req) : Bool := q.rows.all fun x => !r.rows.contains x

/-- A later scratchpad request stands behind an earlier one of its group at a bank of 128 rows (08 R123); a store held for a row that
is not present keeps back only what touches its rows (08 R133). -/
def Req.behindPad (r e : Req) (t : Team) : Bool :=
  let banks := fun (x : Req) => x.rows.map fun y => (t.sramBase + y) / 128
  e.grp == r.grp && e.point == r.point && e.stage == .inject && (banks e).any (banks r).contains && !(e.late && e.apart r)

/-- The rows of a scratchpad access are present. -/
def rowsHere (s : State) (q : Req) (t : Team) : Bool := q.rows.all (rowPresent s t)

/-- A scratchpad access may be performed but for its rows: what it waits for has completed, its team is resident, and no earlier
access of its group stands before it at its bank. -/
def padTurn (s : State) (i : Nat) (q : Req) (t : Team) : Bool :=
  q.waits.all (fun j => (s.req j).isNone) && !t.frozen &&
    s.fly.reqs.all fun e => decide (i ≤ e.1) || !q.behindPad e.2 t

/-- The later requests of its group that wait for a request, itself among them. -/
def waitingOn (s : State) (i : Nat) : List Nat :=
  s.fly.reqs.foldl (fun b e =>
    if i < e.1 ∧ (e.2.waits.any b.contains ||
        match s.team (e.2.point - 1000) with
        | some t => decide (1000 ≤ e.2.point) && s.fly.reqs.any fun f => decide (f.1 < e.1) && b.contains f.1 && e.2.behindPad f.2 t
        | none => false) then b ++ [e.1] else b) [i]

/-- A store held for a row that was not present is performed after every later access of its group and run to another row, but those
that wait for it (08 R133). -/
def lateTurn (s : State) (i : Nat) (q : Req) : Bool :=
  let open' := match (s.group q.grp).bind (·.run) with | some r => r.num == q.run && !r.closed | none => false
  let on := waitingOn s i
  !open' && s.fly.reqs.all fun e =>
    decide (e.1 ≤ i) || e.2.grp != q.grp || e.2.run != q.run || decide (e.2.point < 1000) || on.contains e.1 ||
      (e.2.point == q.point && !e.2.apart q)

/-- The owner of a row of a request that the team of its domain does not hold (01 R18 codes 1 and 2). -/
def Req.rowOwner (s : State) (q : Req) (t : Team) : Option Nat :=
  q.rows.findSome? fun r => if (s.srow t r).owner = some q.did then none else some ((s.srow t r).owner.getD 0)

/-- The first poisoned row that a request reads (13 R207). -/
def Req.badRow (s : State) (q : Req) (t : Team) : Option Nat :=
  if q.op = .store then none else q.rows.find? fun r => (s.srow t r).poison

/-- A scratchpad access whose turn has come: one to a team that has retired meanwhile traps (06 R86); another meets the owner tags and the
poison of its rows, and is performed. -/
def meetPad (s : State) (i : Nat) (q : Req) (t : Team) : State :=
  if t.retired then
    endReq (addBoundaryTrap s q.grp
      { cause := cBOUNDS, sub := 0, info := (q.lanes.headD default).va, pc := q.pc, depth := 0, mask := q.mask, word := false, owner := 0 }) i
  else match q.rowOwner s t with
  | some o =>
    endReq (domainFault s q.grp q.did q.core (if q.grp / 64 = q.point - 1000 then 1 else 2) o q.pc q.mask 0) i
  | none => match q.badRow s t with
    | some r => endReq (addBoundaryTrap s q.grp
      { cause := cECC, sub := 3, info := r, pc := q.pc, depth := 0, mask := q.mask, word := false, owner := 0 }) i
    | none => performPad s i q t

/-- A scratchpad access is performed once its turn has come and its rows are present; a store that finds a row not present is held for
it. -/
def pumpPad (s : State) (i : Nat) (q : Req) (t : Team) : State :=
  if q.stage ≠ .inject || !padTurn s i q t then s
  else if !t.retired && !rowsHere s q t then (if q.op = .store then s.modReq i fun q => { q with late := true } else s)
  else if q.late && !lateTurn s i q then s
  else meetPad s i q t

/-! ## Sending -/

/-- Looks at one request: a scratchpad access whose turn has come acts, as does a range operation that holds its token; another joins its
partition's injection queue. -/
def pumpOne (s : State) (i : Nat) : State :=
  match s.req i with
  | none => s
  | some q =>
    if 1000 ≤ q.point then
      match s.team (q.point - 1000) with
      | some t => pumpPad s i q t
      | none => s
    else if q.stage = .inject ∧ mayGo s i q then
      if q.op.isRange ∧ (q.paid ≠ 0 ∨ bits (s.part q.part).lim0.toNat 47 32 = 0) then performRange s i q
      else
        (s.modCore q.core fun c =>
          { c with inj := tset c.inj q.part ((tget c.inj q.part).getD [] ++ [i]) }).modReq i fun q =>
            { q with stage := .queued, t0 := s.sys.fab }
    else s

/-- Looks at every request in issue order, and at those held for a row once more. -/
def pump (s : State) : State :=
  let s1 := (s.fly.reqs.map Prod.fst).foldl pumpOne s
  ((s1.fly.reqs.filter (·.2.late)).map Prod.fst).foldl pumpOne s1

/-- The state with a request translated by a leaf: its lanes get their physical addresses and it its ordering point; the parts
of an MST on a page without REPL give way to one store (18 R306), those on a REPL page reach the four copies (06 R102). -/
def translated (s : State) (i : Nat) (e : TlbEntry) : State :=
  match s.req i with
  | none => s
  | some q =>
    let d := q.core / 48
    let at' := fun (q : Req) (d : Nat) =>
      let ls := q.lanes.map fun a => { a with pa := physOf e d a.va }
      { q with lanes := ls, pte := some e.pte, lvl := e.lvl, point := pointOf s ((ls.head?.map (·.pa)).getD 0) (pteMs e.pte) }
    match q.op with
    | .mst c =>
      if pteRepl e.pte then s.modReq i fun q => { at' q c with stage := .inject }
      else if c = 0 then s.modReq i fun q => { at' q d with op := .store, stage := .inject }
      else s.delReq i
    | .fetch => s.delReq i
    | _ =>
      let s1 := s.modReq i fun q => at' q d
      match s1.req i with
      | some q1 => meetL1 s1 i q1
      | none => s1

/-- What a request needs of its leaf (09 R146). -/
def ReqOp.access (o : ReqOp) : Nat :=
  match o with
  | .load | .prefetch _ | .probe | .clean | .inval | .flush => 1
  | .store | .mst _ | .red _ => 2
  | .atomic _ | .cas | .push | .pop => 3
  | .fetch => 4

/-- A PREF that cannot proceed is dropped (09 R146, 18 R308). -/
def dropPref (s : State) (i : Nat) : State := s.delReq i

/-- A page kind that an instruction refuses: PREF on an MS page or on host memory is dropped, and a queue line off a cacheable
device page without REPL traps with BOUNDS (18 R308, R315). -/
def pageRefuses (e : TlbEntry) (o : ReqOp) : Bool :=
  match o with
  | .prefetch _ => pteMs e.pte || isHost (ptePa e.pte)
  | .push | .pop => pteMs e.pte || pteRepl e.pte || isHost (ptePa e.pte)
  | _ => false

/-- A request uses a leaf that permits it, unless its instruction refuses such a page. -/
def useLeaf (s : State) (i : Nat) (q : Req) (e : TlbEntry) : State :=
  if pageRefuses e q.op then
    match q.op with
    | .prefetch _ => dropPref s i
    | _ => endReq (addBoundaryTrap s q.grp
        { cause := cBOUNDS, sub := 0, info := q.va, pc := q.pc, depth := 0, mask := q.mask, word := true, owner := 0 }) i
  else translated s i e

/-- A request looks up its translation: a TLB entry that permits it serves it, one that does not is dropped, and a miss starts or
joins a walk (09 R147, R148, R151). -/
def lookUp (s : State) (i : Nat) : State :=
  match s.req i with
  | none => s
  | some q =>
    let walkIt := fun (s : State) => (startWalk s (q.core / 48) q.did q.page).modReq i fun q => { q with stage := .walk }
    match tlbFind s q.core q.did q.page with
    | none => walkIt s
    | some (e, s1) => if allowed e.pte q.op.access then useLeaf s1 i q e else walkIt (tlbDrop s1 q.core q.did q.page)

/-- A new request enters: one behind a catalogued access of its group to a common byte, or of its instruction on its line, is catalogued
itself (13 R205, 08 R138); a remote one needs no local translation; any other looks up its translation. -/
def enter (s : State) (q : Req) : State :=
  let (i, s1) := s.fresh
  let s2 := s1.setReq i q
  if s2.fly.reqs.any fun e => decide (e.1 < i) && e.2.grp == q.grp && e.2.stage == .catalogued && !q.op.free && q.follows e.2 then catalogue s2 i
  else match q.rmt with
    | some l => s2.modReq i fun q => { q with stage := .inject, point := 137 + l }
    | none => if q.op.isRange then s2.modReq i fun q => { q with stage := .inject } else lookUp s2 i

end Sys2Proof.Machine
end

