-- ==== Sys2Proof/Machine/Ends.lean ====
section
/-! DEFINITION. What other units see of a group and do to it: the path it runs next (04 R60), the traps it takes (13 R200, R201),
held results, quiescence and the curator's marks (12 R187, R192), the end of a gate call (01 R24, R25), and its exit (04 R67). -/

namespace Sys2Proof.Machine

/-! ## Paths -/

/-- The order of paths by PC and then call depth. -/
def Path.rank (p : Path) : Nat := p.pc * 64 + p.depth

/-- A path's outstanding memory operations: its stores, MST, RED, FPUSH, engine commands and SCRUBs (04 R60, 19 R358). -/
def outstanding (s : State) (k : Nat) (p : Path) : Nat :=
  let mine := s.fly.reqs.filter fun e =>
    let q := e.2
    q.grp == k && (match q.op with | .store | .mst _ | .red _ | .push => true | _ => false) &&
      q.lanes.any fun a => if a.lane = 32 then (q.mask &&& p.mask) != 0#32 else inMask p.mask a.lane
  ((mine.map fun e => e.2.iseq).eraseDups).length +
  (s.fly.cmds.filter fun e => e.2.grp == k && (e.2.mask &&& p.mask) != 0#32).length +
  (s.fly.scrubs.filter fun e => e.2.grp == k && (e.2.mask &&& p.mask) != 0#32).length

/-- The path that a group runs next (04 R60). -/
def nextPath (s : State) (k : Nat) (g : Group) : Option Path :=
  let ready := g.paths.filter Path.isReady
  match leastBy Path.rank (ready.filter fun p => p.due || decide (256 ≤ p.timer)) with
  | some p => some p
  | none =>
    match (if g.yielded then none else ready.find? fun p => inMask p.mask g.justRun) with
    | some p => some p
    | none => leastBy (fun p => outstanding s k p * 2 ^ 64 + p.rank) ready

/-- The operations that have not reached their home and for which paths wait are withdrawn: the words that began them will issue
again (13 R201, 05 R78). -/
def withdraw (s : State) (ws : List (Nat × Wait)) : State :=
  ws.foldl (fun s w => match w.2 with
    | .post j => (s.delReq j).setFly { (s.delReq j).fly with posts := tdel s.fly.posts j }
    | _ => s) s

/-! ## Traps -/

/-- A trap is taken: by a matrix sequencer, or inside a handler, it stops the domain (13 R202, 04 R64). -/
def enterTrap (s : State) (k : Nat) (t : Trap) (others : List Path) (waits : List (Nat × Wait)) (fence : List Nat) : State :=
  match s.group k with
  | none => s
  | some g =>
    if g.isSeq then stopDomain s (s.didOf g) 3 t.cause (s.coreOf g) t.info
    else if g.handler.isSome then stopDomain s (s.didOf g) 2 t.cause (s.coreOf g) t.info
    else takeTrap s k t others waits fence 0

/-- Where a path resumes: its PC, or the word that blocks it or that its lanes stand at, which issues again (13 R201). -/
def Path.resume (p : Path) : Nat :=
  match p.waits with
  | w :: _ => w.1
  | [] => p.rdv.getD p.pc

/-- The path that a boundary cause names: that of the lowest live lane that raised it; for MSG_OVERFLOW and PREEMPT the one that
would run next, else the blocked one with the lowest PC (13 R201). -/
def sourcePath (s : State) (k : Nat) (g : Group) (t : Trap) : Option Path :=
  let byRule := match nextPath s k g with
    | some p => some p
    | none => leastBy Path.rank g.paths
  if t.cause = cMSGOVF ∨ t.cause = cPREEMPT then byRule
  else match g.paths.find? fun p => inMask p.mask (lowLane (t.mask &&& g.live)) with
    | some p => some p
    | none => byRule

/-- The lowest-numbered live group of a team, groups 0 to 31 only. -/
def lowestLive (s : State) (team : Nat) : Option Nat :=
  (s.work.groups.find? fun (e : Nat × Group) =>
    e.2.team == team && decide (e.2.gid < 32) && e.2.st != .exited && e.2.st != .empty).map Prod.fst

/-- The MSG_OVERFLOW trap that a marked team owes to its lowest-numbered live group: the source and tag of the first drop and the
number of drops since the mark (10 R164). -/
def overflowTrap (s : State) (k : Nat) (g : Group) : List Trap :=
  match (s.teamOf g).bind (·.drops) with
  | some d =>
    if lowestLive s g.team = some k then
      [{ cause := cMSGOVF, sub := 0, info := d.1 + min d.2 255 * 2 ^ 52, pc := 0, depth := 0, mask := g.live, word := false, owner := 0 }]
    else []
  | none => []

/-- The pending boundary cause of lowest code is taken where the group stands at a boundary (13 R200). -/
def takePending (s : State) (k : Nat) : State :=
  match s.group k with
  | none => s
  | some g =>
    match leastBy (fun (t : Trap) => t.cause) (g.btraps ++ overflowTrap s k g) with
    | none => s
    | some t =>
      match sourcePath s k g t with
      | none => s
      | some p =>
        let t1 := { t with pc := if t.word then t.pc else p.resume, depth := p.depth, mask := p.mask }
        let s1 := if t.cause = cMSGOVF then s.modTeam g.team fun t => { t with drops := none } else s
        enterTrap ((withdraw s1 p.waits).modGroup k fun g => { g with btraps := g.btraps.filter (·.cause != t.cause) }) k t1
          (g.paths.filter (· != p)) [] p.fence

/-- A pending cause is taken by a group in READY or BLOCKED that is in no handler. -/
def takeAtRest (s : State) (k : Nat) : State :=
  match s.group k with
  | some g => if g.handler.isNone ∧ g.run.isNone ∧ g.owed.isEmpty ∧ (g.st = .ready ∨ g.st = .blocked) then takePending s k else s
  | none => s

/-- A group without a run in progress of which an operation is catalogued is fault-parked at once (09 R151). -/
def faultAtRest (s : State) (k : Nat) : State :=
  s.modGroup k fun g =>
    if g.run.isNone ∧ (g.st = .ready ∨ g.st = .blocked ∨ g.st = .trap) then { g with st := .fault } else g

/-! ## Results of other units -/

/-- Results with the one of a number given its value and complete. -/
def completeResult (l : List Result) (rid v : Nat) : List Result :=
  l.map fun r => if r.src = some rid then { r with vals := [(32, v)], done := true } else r

/-- Writes results to their destinations, in issue order, in the lanes that have a value (04 R56). -/
def writeResults (s : State) (k : Nat) (l : List Result) : State :=
  l.foldl (fun s r =>
    let has := fun (l : Nat) => r.vals.any fun e => e.1 == l || e.1 == 32
    let m := r.lanes &&& maskOf has
    let fl := fun (l : Nat) => ((r.flags.find? (·.1 == l)).map (·.2)).getD 0#8
    (writeDest s k r.dest m (resultValue r.vals)).modGroup k fun g => g.orFlags fl r.lanes) s

/-- A result that a group holds is written as soon as it is known, where the group is resident and no run awaits it. -/
def payOwed (s : State) (k : Nat) : State :=
  match s.group k with
  | none => s
  | some g =>
    if g.st = .frozen ∨ g.st = .evicted ∨ g.owed.isEmpty ∨ g.owed.any (!·.done) then s
    else
      (writeResults s k g.owed).modGroup k fun g =>
        { g with owed := [], st := if g.st = .blocked ∧ g.run.isNone ∧ g.handler.isNone then restState g.paths else g.st }

/-- The value of a result of a group that waits on another party is known. -/
def finishResult (s : State) (k rid v : Nat) : State :=
  payOwed (s.modGroup k fun g => { g with results := completeResult g.results rid v, owed := completeResult g.owed rid v }) k

/-! ## Quiescence (12 R187, R192) -/

/-- The memory operations and commands that lanes of a group issued inside a read-side section and that have not completed. -/
def sout (s : State) (k : Nat) : Nat :=
  (s.fly.reqs.filter fun e => e.2.grp == k && e.2.rs && !e.2.op.free && !e.2.op.isRange).length +
  (s.fly.cmds.filter fun e => e.2.grp == k && e.2.rs).length

/-- Every live lane has depth 0 and SOUT is 0. -/
def quiescent (s : State) (k : Nat) (g : Group) : Bool :=
  ((lanesOf g.live).all fun l => g.depth.getD l 0 == 0) && sout s k == 0

/-- A group in this state is seen where it is quiescent; one that has left the live states at once. -/
def seenIn (st : GState) : Bool :=
  match st with
  | .ready | .blocked | .fault | .rendezvous | .frozen | .evicted => true
  | _ => false

/-- The operations that a group in FAULT will re-issue carry its raised timestamp (12 R192, R193). -/
def raiseParked (s : State) (k : Nat) : State :=
  match s.group k with
  | none => s
  | some g =>
    if g.st ≠ .fault then s
    else s.setFly
      { s.fly with reqs := s.fly.reqs.map fun e => (e.1, if e.2.grp = k ∧ e.2.stage = .catalogued then { e.2 with gts := g.gts } else e.2)
                   cmds := s.fly.cmds.map fun e =>
                     (e.1, if e.2.grp = k ∧ e.2.parked ∧ e.2.phase = 0 then { e.2 with cts := g.gts, maxts := g.gts } else e.2) }

/-- A marked group that shows what the curator waits for becomes seen, its timestamp raised to TRUN (12 R192). -/
def seeGroup (s : State) (k : Nat) : State :=
  match s.group k with
  | none => s
  | some g =>
    let did := s.didOf g
    let cur := (s.dom did).cur
    let unmark := fun (s : State) => s.modDom did fun d => { d with cur := { d.cur with marked := d.cur.marked.filter (· / 4 != k) } }
    if !cur.marked.any (· / 4 == k) then s
    else if g.st = .exited ∨ g.st = .empty then unmark s
    else if seenIn g.st ∧ quiescent s k g then raiseParked (unmark (raiseAll s k cur.trun)) k
    else s

/-! ## Gate calls (01 R24, R25) -/

/-- TARGET_GONE. -/
def gTargetGone : Nat := 6

/-- The domain whose inbox holds a call, and the call. -/
def findCall (s : State) (id : Nat) : Option (Nat × Call) :=
  s.adm.doms.findSome? fun e => (e.2.inbox.find? (·.id == id)).map fun c => (e.1, c)

/-- The state without a call. -/
def dropCall (s : State) (id : Nat) : State :=
  match findCall s id with
  | none => s
  | some (d, c) =>
    let s1 := s.modDom d fun x => { x with inbox := x.inbox.filter (·.id != id) }
    match c.taker with
    | some t => s1.modGroup t fun g => if g.call = some id then { g with call := none } else g
    | none => s1

/-- A call ends with a status: it is gone, and the caller's result is known (01 R24, R25). -/
def endCall (s : State) (id status : Nat) : State :=
  match findCall s id with
  | none => s
  | some (_, c) =>
    let s1 := (dropCall s id).modGroup c.caller fun g => { g with outCall := none }
    let s2 := match s1.group c.caller with
      | some g =>
        if (g.st = .frozen ∨ g.st = .evicted) ∧ !g.isSeq then rewriteFrame s1 g (setBits (readFrame s1 g) 3017 3017 0) else s1
      | none => s1
    finishResult s2 c.caller id status

/-! ## Frost (05 R75) -/

/-- A group counts as frozen for its team. -/
def GState.still (x : GState) : Bool :=
  match x with
  | .frozen | .evicted | .exited | .empty => true
  | _ => false

/-- The groups and the matrix sequencer of a team. -/
def membersOf (s : State) (team : Nat) : List (Nat × Group) := s.work.groups.filter fun e => e.2.team == team

/-- A FROST whose named teams are all frozen, or gone, returns DONE. -/
def frostDone (s : State) (did : Nat) : State :=
  let d := s.dom did
  let open' := d.freezing.filter fun e => match s.team e.2 with | some t => t.freezing | none => false
  let done := ((d.freezing.map (·.1)).eraseDups).filter fun fn => !open'.any (·.1 == fn)
  done.foldl (fun s fn => setFrost s fn 0) (s.modDom did fun d => { d with freezing := open' })

/-- A team that is freezing is frozen once each of its groups is. -/
def noteFrozen (s : State) (team : Nat) : State :=
  match s.team team with
  | none => s
  | some t =>
    let ms := membersOf s team
    if t.freezing && ms.all fun e => e.2.st.still then
      frostDone (s.modTeam team fun t =>
        { t with freezing := false, frozen := ms.any fun e => e.2.st == .frozen || e.2.st == .evicted }) t.did
    else s

/-! ## Exit -/

/-- A group has no live lane: it is EXITED; a call that it has taken ends with TARGET_GONE, and the curator sees it
(04 R67, 01 R25, 12 R192). -/
def exitGroup (s : State) (k : Nat) : State :=
  match s.group k with
  | none => s
  | some g =>
    let s1 := match g.call with
      | some id => endCall s id gTargetGone
      | none => s
    noteFrozen (seeGroup (s1.modGroup k fun g =>
      { g with st := .exited, live := 0#32, paths := [], run := none, results := [], owed := [], btraps := [], handler := none,
               preempt := false, call := none }) k) g.team

end Sys2Proof.Machine
end

