-- ==== Sys2Proof/Machine/Phaser.lean ====
section
/-! DEFINITION. Phasers at their homes (11 R170 to R185): the object, the operations, turns and the waiters they wake, engine
updates. A phaser in SRAM stands in a team's phaser row or in a ring frame; one in device memory at its home slice. -/

namespace Sys2Proof.Machine

/-! ## The object (11 R170) -/

/-- GEN. -/
def phGen (p : Nat) : Nat := bits p 3 0
/-- PEND. -/
def phPend (p : Nat) : Nat := bits p 15 4
/-- SREG. -/
def phSreg (p : Nat) : Nat := bits p 25 16
/-- WREG. -/
def phWreg (p : Nat) : Nat := bits p 35 26
/-- A signed 24-bit field. -/
def sext24 (x : Nat) : Int := if x < 2 ^ 23 then x else (x : Int) - 2 ^ 24
/-- INB. -/
def phInb (p : Nat) : Int := sext24 (bits p 59 36)
/-- OUTB. -/
def phOutb (p : Nat) : Int := sext24 (bits p 83 60)
/-- MAXTS with its epoch. -/
def phTs (p : Nat) : Ts := ⟨bits p 123 84, p.testBit 124⟩
/-- The phase is complete. -/
def phComplete (p : Nat) : Bool := phPend p == 0 && phInb p == 0 && phOutb p == 0
/-- A phaser after its team starts (11 R170, R173). -/
def phFresh (s : State) : Nat := if newEpoch s then 2 ^ 124 else 0

/-- PHASER subcodes (11 R180). -/
def phNUMBER : Nat := 1
/-- PLACE. -/
def phPLACE : Nat := 2
/-- OVER. -/
def phOVER : Nat := 3
/-- MEMBER. -/
def phMEMBER : Nat := 4
/-- COUNT. -/
def phCOUNT : Nat := 5
/-- BYTES. -/
def phBYTES : Nat := 6
/-- GEN. -/
def phGEN : Nat := 7
/-- FORMAT. -/
def phFORMAT : Nat := 8

/-- MAXTS moved to the device epoch by the first operation that finds another (07 R116, 11 R178). -/
def phRebase (p : Nat) (ep : Bool) : Nat :=
  let t := phTs p
  if t.ep = ep then p else setBits (setBits p 123 84 (t.at ep)) 124 124 (if ep then 1 else 0)

/-- What an operation does to the counts: changes of SREG, WREG, PEND, INB and OUTB, and an arrival's timestamp. -/
structure PhOp where
  sreg : Int := 0
  wreg : Int := 0
  pend : Int := 0
  inb : Int := 0
  outb : Int := 0
  ts : Option Ts := none
  deriving DecidableEq, Repr

/-- An operation on a phaser, or the subcode that refuses it (11 R174 to R180); the phaser is then as it was. -/
def phApply (p : Nat) (ep : Bool) (o : PhOp) : Except Nat Nat :=
  let sr := (phSreg p : Int) + o.sreg
  let wr := (phWreg p : Int) + o.wreg
  let pe := (phPend p : Int) + o.pend
  let i := phInb p + o.inb
  let u := phOutb p + o.outb
  let inRange := fun (x : Int) => decide (-(2 ^ 23) ≤ x ∧ x ≤ 2 ^ 23 - 1)
  if bits p 127 125 ≠ 0 then .error phFORMAT
  else if pe < 0 then .error phOVER
  else if sr < 0 ∨ 1023 < sr ∨ wr < 0 ∨ 1023 < wr then .error phCOUNT
  else if !inRange i || !inRange u then .error phBYTES
  else
    let q := setBits (setBits (setBits (setBits (setBits p 15 4 pe.toNat) 25 16 sr.toNat) 35 26 wr.toNat) 59 36
      (i % 2 ^ 24).toNat) 83 60 (u % 2 ^ 24).toNat
    let q1 := phRebase q ep
    .ok (match o.ts with
      | some t => setBits q1 123 84 (max (phTs q1).v (t.at ep))
      | none => q1)

/-- The operation changes what the completion test looks at. -/
def PhOp.tests (o : PhOp) : Bool := o.pend != 0 || o.inb != 0 || o.outb != 0

/-- A turn (11 R172). -/
def phTurn (p : Nat) : Nat := setBits (setBits p 3 0 (phGen p + 1)) 15 4 (phSreg p)

/-! ## Waiters -/

/-- A group without the waits that satisfy a test. -/
def Group.dropWaits (g : Group) (f : Wait → Bool) : Group :=
  let path := fun (p : Path) => { p with waits := p.waits.filter fun w => !f w.2 }
  { g with paths := g.paths.map path
           run := g.run.map fun r => { r with waits := r.waits.filter fun w => !f w.2.2 }
           handler := g.handler.map fun h =>
             { h with held := h.held.map path, waits := h.waits.filter fun w => !f w.2 } }

/-- Some path or run of the group has a wait that satisfies a test. -/
def Group.waitsOn (g : Group) (f : Wait → Bool) : Bool :=
  g.paths.any (fun p => p.waits.any fun w => f w.2) ||
  (match g.run with | some r => r.waits.any fun w => f w.2.2 | none => false) ||
  (match g.handler with
    | some h => h.held.any (fun p => p.waits.any fun w => f w.2) || h.waits.any fun w => f w.2
    | none => false)

/-- A group whose paths may have become ready: equal ones merge, and a BLOCKED group is READY (04 R59, R67). -/
def Group.wakened (g : Group) : Group :=
  let ps := reGang g.paths
  { g with paths := ps, st := if g.st = .blocked ∧ g.run.isNone ∧ g.owed.isEmpty then restState ps else g.st }

/-- The waits that satisfy a test end, in every group, as acquires of a timestamp (11 R178, 12 R190). -/
def endWaits (s : State) (f : Wait → Bool) (t : Ts) : State :=
  ((s.work.groups.filter fun e => e.2.waitsOn f).map Prod.fst).foldl (fun s k =>
    raiseGroup (s.modGroup k fun g => (g.dropWaits f).wakened) k t) s

/-- A group whose waits without a record at a phaser's home have seen its turn (11 R177). -/
def Group.noteTurn (g : Group) (addr : Nat) : Group :=
  let note := fun (w : Wait) => match w with
    | .retest a b => .retest a (b || a == addr)
    | w => w
  let path := fun (p : Path) => { p with waits := p.waits.map fun w => (w.1, note w.2) }
  { g with paths := g.paths.map path
           run := g.run.map fun r => { r with waits := r.waits.map fun w => (w.1, w.2.1, note w.2.2) }
           handler := g.handler.map fun h =>
             { h with held := h.held.map path, waits := h.waits.map fun w => (w.1, note w.2) } }

/-- A timestamp and its epoch as one number. -/
def tsCode (t : Ts) : Nat := t.v + if t.ep then 2 ^ 40 else 0

/-- The records that wait on a device phaser see the generation that a turn leaves (02 R33). -/
def noteQueues (s : State) (addr p : Nat) : State :=
  let note := fun (q : Queue) => match q.waitGen, q.record with
    | some (a, 0), some r => if a = addr ∧ phGen p = r.waitgen then { q with waitGen := some (a, 1 + tsCode (phTs p)) } else q
    | _, _ => q
  s.setAdm { s.adm with queues := s.adm.queues.map fun e => (e.1, note e.2) }

/-- A phaser's turn wakes its waiters (11 R172, R177, R183). -/
def wakePhaser (s : State) (dev : Bool) (addr p : Nat) : State :=
  let s := if dev then noteQueues (s.mapGroups fun _ g => g.noteTurn addr) addr p else s
  endWaits s (fun w => match w with
    | .phaser d a par => d == dev && a == addr && (match par with | none => true | some b => b == (phGen p % 2 == 1))
    | _ => false) (phTs p)

/-! ## Engine updates (11 R179, R180) -/

/-- A PHASER fault of an engine update: to the group that issued the command; to the team's lowest live group where that is the
sequencer or has exited; to none where no group is live. -/
def phaserFault (s : State) (team grp sub info : Nat) : State :=
  let live := fun (g : Group) => decide (g.gid < 32) && g.st != .exited && g.st != .empty
  let low := lowestLive s team
  let k : Option Nat := match s.group grp with
    | some g => if live g then some grp else low
    | none => low
  match k with
  | none => s
  | some k =>
    let m := ((s.group k).map (·.live)).getD 0#32
    takeAtRest (addBoundaryTrap s k
      { cause := cPHASER, sub := sub, info := info, pc := 0, depth := 0, mask := m, word := false, owner := 0 }) k

/-- A DOMAIN fault of an engine command is logged and delivered to the group that issued it (01 R19). -/
def engineDomain (s : State) (grp did core code owner : Nat) : State :=
  let m := ((s.group grp).map (·.live)).getD 0#32
  takeAtRest (domainFault s grp did core code owner 0 m 0) grp

/-- The state with an engine command's status set, where it has none yet. -/
def failCmd (s : State) (c status : Nat) : State :=
  s.setFly { s.fly with cmds := tmod s.fly.cmds c fun x => if x.status = 0 then { x with status := status } else x }

/-- An update is refused: it is discarded, its command ends with status PHASER, and its team takes the fault. -/
def refuseUpd (s : State) (i : Nat) (u : Upd) (sub : Nat) : State :=
  phaserFault (failCmd (s.setFly { s.fly with upds := tdel s.fly.upds i }) u.cmd 7) u.team u.grp sub u.info

/-- What an update of a kind does. -/
def Upd.op (u : Upd) : PhOp :=
  if u.kind = 1 then { inb := -u.n } else if u.kind = 2 then { outb := -u.n } else { pend := -1, ts := some u.ts }

/-- The updates at a phaser that have reached it, in the order in which they did. -/
def updsAt (s : State) (dev : Bool) (addr : Nat) (held : Bool) : List (Nat × Upd) :=
  let l := s.fly.upds.filter fun e => e.2.dev == dev && e.2.addr == addr && e.2.order != 0 && e.2.held == held
  sortBy (fun a b => decide (a.2.order ≤ b.2.order)) l

/-- The home of a phaser: the phaser unit of a core, whose SRAM holds it, or a slice (11 R171). -/
def phaserHome (s : State) (dev : Bool) (addr : Nat) : Nat := if dev then 2 ^ 60 + homeSlice s addr else addr / 2 ^ 20

/-- The updates that a home holds. -/
def heldAt (s : State) (home : Nat) : Nat :=
  (s.fly.upds.filter fun e => e.2.held && e.2.order != 0 && phaserHome s e.2.dev e.2.addr == home).length

/-- An update is held at its home for the next generation. -/
def holdUpd (s : State) (i : Nat) : State := s.setFly { s.fly with upds := tmod s.fly.upds i fun u => { u with held := true } }

/-- Freed places of a home go to its stalled updates in the order in which they reached it (11 R179). -/
def grantPlaces (s : State) (home : Nat) : Nat → State
  | 0 => s
  | n + 1 =>
    let stalled := s.fly.upds.filter fun e => !e.2.held && e.2.order != 0 && phaserHome s e.2.dev e.2.addr == home
    match leastBy (fun (e : Nat × Upd) => e.2.order) stalled with
    | none => s
    | some e => if heldAt s home < 32 then grantPlaces (holdUpd s e.1) home n else s

/-- The home tests for completion after an operation, and a complete phase turns: its waiters wake, and the updates held for the
new generation, and after them those that found no place, are applied in order, each with a test of its own (11 R172, R179); one that a
turn within has taken is not met again. The first argument bounds the turns; each takes an update with it. -/
def settlePh (fuel : Nat) (s : State) (dev : Bool) (addr p : Nat) : State × Nat :=
  match fuel with
  | 0 => (s, p)
  | n + 1 =>
    if !phComplete p then (s, p)
    else
      let p1 := phTurn p
      let s1 := wakePhaser s dev addr p1
      let us := (updsAt s1 dev addr true).filter (fun e => e.2.gen == phGen p1) ++ updsAt s1 dev addr false
      us.foldl (fun (a : State × Nat) e =>
        let (i, u) := e
        if (tget a.1.fly.upds i).isNone then a
        else if u.gen = phGen a.2 then
          match phApply a.2 (newEpoch a.1) u.op with
          | .error sub => (refuseUpd a.1 i u sub, a.2)
          | .ok q => settlePh n (a.1.setFly { a.1.fly with upds := tdel a.1.fly.upds i }) dev addr q
        else if u.gen = (phGen a.2 + 1) % 16 then
          if heldAt a.1 (phaserHome a.1 dev addr) < 32 then (holdUpd a.1 i, a.2) else a
        else (refuseUpd a.1 i u phGEN, a.2)) (s1, p1)

/-- An operation with its completion test. -/
def operate (s : State) (dev : Bool) (addr p : Nat) (o : PhOp) : Except Nat (State × Nat) :=
  match phApply p (newEpoch s) o with
  | .error sub => .error sub
  | .ok q =>
    if o.tests then
      let r := settlePh (s.fly.upds.length + 2) s dev addr q
      .ok (grantPlaces r.1 (phaserHome s dev addr) r.1.fly.upds.length, r.2)
    else .ok (s, q)

/-! ## Homes -/

/-- The phaser at a place of SRAM. -/
def sramPhaser (s : State) (addr : Nat) : Nat := leVal (memBytes s.core.sram addr 16)

/-- The state with a phaser of SRAM written. -/
def setSramPhaser (s : State) (addr p : Nat) : State :=
  s.setCore { s.core with sram := memPut s.core.sram addr (leOf 16 p) }

/-- An operation on a phaser of SRAM. -/
def operateSram (s : State) (addr : Nat) (o : PhOp) : Except Nat State :=
  match operate s false addr (sramPhaser s addr) o with
  | .error sub => .error sub
  | .ok r => .ok (setSramPhaser r.1 addr r.2)

/-- The phasers of a team (03 R47, 06 R85). -/
def teamPhasers (s : State) (t : Team) : Nat := ((s.launchOf t).map (·.phasers)).getD 0

/-- The place of team phaser n: byte 16 n of the phaser row, which stands after the program's scratchpad rows (06 R85). -/
def phaserKey (s : State) (t : Team) (n : Nat) : Nat := padKey t (((s.launchOf t).map (·.srows)).getD 0 * 256 + 16 * n)

/-- How an access of a unit to a line of device memory ends: it must wait, it is refused, or the line may be written. -/
inductive Touch where
  | wait (s : State)
  | denied (cause sub info owner : Nat) (s : State)
  | line (lk : Nat) (s : State)

/-- The timestamp that a write of a line would take. -/
def lineWriteTs (s : State) (lk : Nat) (gts : Ts) : Ts :=
  match s.line lk with
  | some l => ⟨writeTs s l (s.tsAt gts l.ep), l.ep⟩
  | none => gts

/-- A unit's atomic access to a line at its home slice: the key and poison checks, back-invalidation of the host, and room for its
timestamp (01 R18 code 4, 13 R207, 07 R118, R106). -/
def touchLineFor (s : State) (pa key va : Nat) (gts : Ts) : Touch :=
  match getLine s (homeSlice s pa) pa with
  | .wait s1 => .wait s1
  | .line lk s1 =>
    match keyMismatch s1 lk [bits pa 7 7] key with
    | some o => .denied cDOMAIN 0 4 o s1
    | none =>
      if linePoisoned s1 lk [bits pa 7 7] then .denied cECC (eccSub s1 lk [bits pa 7 7]) (va / 128 * 128) 0 s1
      else match s1.line lk with
        | none => .wait s1
        | some l =>
          if l.h then .wait (if awaitsBirsp s1 l.pa then s1 else sendBisnp s1 l.pa true)
          else if tsHolds (lineWriteTs s1 lk gts).v then .wait s1
          else .line lk s1

/-- The 16 B at an address of a line. -/
def lineField (s : State) (lk pa n : Nat) : Nat :=
  ((s.line lk).map fun l => leVal ((l.data.drop (pa % 256)).take n)).getD 0

/-- Bytes written to a line as one write under its lease and a key (07 R109, 01 R382). -/
def putLine (s : State) (lk pa key : Nat) (gts : Ts) (bs : Bytes) : State :=
  match s.line lk with
  | none => s
  | some l =>
    let data := overlay l.data (pa % 256) bs
    (leaseWrite (adoptKey s lk key) (homeSlice s pa) lk (s.tsAt gts l.ep) data (changedSectors l.data data) 0).2

/-- An operation on a device phaser: one atomic of its line (11 R171). Its arrivals set MAXTS to the write's own timestamp
(11 R178). A refused one changes nothing (11 R180). -/
def operateLine (s : State) (lk pa key : Nat) (gts : Ts) (o : PhOp) : State × Option Nat :=
  let t := lineWriteTs s lk gts
  let p := lineField s lk pa 16
  match operate s true pa p { o with ts := o.ts.map fun _ => t } with
  | .error sub => (s, some sub)
  | .ok r => (putLine r.1 lk pa key gts (leOf 16 r.2), none)

/-- The page of a leaf may hold a device phaser: cacheable device memory without REPL or MS (11 R171). -/
def phaserPage (e : TlbEntry) : Bool := !pteRepl e.pte && !pteMs e.pte && !isHost (ptePa e.pte)

/-- An update reaches its home: applied, held for the next generation, left without a place, or refused (11 R179); one for a team
whose rows have been evicted waits. -/
def arriveUpd (s : State) (i : Nat) (u : Upd) : State :=
  let (n, s1) := s.fresh
  if !u.dev ∧ 2 ^ 50 ≤ u.addr then s else
  let hold := fun (s : State) (g : Nat) (addr : Nat) =>
    if u.gen = (g + 1) % 16 then
      let place := decide (heldAt s (phaserHome s u.dev addr) < 32)
      s.setFly { s.fly with upds := tmod s.fly.upds i fun u => { u with held := place, addr := addr, order := n } }
    else refuseUpd s i u phGEN
  if !u.dev then
    let g := phGen (sramPhaser s1 u.addr)
    if u.gen = g then
      match operateSram (s1.setFly { s1.fly with upds := tdel s1.fly.upds i }) u.addr u.op with
      | .ok s2 => s2
      | .error sub => refuseUpd s1 i u sub
    else hold s1 g u.addr
  else match translateNow s1 u.core u.did u.info 3 with
    | .failed r l s2 =>
      (pendFail s2 (u.core / 48) u.did (u.info / 2 ^ 14) r 11 l u.core i).setFly
        { s2.fly with upds := tmod s2.fly.upds i fun u => { u with parked := true } }
    | .alien o s2 =>
      engineDomain (failCmd (s2.setFly { s2.fly with upds := tdel s2.fly.upds i }) u.cmd 6) u.grp u.did u.core 4 o
    | .busy s2 => s2
    | .ok e pa s2 =>
      if !phaserPage e then refuseUpd s2 i u phPLACE
      else match touchLineFor s2 pa (pteKey e.pte) u.info u.ts with
        | .wait s3 => s3
        | .denied c _ info o s3 =>
          let s4 := failCmd (s3.setFly { s3.fly with upds := tdel s3.fly.upds i }) u.cmd (if c = cDOMAIN then 6 else 8)
          if c = cDOMAIN then engineDomain s4 u.grp u.did u.core info o else s4
        | .line lk s3 =>
          let g := phGen (lineField s3 lk pa 16)
          if u.gen = g then
            let r := operateLine (s3.setFly { s3.fly with upds := tdel s3.fly.upds i }) lk pa (pteKey e.pte) u.ts u.op
            match r.2 with
            | none => r.1
            | some sub => refuseUpd s3 i u sub
          else hold s3 g pa

end Sys2Proof.Machine
end

