-- ==== Sys2Proof/Machine/Curator.lean ====
section
/-! DEFINITION. The curator (12 R188 to R198): tickets, grace periods, the deaccession ring, and the events of the lead and die
curators. -/

namespace Sys2Proof.Machine

/-- A ticket has been issued (12 R190). -/
def issued (c : Curator) (t : Nat) : Bool :=
  t == 0 || (let d := (c.next + 2 ^ 32 - t % 2 ^ 32) % 2 ^ 32; decide (1 ≤ d ∧ d ≤ 2 ^ 31))

/-- A ticket is complete (12 R190). -/
def ticketDone (c : Curator) (t : Nat) : Bool := t == 0 || decide ((c.doneTk + 2 ^ 32 - t % 2 ^ 32) % 2 ^ 32 < 2 ^ 31)

/-- The ticket after one; 0 is skipped (12 R189). -/
def nextTicket (t : Nat) : Nat := if (t + 1) % 2 ^ 32 = 0 then 1 else (t + 1) % 2 ^ 32

/-- A grace period starts with the pending batch (12 R191). -/
def Curator.start (c : Curator) : Curator :=
  { c with trun := c.tpend, last := c.pendLast, pendv := false, tpend := ⟨0, c.gfloor.ep⟩, running := some [], marked := [], clear := [] }

/-- GPSTART at the lead curator: the ticket issued and the curator after it (12 R189, R191). -/
def Curator.gpstart (c : Curator) (t : Ts) : Nat × Curator :=
  let ep := c.gfloor.ep
  let c1 := { c with next := nextTicket c.next, gfloor := c.gfloor.maxAt t ep, tpend := c.tpend.maxAt t ep, pendLast := c.next,
                     pendv := true }
  (c.next, if c.running.isSome then c1 else c1.start)

/-- RIPE advances over the queued entries whose tickets are complete (12 R194). -/
def ripen (c : Curator) : Curator :=
  let ripeCnt := (c.ripe + 2 ^ 32 - c.head) % 2 ^ 32
  let more := ((c.entries.drop ripeCnt).takeWhile fun e => ticketDone c e.2.2).length
  { c with ripe := (c.ripe + more) % 2 ^ 32 }

/-- The state with a domain's curator changed. -/
def modCur (s : State) (did : Nat) (f : Curator → Curator) : State := s.modDom did fun d => { d with cur := f d.cur }

/-- How DACC ends at the lead curator (12 R195): a status, a trap for a ticket that was not issued, or a wait. -/
inductive Dacc where
  | status (v : Nat) (s : State)
  | badTicket (s : State)
  | wait (s : State)

/-- DACC. An entry write that fails a domain check fails as one that is not translated does; no core issued it, so that the log names
none (01 R19, log 59). -/
def dacc (s : State) (did addr len t : Nat) (floor : Ts) : Dacc :=
  let c := (s.dom did).cur
  let va := c.basePage * 4096 + 16 * (c.tail % 2 ^ (c.order + 8))
  if !c.v then .status 1 s
  else match freshWalk s (did % 4) [] did va 2 with
    | .failed _ _ s1 => .status 1 s1
    | .alien o s1 => .status 1 (logDomain s1 did 4 o 255)
    | .busy s1 => .wait s1
    | .ok e pa s1 =>
      if len = 0 then .status 2 s
      else if (c.tail + 2 ^ 32 - c.head) % 2 ^ 32 = 2 ^ (c.order + 8) then .status 3 s
      else if !issued c t then .badTicket s
      else match unitAccess s1 e pa va 16 floor (some (leOf 16 (addr % 2 ^ 57 + len * 2 ^ 64 + t * 2 ^ 96))) with
        | .wait s2 => .wait s2
        | .denied _ _ info o s2 => .status 1 (logDomain s2 did info o 255)
        | .done _ _ s2 =>
          .status 0 (modCur s2 did fun c =>
            ripen { c with tail := (c.tail + 1) % 2 ^ 32, entries := c.entries ++ [(addr % 2 ^ 57, len, t)] })

/-- DFPOP: the entry at HEAD where it is ripe (12 R196). -/
def dfpop (s : State) (did : Nat) : Option (Nat × Nat × State) :=
  let c := (s.dom did).cur
  if c.head = c.ripe then none
  else match c.entries with
    | [] => none
    | e :: r => some (e.1, e.2.1, modCur s did fun c => { c with head := (c.head + 1) % 2 ^ 32, entries := r })

/-! ## Events -/

/-- A group that START marks: live, and not in HELD (12 R192). -/
def marksAtStart (st : GState) : Bool :=
  match st with
  | .held | .empty | .exited => false
  | _ => true

/-- A die curator receives START: it marks the live groups of the domain on its die, and sees those that show at once what it
waits for. -/
def curatorStart (s : State) (die did : Nat) : State :=
  match (s.dom did).cur.running with
  | none => s
  | some l =>
    if l.contains die ∨ 4 ≤ die then s
    else
      let ks := (s.work.groups.filter fun e => s.didOf e.2 == did && s.coreOf e.2 / 48 == die && marksAtStart e.2.st).map Prod.fst
      let s1 := modCur s did fun c => { c with running := some (die :: l), marked := c.marked ++ ks.map (· * 4 + die) }
      ks.foldl seeGroup s1

/-- CURATOR_START (12 R192). -/
def execCuratorStart (s : State) : Out :=
  match s.ctl.ev with
  | some (.curatorStart die did) => .next (whenUp s fun s => curatorStart s die did)
  | _ => .next s

/-- A die curator that has none unseen reports CLEAR. -/
def dieClear (s : State) (die did : Nat) : State :=
  let c := (s.dom did).cur
  match c.running with
  | none => s
  | some l =>
    if l.contains die && !c.clear.contains die && !(c.marked.any (· % 4 == die)) then
      modCur s did fun c => { c with clear := die :: c.clear }
    else s

/-- DIE_CURATOR_CLEAR (12 R192). -/
def execDieCuratorClear (s : State) : Out :=
  match s.ctl.ev with
  | some (.dieCuratorClear die did) => .next (whenUp s fun s => dieClear s die did)
  | _ => .next s

/-- The fourth CLEAR: DONE is set, waits that are now complete end, the ring ripens, and a pending batch starts (12 R191). -/
def graceDone (s : State) (did : Nat) : State :=
  let c := (s.dom did).cur
  if c.running.isNone || !([0, 1, 2, 3].all fun d => c.clear.contains d) then s
  else
    let s1 := modCur s did fun c => { c with doneTk := c.last, running := none, clear := [], marked := [] }
    let c1 := (s1.dom did).cur
    let s2 := endWaits s1 (fun w => match w with | .ticket d t => d == did && ticketDone c1 t | _ => false) c1.gfloor
    modCur s2 did fun c => let c := ripen c; if c.pendv then c.start else c

/-- GRACE_PERIOD_COMPLETE (12 R191). -/
def execGracePeriodComplete (s : State) : Out :=
  match s.ctl.ev with
  | some (.gracePeriodComplete did) => .next (whenUp s fun s => graceDone s did)
  | _ => .next s

end Sys2Proof.Machine
end

