-- ==== Sys2Proof/WellFormed.lean ====
section
/-! DEFINITION. Which steps are well formed: an instruction word is one that no rule of 16 R253 makes illegal; a host
command or device event carries numbers that always name something or nothing, so each is well formed. -/

namespace Sys2Proof

/-- The step is an instruction word, not a host command or device event. -/
def Instr.isWord (i : Instr) : Bool :=
  match Form.of i with
  | .event => false
  | _ => true

/-- The word of an instruction is a legal encoding (16 R253), and the constructor is the one its fields select. -/
def Instr.wf (i : Instr) : Bool :=
  match Form.of i with
  | .event => true
  | .r op w => (match sigR op w.m.toNat with | some g => legalR g w | none => false) && buildR op w == some i
  | .i op w => (match sigI op w.imm.toNat w.m.toNat with | some g => legalI g w | none => false) && buildI op w == some i
  | .m op w =>
    (match sigM op w.width w.order w.hint.toNat (hasSeg w) with | some g => legalM g w | none => false) &&
    buildM op w == some i
  | .pair w => legalPair w && buildPair w == i

end Sys2Proof
end

