-- ==== Sys2Proof/Decode.lean ====
section
/-! DEFINITION. The decoder of instruction words, total on any bytes and rejecting by name, and the encoder, both written
from the encoding tables of 16 R240 to R252. -/

namespace Sys2Proof

/-- Why bytes are no instruction, after the clauses of 16 R253. -/
inductive DecodeError where
  /-- Fewer than 8 bytes. -/
  | short
  /-- Clause 1: a reserved opcode, full form or pair. -/
  | reservedOpcode
  /-- Clause 2: the negated guard p0. -/
  | neverGuard
  /-- Clauses 3 to 6: an operand, pattern, immediate or memory field breaks its rule. -/
  | field
  /-- Clause 7: an undefined modifier bit or a reserved value. -/
  | modifier
  /-- Clause 8: a terminator without the boundary bit. -/
  | terminator
  deriving DecidableEq, Repr

/-- The fields common to all forms (16 R240). -/
def headOf (w : Nat) : Head :=
  { last := fld w 63 1 == 1, gn := fld w 61 1 == 1, gp := BitVec.ofNat 3 (fld w 58 3) }

/-- Bits [63], [61] and [60:58] of a word from its head (16 R240). -/
def headBits (h : Head) : Nat :=
  (if h.last then 2 ^ 63 else 0) + (if h.gn then 2 ^ 61 else 0) + h.gp.toNat * 2 ^ 58

/-- The name of the head rule that a word breaks, or field where none does. -/
def headError (h : Head) (term : Bool) : DecodeError :=
  if h.gn && h.gp == 0#3 then .neverGuard else if term && !h.last then .terminator else .field

/-- The opcode is one of the full-form opcodes (16 R252). -/
def opListed (op : Nat) : Bool :=
  op < 0x4F || (0x50 ≤ op && op < 0x57) || (0x60 ≤ op && op < 0x6F) || (0x70 ≤ op && op < 0x77) ||
  (0x78 ≤ op && op < 0x7F) || (0x80 ≤ op && op < 0x94) || (0xA0 ≤ op && op < 0xAF) || (0xB0 ≤ op && op < 0xB7) ||
  (0xB8 ≤ op && op < 0xC2) || (0xD0 ≤ op && op < 0xD9)

/-- The opcodes of the I-form (16 R252). -/
def isIForm (op : Nat) : Bool :=
  op == 0x01 || op == 0x02 || op == 0x04 || op == 0x06 || op == 0x08 || op == 0x0A || op == 0x0F ||
  op == 0x29 || op == 0x2A || op == 0xD0 || op == 0xD1 || op == 0xD4

/-- The opcodes of the M-form (16 R252). -/
def isMForm (op : Nat) : Bool := (0x80 ≤ op && op < 0x94) || (0xA0 ≤ op && op < 0xA6)

/-- The R-form fields of a word under a signature (16 R243). -/
def fieldsR (g : RSig) (w : Nat) : Option RWord :=
  match decOpd g.d (fld w 42 8), decOpd g.a (fld w 34 8), decOpd g.b (fld w 26 8), decOpd g.c (fld w 18 8) with
  | some d, some a, some b, some c =>
    some { h := headOf w, d := d, a := a, b := b, c := c, pa := patOf (fld w 15 3), pb := patOf (fld w 12 3),
           pc := patOf (fld w 9 3), k := BitVec.ofNat 5 (fld w 4 5), m := BitVec.ofNat 4 (fld w 0 4) }
  | _, _, _, _ => none

/-- An R-form word (16 R243, R244). -/
def decodeR (op w : Nat) : Except DecodeError Instr :=
  match sigR op (fld w 0 4) with
  | none => .error .modifier
  | some g =>
    match fieldsR g w with
    | none => .error .field
    | some x =>
      if legalR g x then
        match buildR op x with
        | some i => .ok i
        | none => .error .modifier
      else .error (headError x.h g.term)

/-- The I-form fields of a word under a signature (16 R246). -/
def fieldsI (g : ISig) (w : Nat) : Option IWord :=
  match decOpd g.d (fld w 42 8), decOpd g.a (fld w 34 8) with
  | some d, some a =>
    some { h := headOf w, d := d, a := a, imm := BitVec.ofNat 24 (fld w 10 24), m := BitVec.ofNat 4 (fld w 0 4) }
  | _, _ => none

/-- An I-form word; bits [9:4] must be zero (16 R246). -/
def decodeI (op w : Nat) : Except DecodeError Instr :=
  if fld w 4 6 = 0 then
    match sigI op (fld w 10 24) (fld w 0 4) with
    | none => .error .modifier
    | some g =>
      match fieldsI g w with
      | none => .error .field
      | some x =>
        if legalI g x then
          match buildI op x with
          | some i => .ok i
          | none => .error .modifier
        else .error (headError x.h g.term)
  else .error .field

/-- The M-form fields of a word under a signature (16 R247). -/
def fieldsM (g : MSig) (wd : Width) (sc : Scope) (w : Nat) : Option MWord :=
  match decOpd g.data (fld w 42 8), decOpd g.base (fld w 34 8), decOpd g.seg (fld w 26 8) with
  | some d, some b, some s =>
    some { h := headOf w, data := d, base := b, seg := s, off := BitVec.ofNat 14 (fld w 12 14), width := wd,
           order := orderOf (fld w 7 2), scope := sc, hint := BitVec.ofNat 4 (fld w 0 4) }
  | _, _, _ => none

/-- An M-form word (16 R247, R248). -/
def decodeM (op w : Nat) : Except DecodeError Instr :=
  match widthOf (fld w 9 3), scopeOf (fld w 4 3) with
  | some wd, some sc =>
    match sigM op wd (orderOf (fld w 7 2)) (fld w 0 4) (fld w 26 8 != 0) with
    | none => .error .modifier
    | some g =>
      match fieldsM g wd sc w with
      | none => .error .field
      | some x =>
        if legalM g x then
          match buildM op x with
          | some i => .ok i
          | none => .error .modifier
        else .error (headError x.h false)
  | _, _ => .error .field

/-- Source B of a scalar pair operation (16 R249): bit [39] chooses an immediate, and without it bit [38] must be 0. -/
def pairB (w : Nat) : Option PairB :=
  if fld w 39 1 = 1 then some (.imm (BitVec.ofNat 7 (fld w 32 7)))
  else if fld w 38 1 = 0 then some (.s (BitVec.ofNat 6 (fld w 32 6))) else none

/-- The pair fields of a word (16 R249). -/
def fieldsPair (sop : SOp) (vop : VOp) (w : Nat) : Option PairWord :=
  match decOpd (if vop == .nop then .zero else .vr) (fld w 17 8), decOpd (if vop == .nop then .zero else .xr) (fld w 9 8),
      decOpd (if vopReadsB vop then .xr else .zero) (fld w 1 8), pairB w with
  | some vd, some va, some vb, some sb =>
    some { h := headOf w, sop := sop, sd := BitVec.ofNat 6 (fld w 46 6), sa := BitVec.ofNat 6 (fld w 40 6), sb := sb,
           vop := vop, vd := vd, va := va, vb := vb }
  | _, _, _, _ => none

/-- A pair word (16 R249, R250); bit [0] must be zero. -/
def decodePair (w : Nat) : Except DecodeError Instr :=
  match sopOf (fld w 52 6), vopOf (fld w 25 7) with
  | some sop, some vop =>
    if fld w 0 1 = 0 then
      match fieldsPair sop vop w with
      | none => .error .field
      | some x => if legalPair x then .ok (buildPair x) else .error (headError x.h false)
    else .error .field
  | _, _ => .error .reservedOpcode

/-- The instruction a 64-bit word encodes, or why it is an illegal encoding (16 R240 to R253). -/
def decodeWord (w : Bits64) : Except DecodeError Instr :=
  let n := w.toNat
  if fld n 62 1 = 1 then decodePair n
  else
    let op := fld n 50 8
    if opListed op then
      if isIForm op then decodeI op n else if isMForm op then decodeM op n else decodeR op n
    else .error .reservedOpcode

/-- The little-endian value of a run of bytes (00 R6). -/
def leNat : Bytes → Nat
  | [] => 0
  | b :: bs => b.toNat + 256 * leNat bs

/-- n bytes of a number, lowest first (00 R6). -/
def leBytes (n w : Nat) : Bytes :=
  match n with
  | 0 => []
  | n + 1 => BitVec.ofNat 8 w :: leBytes n (w / 256)

/-- The instruction at the head of a run of bytes, and the bytes after it (16 R240: 8 bytes, little-endian). -/
def decodeBytes (bs : Bytes) : Except DecodeError (Instr × Bytes) :=
  if bs.length < 8 then .error .short
  else match decodeWord (BitVec.ofNat 64 (leNat (bs.take 8))) with
    | .ok i => .ok (i, bs.drop 8)
    | .error e => .error e

/-- The instruction of a table word: its 8 bytes, as the hardware stores them, given to the decoder. -/
def decodeTableWord (nbits w : Nat) : Option Instr :=
  match decodeBytes (leBytes 8 (w % 2 ^ min nbits 64)) with
  | .ok (i, _) => some i
  | .error _ => none

/-! ## The encoder -/

/-- The R-form word of an opcode and its fields (16 R243). -/
def encodeR (op : Nat) (w : RWord) : Nat :=
  headBits w.h + op * 2 ^ 50 + encOpd w.d * 2 ^ 42 + encOpd w.a * 2 ^ 34 + encOpd w.b * 2 ^ 26 + encOpd w.c * 2 ^ 18 +
  patCode w.pa * 2 ^ 15 + patCode w.pb * 2 ^ 12 + patCode w.pc * 2 ^ 9 + w.k.toNat * 2 ^ 4 + w.m.toNat

/-- The I-form word of an opcode and its fields (16 R246). -/
def encodeI (op : Nat) (w : IWord) : Nat :=
  headBits w.h + op * 2 ^ 50 + encOpd w.d * 2 ^ 42 + encOpd w.a * 2 ^ 34 + w.imm.toNat * 2 ^ 10 + w.m.toNat

/-- The M-form word of an opcode and its fields (16 R247). -/
def encodeM (op : Nat) (w : MWord) : Nat :=
  headBits w.h + op * 2 ^ 50 + encOpd w.data * 2 ^ 42 + encOpd w.base * 2 ^ 34 + encOpd w.seg * 2 ^ 26 +
  w.off.toNat * 2 ^ 12 + widthCode w.width * 2 ^ 9 + orderCode w.order * 2 ^ 7 + scopeCode w.scope * 2 ^ 4 + w.hint.toNat

/-- Bits [39:32] of a pair (16 R249). -/
def pairBBits : PairB → Nat
  | .s n => n.toNat
  | .imm x => 128 + x.toNat

/-- The pair word of its fields (16 R249). -/
def encodePair (w : PairWord) : Nat :=
  headBits w.h + 2 ^ 62 + sopCode w.sop * 2 ^ 52 + w.sd.toNat * 2 ^ 46 + w.sa.toNat * 2 ^ 40 + pairBBits w.sb * 2 ^ 32 +
  vopCode w.vop * 2 ^ 25 + encOpd w.vd * 2 ^ 17 + encOpd w.va * 2 ^ 9 + encOpd w.vb * 2

/-- The 64-bit word of an instruction; a command or event has none. -/
def encode (i : Instr) : Option Bits64 :=
  match Form.of i with
  | .event => none
  | .r op w => some (BitVec.ofNat 64 (encodeR op w))
  | .i op w => some (BitVec.ofNat 64 (encodeI op w))
  | .m op w => some (BitVec.ofNat 64 (encodeM op w))
  | .pair w => some (BitVec.ofNat 64 (encodePair w))

end Sys2Proof
end

