-- ==== Sys2Proof/Machine/Fetch.lean ====
section
/-! DEFINITION. How a step comes to its instruction: whose turn it is, and the next word of the run that a group or sequencer
issues (04 R54). A run stands whole in its unit's buffer, because it is fetched and checked before its first word (03 R42).
The device's agents act in no fixed order, so the order of turns is free (log 1). -/

namespace Sys2Proof.Machine

/-- The turn that is due: the head of the agenda, or a free one. -/
def nextTurn (s : State) : Turn × State :=
  match s.ctl.agenda with
  | t :: r => (t, s.setCtl { s.ctl with agenda := r })
  | [] => (Config.freeTurn s.ctl.free, s.setCtl { s.ctl with free := s.ctl.free + 1 })

/-- A group state in which its domain's virtual clock runs (14 R220). -/
def GState.charged (x : GState) : Bool :=
  match x with
  | .ready | .issuing | .results | .blocked | .fault | .trap | .rendezvous => true
  | _ => false

/-! ## Tokens (05 R73) -/

/-- Beats of 128 B that a request injects; one without payload counts as one (05 R73). -/
def Req.beats (q : Req) : Nat :=
  let n := match q.op with
    | .store | .mst _ | .atomic _ | .red _ | .push => q.lanes.foldl (fun n a => n + a.size) 0
    | .cas => q.lanes.foldl (fun n a => n + 2 * a.size) 0
    | _ => 0
  max 1 ((n + 127) / 128)

/-- The tokens of one beat of a request, in 1024ths: memory, peer, host; a renewal that carries a lease takes none. -/
def Req.beatCost (q : Req) : Nat × Nat × Nat :=
  if q.renew.isSome then (0, 0, 0) else (1024, if q.rmt.isSome then 1024 else 0, if q.point = pBridge then 1024 else 0)

/-- The tokens of one beat of a message: a memory token, and a peer token where it leaves by a link. -/
def Msg.beatCost (m : Msg) : Nat × Nat × Nat := (1024, if m.link.isSome then 1024 else 0, 0)

/-- The tokens of a number of beats. -/
def costOf (cost : Nat × Nat × Nat) (n : Nat) : Nat × Nat × Nat := (n * cost.1, n * cost.2.1, n * cost.2.2)

/-- The tokens that a request still takes. -/
def tokensOf (q : Req) : Nat × Nat × Nat := costOf q.beatCost (q.beats - q.paid)

/-- The tokens that a message still takes. -/
def msgTokens (m : Msg) : Nat × Nat × Nat := costOf m.beatCost (m.beats - m.paid)

/-- How many of n beats the buckets of a partition on a core hold the tokens of; a rate of 0 is no limit (05 R72). -/
def beatsHeld (s : State) (core part : Nat) (cost : Nat × Nat × Nat) (n : Nat) : Nat :=
  let p := s.part part
  let b := (tget (s.coreAt core).buckets part).getD ⟨0, 0, 0⟩
  let of := fun (rate held one : Nat) => if rate = 0 ∨ one = 0 then n else held / one
  min n (min (of (bits p.lim0.toNat 47 32) b.mem cost.1)
    (min (of (bits p.lim0.toNat 15 0) b.peer cost.2.1) (of (bits p.lim1.toNat 47 32) b.host cost.2.2)))

/-- The buckets of a partition on a core without these tokens. -/
def spendTokens (s : State) (core part : Nat) (cost : Nat × Nat × Nat) : State :=
  let b := (tget (s.coreAt core).buckets part).getD ⟨0, 0, 0⟩
  let b1 : Bucket := { mem := b.mem - cost.1, peer := b.peer - cost.2.1, host := b.host - cost.2.2 }
  s.modCore core fun c => { c with buckets := tset c.buckets part b1 }

/-- The injection queue of a partition on a core. -/
def injQueue (s : State) (core part : Nat) : List Nat := (tget (s.coreAt core).inj part).getD []

/-- The head of an injection queue waits for a token. -/
def queueBlocked (s : State) (core part : Nat) : Bool :=
  match (injQueue s core part).head? with
  | none => false
  | some i => match tget s.fly.reqs i, tget s.fly.msgs i with
    | some q, _ => decide (beatsHeld s core part q.beatCost (q.beats - q.paid) < q.beats - q.paid)
    | none, some m => decide (beatsHeld s core part m.beatCost (m.beats - m.paid) < m.beats - m.paid)
    | none, none => false

/-- The buckets of a partition on a core hold the token of one beat without payload, and no earlier beat waits before it (05 R73). -/
def tokenHeld (s : State) (core part : Nat) : Bool := !queueBlocked s core part && beatsHeld s core part (1024, 0, 0) 1 == 1

/-- A word's operation on a device phaser whose turn has come waits for its token: it is an atomic that the core sends to the phaser's home
slice (11 R171, 05 R73). -/
def phaserBeatWaits (s : State) (i : Nat) (p : Post) : Bool :=
  decide (0xA0 ≤ p.opc ∧ p.opc ≤ 0xA5) && p.args.getD 0 0 == 1 && !p.parked && p.waits.all (fun j => (tget s.fly.reqs j).isNone) &&
    !(s.fly.posts.any fun e => decide (e.1 < i) && e.2.grp == p.grp && e.2.unit == p.unit) && !tokenHeld s p.core p.part

/-- One of the group's beats waits for a token, or behind one that does (05 R73). -/
def throttled (s : State) (k : Nat) (g : Group) : Bool :=
  let core := s.coreOf g
  let part := ((s.teamOf g).map (·.part)).getD 0
  let waits := fun (i : Nat) => match tget s.fly.reqs i, tget s.fly.msgs i with
    | some q, _ => q.grp == k && q.renew.isNone
    | none, some m => m.grp == k
    | none, none => false
  g.st == .ready && ((queueBlocked s core part && (injQueue s core part).any waits) ||
    s.fly.posts.any fun e => e.2.grp == k && phaserBeatWaits s e.1 e.2)

/-- A group that gives its domain a progress cycle (05 R74). -/
def progresses (s : State) (k : Nat) (g : Group) : Bool :=
  match g.st with
  | .ready => !throttled s k g
  | .issuing | .results => true
  | .trap => (match g.run with | some r => !r.closed | none => g.paths.any Path.isReady)
  | _ => false

/-- A group that stands READY, or in TRAP with a ready handler path, without issuing (05 R69, R70). -/
def waiting (g : Group) : Bool := g.st == .ready || (g.st == .trap && g.run.isNone && g.paths.any Path.isReady)

/-- A group after cycles: its wait grows while it waits, and its level rises by one, up to 15, at every multiple of 1024 that the
wait reaches (05 R70). -/
def ageGroup (n : Nat) (g : Group) : Group :=
  if waiting g then { g with wait := g.wait + n, level := min 15 (g.level + ((g.wait + n) / 1024 - g.wait / 1024)) } else g

/-- The token buckets of a core after fabric cycles (05 R73): RATE 1024ths of a token a cycle, up to DEPTH. -/
def fillBuckets (s : State) (f : Nat) (c : Core) : Core :=
  let lim (p : Nat) (hi : Bool) := if hi then (s.part p).lim1.toNat else (s.part p).lim0.toNat
  { c with buckets := c.buckets.map fun e =>
      let b := e.2
      (e.1, { mem := min (bits (lim e.1 false) 63 48 * 1024) (b.mem + f * bits (lim e.1 false) 47 32),
              peer := min (bits (lim e.1 false) 31 16 * 1024) (b.peer + f * bits (lim e.1 false) 15 0),
              host := min (bits (lim e.1 true) 63 48 * 1024) (b.host + f * bits (lim e.1 true) 47 32) }) }

/-- The virtual clock of a domain as the domain control unit holds it once the cycles kept for it have been sent (14 R220). -/
def Dom.sendClock (d : Dom) (clk : Nat) : Dom := { d with vclk := min (d.vclk + d.vpend) (2 ^ 64 - 1), vpend := 0, vsent := clk }

/-- A counter with a number added, and its sticky flag (14 R211). -/
def addCounter (v : Nat × Bool) (n : Nat) : Nat × Bool := if 2 ^ 63 - 1 < v.1 + n then (2 ^ 63 - 1, true) else (v.1 + n, v.2)

/-- The increments of a core for a domain reach the domain control unit (14 R211, R212). -/
def flushCore (s : State) (core did : Nat) : State :=
  match tget (s.coreAt core).incs did with
  | none => s
  | some l =>
    let d := s.dom did
    let new := (upTo 16).map fun i => addCounter (d.counters.getD i 0, d.satBits.getD i false) (l.getD i 0)
    (s.setDom did { d with counters := new.map (·.1), satBits := new.map (·.2) }).modCore core fun c =>
      { c with incs := tdel c.incs did, sentAt := tset c.sentAt did s.sys.clk }

/-- What is due to be sent: the increments that a core has kept for 4096 cycles, or one of which might come to overflow 32 bits with the
next commits, and the virtual clocks kept so long (14 R212, R220). -/
def sendDue (s : State) : State :=
  let due := s.core.cores.flatMap fun e => (e.2.incs.filter fun x =>
    decide ((tget e.2.sentAt x.1).getD 0 + 4096 ≤ s.sys.clk) || x.2.any fun n => decide (2 ^ 31 ≤ n)).map fun x => (e.1, x.1)
  let s1 := due.foldl (fun s x => flushCore s x.1 x.2) s
  s1.setAdm { s1.adm with doms := s1.adm.doms.map fun e =>
    (e.1, if e.2.vpend ≠ 0 ∧ e.2.vsent + 4096 ≤ s.sys.clk then e.2.sendClock s.sys.clk else e.2) }

/-- A peer link after a lapse of time: one that carries traffic may have retried flits (10 R167). -/
def passLink (n i : Nat) (l : Link) : Link :=
  if l.st = 2 ∨ l.st = 3 then { l with retry := min (l.retry + Config.flitRetries i n) (2 ^ 32 - 1) } else l

/-- The state after arithmetic and fabric cycles: the clocks, the cycles kept for the domains' virtual clocks, the watchdog counts, the
buckets, the waits of the groups, the links' counts of retries and the count of corrected errors; and what is due to be sent has been. -/
def passTime (s : State) (n f : Nat) : State :=
  let one (d : Nat) (x : Dom) : Dom :=
    let mine := s.work.groups.filter fun e => s.didOf e.2 == d
    { x with vpend := if mine.any (·.2.st.charged) then x.vpend + n else x.vpend,
             wcount := if mine.any (fun e => progresses s e.1 e.2) then min (x.wcount + n) (2 ^ 40 - 1) else x.wcount }
  let s1 := s.setAdm { s.adm with doms := s.adm.doms.map fun e => (e.1, one e.1 e.2) }
  let s2 := s1.setCore { s1.core with cores := s1.core.cores.map fun e => (e.1, fillBuckets s f e.2) }
  let s3 := s2.mapGroups fun _ g => ageGroup n g
  sendDue (s3.setSys { s3.sys with clk := s3.sys.clk + n, fab := s3.sys.fab + f, softErrs := s3.sys.softErrs + Config.softErrors s.ctl.free,
                                   links := (upTo s.sys.links.length).map fun i => passLink s.ctl.free i (s.sys.links.getD i default) })

/-- Time passes before a command or event: a free number of arithmetic and fabric cycles (log 2). -/
def elapse (s : State) : State :=
  let n := s.ctl.free
  passTime (s.setCtl { s.ctl with free := n + 1 }) (Config.freeCycles n) (Config.freeFabric n)

/-- The state with a happening offered to the unit it concerns. -/
def offer (s : State) (h : Happening) : State := s.setCtl { s.ctl with ev := some h, cur := none }

/-- The next word of the run of a unit, and the state in which it issues. The word stays in the run's buffer until it has
issued, so that a word which cannot issue yet is tried again. -/
def popWord (s : State) (k : Nat) : Option (Bits64 × State) :=
  match s.group k with
  | none => none
  | some g =>
    match g.run with
    | none => none
    | some r =>
      if r.closed || g.st == .stopped then none
      else match r.words with
        | [] => none
        | w :: _ => some (w, s.setCtl { s.ctl with ev := none, cur := some k })

/-- A word of a run that does not decode traps with ILLEGAL_OPCODE; the check of 03 R42 keeps such a word from a run. -/
def illegalWord (s : State) (w : Bits64) : Out :=
  match s.ctl.cur with
  | none => .fault .notIssuing
  | some k =>
    match s.group k with
    | none => .fault .notIssuing
    | some g =>
      match g.run with
      | none => .fault .notIssuing
      | some r =>
        .next (wordTrap s k { cause := cILLEGAL, sub := 0, info := w.toNat, pc := r.pc, depth := r.depth, mask := r.gang,
                              word := true, owner := 0 })

/-! ## A place to run one word -/

/-- The launch record of a grid of one team with one group of 32 threads and 188 registers. -/
def oneLaunch : Launch :=
  { cls := 1, prio := 0, mx := false, wt := false, dn := false, nteams := 1, entry := 0x1000, mentry := 0, threads := 32,
    clus := 1, vregs := 188, phasers := 16, srows := 16, arows := 0, roles := 0, trows := 192, const := 0, csize := 0,
    doneph := 0, waitph := 0, waitgen := 0, fmts := [], coresel := 0, jobtag := 0 }

/-- A grid of that launch, all of its teams placed. -/
def oneGrid (did : Nat) : Grid :=
  { did := did, part := 0, queue := 0, index := 0, order := 0, launch := oneLaunch, consts := [], gts := ⟨0, false⟩, next := 1,
    ptr := 0, wave := false, waiting := none, bar := false, retired := 0, stage := 0, status := 0, start := 0,
    links := [], hash := 0, used := [], vend := 0, rel := ⟨0, false⟩, done := false }

/-- Its team, on core 0. -/
def oneTeam (did : Nat) : Team :=
  { grid := 0, id := 0, rank := 0, cluster := 0, core := 0, slot := 0, did := did, part := 0, rowBase := 0, rowCnt := 192,
    sramBase := 0, sramCnt := 17, slots := [0], held := false, zeroing := false, freezing := false, frozen := false,
    thawing := false, resumed := 0, handle := 0, finished := [], retired := false, image := none, drops := none,
    frames := [], repack := false }

/-- The run of these words by a gang, from a PC. -/
def Run.of (pc depth : Nat) (gang : Mask) (ws : List Bits64) : Run :=
  { words := ws, pc := pc, start := pc, gang := gang, depth := depth, issued := 0, closed := false, waits := [], trap := none,
    succ := [], exits := 0#32, regroup := 0#32, yielded := false, tret := 0#32, halt := false, fence := [], hold := [],
    counts := [], num := 0 }

/-- A group of a team as its launch leaves it (04 R52), before its first path. -/
def Group.start (team gid slot : Nat) (live : Mask) (gts : Ts) (level : Nat) : Group :=
  { team := team, gid := gid, slot := slot, roleC := false, st := .held, live := live,
    tids := lanes32.map fun l => 32 * gid + l, preds := List.replicate 7 0#32, flags := List.replicate 32 0#8,
    depth := List.replicate 32 0, gts := gts, drift := 0, base := level, level := level, wait := 0, wrow := 0, wbase := 0,
    wcount := 0, paths := [], justRun := 0, yielded := false, passOver := false, run := none, results := [], owed := [], btraps := [], parked := [],
    preempt := false, handler := none, trapcause := 0, trapinfo := 0, phreg := 0, call := none, outCall := none, frame := 0,
    rbcAt := 0, fences := [] }

/-- Its group, issuing the run of these words with all 32 lanes. -/
def oneGroup (ws : List Bits64) : Group :=
  { Group.start 0 0 0 0xFFFFFFFF#32 ⟨0, false⟩ 0 with st := .issuing, run := some (Run.of 0x1000 0 0xFFFFFFFF#32 ws) }

/-- The owner tags of rows base to base + n - 1 of a core set. -/
def tagRows (s : State) (core base did : Nat) (n : Nat) : State :=
  let set := fun t i => tset t (core * 6144 + base + i) ⟨some did, false⟩
  s.setCore { s.core with rowTags := (upTo n).foldl set s.core.rowTags }

/-- The owner tags of n scratchpad rows of a core from a row set. -/
def tagSram (s : State) (core base did : Nat) (n : Nat) : State :=
  let set := fun t i => tset t (core * 4096 + base + i) ⟨0, false, some did, false⟩
  s.setCore { s.core with sramTags := (upTo n).foldl set s.core.sramTags }

/-- The device with one LIVE domain, one team and one group on core 0, which issues the run of these words next (log 4). -/
def placeRun (s : State) (ws : List Bits64) : State :=
  let s1 := s.setDom 1 { Dom.fresh with st := .live }
  let s2 := s1.setWork { grids := tset s1.work.grids 0 (oneGrid 1), teams := tset s1.work.teams 0 (oneTeam 1),
                         groups := tset s1.work.groups 0 (oneGroup ws) }
  let s3 := tagSram (tagRows s2 0 0 1 192) 0 0 1 17
  (s3.setSys { s3.sys with up := true }).setCtl { s3.ctl with agenda := [.word 0] }

end Sys2Proof.Machine
end

