-- ==== Sys2Proof/Machine/Gate.lean ====
section
/-! DEFINITION. Loan gates (01 R23 to R25, 19 R332 to R335): the check of a call, the inbox, the take by a waiting group, the reply. -/

namespace Sys2Proof.Machine

/-- Entry g of a domain's gate table, as a number (01 R23). -/
def gateEntry (s : State) (did g : Nat) : Nat := leVal (peek s ((s.dom did).gates + 32 * g) 32)

/-- The calls of an inbox that no group has taken. -/
def waitingCalls (s : State) (did : Nat) : List Call := (s.dom did).inbox.filter fun c => c.taker.isNone

/-- The check of a call by the entry read as it issued, in its order (01 R24): NO_GATE (an entry with a reserved bit set is none,
00 R8), TAG_RANGE, SIZE, TARGET_DOWN, INBOX_FULL. -/
def gateRefusal (s : State) (did g e tag size : Nat) : Option Nat :=
  if (s.dom did).gateCnt ≤ g ∨ e.testBit 64 = false ∨ bits e 7 0 ≠ did ∨ e / 2 ^ 66 ≠ 0 then some 1
  else if tag < bits e 31 16 ∨ bits e 47 32 < tag then some 2
  else if size < 1 ∨ bits e 63 48 < size then some 3
  else if (s.dom (bits e 15 8)).st ≠ .live then some 4
  else if 16 ≤ (waitingCalls s (bits e 15 8)).length then some 5
  else none

/-- The GWAITs of a domain: group, number of the wait, tag, mask, buffer; of groups that hold no taken call. -/
def gateWaits (s : State) (did : Nat) : List (Nat × Nat × Nat × Nat × Nat) :=
  (s.work.groups.filter fun e => s.didOf e.2 == did && e.2.call.isNone && e.2.st != .frozen && e.2.st != .evicted).flatMap fun e =>
    let ws := (e.2.paths.flatMap fun p => p.waits.map (·.2)) ++
      (match e.2.run with | some r => r.waits.map (·.2.2) | none => []) ++
      (match e.2.handler with | some h => (h.held.flatMap fun p => p.waits.map (·.2)) ++ h.waits.map (·.2) | none => [])
    ws.filterMap fun w => match w with
      | .gate o t m b => some (e.1, o, t, m, b)
      | _ => none

/-- A tag matches a GWAIT's. -/
def tagMatches (tag sel mask : Nat) : Bool := (tag ^^^ sel) &&& mask == 0

/-- The gate header of 19 R334. -/
def gateHeader (len tag caller gate : Nat) : Bytes := leOf 16 (len + tag * 2 ^ 16 + caller * 2 ^ 32 + gate * 2 ^ 40)

/-- A call is taken for a group: header and argument are written at its buffer, and its timestamp rises to the caller's (01 R24). -/
def takeCall (s : State) (did k ord buf : Nat) (c : Call) : State :=
  match (s.group k).bind s.teamOf, (s.group c.caller).bind s.teamOf with
  | some t, some ct =>
    let arg := padBytes s ct c.argOff c.size
    let s1 := padPut s t buf (gateHeader c.size c.tag c.cdid c.gate ++ arg)
    let s2 := s1.modDom did fun d =>
      { d with inbox := d.inbox.map fun x => if x.id = c.id then { x with taker := some k } else x }
    endWaits (s2.modGroup k fun g => { g with call := some c.id }) (fun w => match w with | .gate o _ _ _ => o == ord | _ => false) c.gts
  | _, _ => s

/-- While a call of the inbox, in arrival order, matches a waiting GWAIT of the domain, the oldest such wait takes it (19 R334). -/
def matchGates (fuel : Nat) (s : State) (did : Nat) : State :=
  match fuel with
  | 0 => s
  | n + 1 =>
    let ws := gateWaits s did
    let pick := (waitingCalls s did).findSome? fun c =>
      (leastBy (fun (w : Nat × Nat × Nat × Nat × Nat) => w.2.1) (ws.filter fun w => tagMatches c.tag w.2.2.1 w.2.2.2.1)).map fun w => (c, w)
    match pick with
    | some (c, w) => matchGates n (takeCall s did w.1 w.2.1 w.2.2.2.2 c) did
    | none => s

/-- An accepted call enters its target's inbox with the caller's timestamp (01 R24). -/
def enterInbox (s : State) (k res g e tag size argOff repOff : Nat) : State :=
  match s.group k with
  | none => s
  | some gr =>
    let did := s.didOf gr
    let tgt := bits e 15 8
    let c : Call :=
      { id := res, caller := k, cdid := did, gate := g, tag := tag, target := tgt, maxarg := bits e 63 48, frz := e.testBit 65,
        size := size, argOff := argOff, repOff := repOff, gts := gr.gts, taker := none, gone := false }
    let s1 := (s.modDom tgt fun d => { d with inbox := d.inbox ++ [c] }).modGroup k fun g => { g with outCall := some res }
    matchGates 64 s1 tgt

/-- The reply of a taken call goes to the caller's reply buffer, or to its team's image while the caller is frozen (01 R24,
05 R81). -/
def replyTo (s : State) (c : Call) (bs : Bytes) : State :=
  match s.group c.caller with
  | none => s
  | some g =>
    match s.teamOf g with
    | none => s
    | some tm =>
      if g.st = .frozen ∨ g.st = .evicted then
        let s1 := s.modTeam g.team fun t =>
          { t with image := t.image.map fun im =>
              { im with replies := im.replies ++ [(c.caller, c.repOff, bs)] }.owe (imageOff s tm 4 + 256 * g.gid) bs }
        rewriteFrame s1 g (setBits (readFrame s1 g) 3017 3016 1)
      else padPut s tm c.repOff bs

/-- GRET: DONE, SIZE, CALLER_GONE or NO_CALL; with DONE the caller's timestamp rises to the answering group's (19 R335, 01 R24). -/
def gateReturn (s : State) (k : Nat) (bs : Bytes) (len : Nat) : State × Nat :=
  match s.group k with
  | none => (s, 8)
  | some g =>
    match g.call.bind fun id => findCall s id with
    | none => (s, 8)
    | some (d, c) =>
      if c.gone then (matchGates 64 (dropCall s c.id) d, 7)
      else if len < 1 ∨ c.maxarg < len then (s, 3)
      else
        let s1 := raiseAll (replyTo s c bs) c.caller g.gts
        let s2 := (dropCall s1 c.id).modGroup c.caller fun g => { g with outCall := none }
        (matchGates 64 (finishResult s2 c.caller c.id (len * 2 ^ 16)) d, 0)

end Sys2Proof.Machine
end

