-- ==== Sys2Proof/Machine/Message.lean ====
section
/-! DEFINITION. The message units (10 R162 to R166, 19 R329 to R331): sending, the arrival at a team, posted receives, the overflow
queues. -/

namespace Sys2Proof.Machine

/-- A source and tag match a receive under its masks (10 R163). The match words are those of 19 R329. -/
def recvMatches (m0 m1 m2 m3 steam slink tag : Nat) : Bool :=
  (steam ^^^ m0) &&& m1 == 0 && (slink ^^^ bits m2 3 0) &&& bits m2 7 4 == 0 && (tag ^^^ bits m2 31 16) &&& bits m3 15 0 == 0

/-- A receive matches a message, and has room for it. -/
def Recv.takes (r : Recv) (m : Msg) : Bool :=
  recvMatches r.match0 r.match1 r.match2 r.match3 m.steam m.slink m.tag && decide (m.data.length ≤ r.len)

/-- The message's payload is written into a buffer of a team, and its bytes count down INB of a team phaser, with the sender's
timestamp (10 R163, 11 R176). A refusal by the phaser is a PHASER fault of the team (11 R180). -/
def deliverMsg (s : State) (tk : Nat) (t : Team) (m : Msg) (buf ph : Nat) : State :=
  let s1 := padPut s t buf m.data
  match operateSram s1 (phaserKey s t ph) { inb := -m.data.length, ts := some m.gts } with
  | .ok s2 => s2
  | .error sub => phaserFault s1 tk (tk * 64 + 32) sub ph

/-- The first FIFO bank of a partition on a core (10 R164, 11 R182). -/
def fifoBase (c : Core) (part : Nat) : Nat :=
  ((c.dpreg.find? fun e => e.2.1.getLsbD 63 && bits e.2.1.toNat 55 50 == part).map fun e => bits e.2.2.toNat 41 37).getD 0

/-- The entries of the overflow queue of a partition on a core: 64 where the partition has FIFO banks and the first is one now (10 R164,
06 R93). -/
def ovfRoom (c : Core) (part : Nat) : Nat :=
  if (c.dpreg.any fun e => e.2.1.getLsbD 63 && bits e.2.1.toNat 55 50 == part && bits e.2.2.toNat 47 42 != 0) &&
    roleOf c (fifoBase c part) == .fifo then 64 else 0

/-- Bytes of a team's scratchpad, and the row of one of its phasers, are resident (10 R163). -/
def landingHere (s : State) (t : Team) (off n ph : Nat) : Bool :=
  (rowsOf off n).all (fun j => !t.awayPads.contains j) && !t.awayPads.contains ((phaserKey s t ph - padKey t 0) / 256)

/-- A message is taken or dropped at its destination team; the status is what its sender gets (10 R163). An overflow entry takes the lowest
of the bank's 64 rows that no entry has (log 66). -/
def arriveAt (s : State) (tk : Nat) (t : Team) (m : Msg) : State × Nat :=
  let c := s.coreAt t.core
  let mine := c.recvs.filter fun r => r.team == tk && !((tget c.ovf t.part).getD []).any fun o => o.bound == some r.idx && o.dteam == tk
  let e := leastBy (fun (r : Recv) => r.order) (mine.filter fun r => r.takes m)
  let q := (tget c.ovf t.part).getD []
  let put := fun (b : Option Nat) =>
    if q.length < ovfRoom c t.part then
      let free := ((List.range 64).find? fun r => !q.any (·.row == r)).getD 0
      let row := fifoBase c t.part * 128 + free
      let s1 := s.modCore t.core fun c => { c with ovf := tset c.ovf t.part (q ++ [{ m with dteam := tk, bound := b, row := free }]) }
      (s1.setCore { s1.core with sramTags := tset s1.core.sramTags (t.core * 4096 + row) ⟨0, false, some t.did, false⟩ }, 0)
    else
      let info := m.steam % 2 ^ 32 + m.slink % 16 * 2 ^ 32 + m.tag % 2 ^ 16 * 2 ^ 36
      let s1 := s.modTeam tk fun t => { t with drops := match t.drops with | some d => some (d.1, d.2 + 1) | none => some (info, 1) }
      (match lowestLive s1 tk with | some k => takeAtRest s1 k | none => s1, 1)
  match e with
  | some r =>
    if landingHere s t r.buf m.data.length r.phaser then
      (deliverMsg (s.modCore t.core fun c => { c with recvs := c.recvs.filter (·.idx != r.idx) }) tk t m r.buf r.phaser, 0)
    else put (some r.idx)
  | none => put none

/-- The messages kept for receives of a team are written before its first run after a thaw (10 R163, R165). -/
def deliverBound (s : State) (tk : Nat) : State :=
  match s.team tk with
  | none => s
  | some t =>
    let q := (tget (s.coreAt t.core).ovf t.part).getD []
    let mine := q.filter fun m => m.dteam == tk && m.bound.isSome
    mine.foldl (fun s m =>
      match (s.coreAt t.core).recvs.find? fun r => some r.idx == m.bound with
      | some r =>
        deliverMsg (s.modCore t.core fun c =>
          { c with recvs := c.recvs.filter (·.idx != r.idx),
                   ovf := tset c.ovf t.part (((tget c.ovf t.part).getD []).filter (· != m)) }) tk t m r.buf r.phaser
      | none => s) s

/-- A team's receives and messages are gone (10 R165). -/
def dropMessages (s : State) (tk : Nat) : State :=
  match s.team tk with
  | none => s
  | some t => s.modCore t.core fun c =>
      { c with recvs := c.recvs.filter (·.team != tk), ovf := c.ovf.map fun e => (e.1, e.2.filter (·.dteam != tk)) }

/-! ## Sending -/

/-- The placed team of a grid with a %teamid, not retired. -/
def teamOfGrid (s : State) (grid id : Nat) : Option (Nat × Team) :=
  s.work.teams.find? fun e => e.2.grid == grid && e.2.id == id && !e.2.retired

/-- The peer link carries traffic (10 R167). -/
def linkUp (s : State) (l : Nat) : Bool := match s.sys.links[l]? with | some x => x.st == 2 || x.st == 3 | none => false

/-- The binding of lowest index for a link and a domain (10 R166, 18 R307): link, local and remote DID. -/
def bindingOf (s : State) (l did : Nat) : Option (Nat × Nat × Nat) :=
  (s.sys.peers.find? fun e => e.2.1 == l && e.2.2.1 == did).map (·.2)

/-- What ends an MSEND before it is sent: BAD_ARG, BAD_TAG, NOT_BOUND, LINK_DOWN, NO_DEST (19 R329). -/
def msendRefusal (s : State) (t : Team) (dst w1 len : Nat) : Option Nat :=
  let sel := bits w1 3 0
  if len = 0 ∨ 256 < len ∨ bits w1 15 4 ≠ 0 ∨ 8 < sel then some 6
  else if 0xFFF0 ≤ bits w1 31 16 then some 2
  else if sel ≠ 0 then
    if (bindingOf s (sel - 1) t.did).isNone then some 3 else if !linkUp s (sel - 1) then some 4 else none
  else if (teamOfGrid s t.grid dst).isNone then some 5 else none

/-- The crossings of a message from the hub of a die to a core (10 R163). -/
def hubRoute (s : State) (d core : Nat) : List Hop :=
  let e := core / 48
  if d = e then dieRoute s d true 41 (core % 48)
  else dieRoute s d true 41 (48 + bridgePort d e) ++ dieRoute s e true (34 + bridgePort e d) (core % 48)

/-- The crossings of a message: to the hub of its die and on to the receiver's core, or to its peer link. -/
def msgRoute (s : State) (m : Msg) : List Hop :=
  match m.link with
  | some l => requestRoute s m.core (137 + l)
  | none =>
    let core := match m.dst with
      | some tk => ((s.team tk).map (·.core)).getD m.core
      | none => m.core
    dieRoute s (m.core / 48) false (m.core % 48) 41 ++ hubRoute s (m.core / 48) core

/-- A message joins its partition's injection queue on the sender's core (05 R73). -/
def sendMsg (s : State) (t : Team) (grp : Nat) (res : Option Nat) (gts : Ts) (dst w1 : Nat) (data : Bytes) : State :=
  let (i, s1) := s.fresh
  let sel := bits w1 3 0
  let m : Msg :=
    { steam := t.id, slink := 0, dteam := dst, dst := if sel = 0 then (teamOfGrid s t.grid dst).map (·.1) else none,
      link := if sel = 0 then none else some (sel - 1), tag := bits w1 31 16, data := data, gts := gts, did := t.did, grp := grp,
      res := res, core := t.core, bound := none, sent := false, hops := [], enq := 0, beats := max 1 ((data.length + 127) / 128),
      row := 0, t0 := s.sys.clk, paid := 0 }
  (s1.setFly { s1.fly with msgs := tset s1.fly.msgs i m }).modCore t.core fun c =>
    { c with inj := tset c.inj t.part ((tget c.inj t.part).getD [] ++ [i]) }

/-! ## Receiving -/

/-- MRECV: the oldest entry of the team's overflow queue, where it matches, is delivered; else the receive is posted, or FULL
(10 R163, R164). The status word is that of 19 R329. -/
def postRecv (s : State) (tk : Nat) (t : Team) (m0 m1 m2 m3 buf len ph : Nat) : State × Nat :=
  let c := s.coreAt t.core
  let q := (tget c.ovf t.part).getD []
  let (n, s0) := s.fresh
  let fresh : Recv :=
    { idx := 0, team := tk, match0 := m0, match1 := m1, match2 := m2, match3 := m3, buf := buf, len := len, phaser := ph, order := n }
  match (q.filter fun o => o.dteam == tk && o.bound.isNone).head? with
  | some o =>
    if fresh.takes o then
      (deliverMsg (s.modCore t.core fun c => { c with ovf := tset c.ovf t.part (q.filter (· != o)) }) tk t o buf ph, 7)
    else post s0 c fresh
  | none => post s0 c fresh
where
  /-- A receive takes the lowest free entry. -/
  post (s : State) (c : Core) (r : Recv) : State × Nat :=
    let mine := (c.recvs.filter fun x => ((s.team x.team).map (·.part)) == some t.part).length
    let gcnt := ((c.dpreg.find? fun e => e.2.1.getLsbD 63 && bits e.2.1.toNat 55 50 == t.part).map fun e =>
      bits e.2.1.toNat 49 43).getD 0
    match (upTo 128).find? fun i => !c.recvs.any (·.idx == i) with
    | some i =>
      if 2 * gcnt ≤ mine then (s, 8)
      else (s.modCore t.core fun c => { c with recvs := c.recvs ++ [{ r with idx := i }] }, i * 2 ^ 16)
    | none => (s, 8)

/-- MPROBE: the four words of the oldest overflow entry of the team that matches, or zeros (19 R331). -/
def probeMsg (s : State) (tk : Nat) (t : Team) (m0 m1 m2 m3 : Nat) : Nat :=
  let q := (tget (s.coreAt t.core).ovf t.part).getD []
  match q.find? fun o => o.dteam == tk && o.bound.isNone && recvMatches m0 m1 m2 m3 o.steam o.slink o.tag with
  | some o => o.steam % 2 ^ 32 + (o.slink % 16 + o.tag % 2 ^ 16 * 2 ^ 16) * 2 ^ 32 + o.data.length * 2 ^ 64 + 2 ^ 96
  | none => 0

/-- MCANCEL (10 R165). -/
def cancelRecv (s : State) (tk : Nat) (t : Team) (h : Nat) : State × Nat :=
  let c := s.coreAt t.core
  let held := ((tget c.ovf t.part).getD []).any fun o => o.bound == some h && o.dteam == tk
  if (c.recvs.any fun r => r.idx == h && r.team == tk) && !held then
    (s.modCore t.core fun c => { c with recvs := c.recvs.filter (·.idx != h) }, 0)
  else (s, 9)

/-! ## Events -/

/-- A message that has crossed is taken or dropped, and its sender's status is known; one that stands at a peer link is answered by
the peer device, as it will (log 27). A destination that is gone answers NO_DEST. -/
def takeMsg (s : State) (i : Nat) (m : Msg) : State :=
  let s1 := s.setFly { s.fly with msgs := tdel s.fly.msgs i }
  let answer := fun (s : State) (v : Nat) => match m.res with | some r => finishResult s m.grp r v | none => s
  match m.link with
  | some _ => answer (s1.setCtl { s1.ctl with free := s1.ctl.free + 1 }) ([0, 1, 3, 5].getD (Config.peerAnswer s.ctl.free % 4) 0)
  | none =>
    match m.dst with
    | none => answer s1 5
    | some tk => match s1.team tk with
      | none => answer s1 5
      | some t =>
        if t.retired then answer s1 5
        else if t.did ≠ m.did then
          let mask := ((s1.group m.grp).map (·.live)).getD 0#32
          let s2 := takeAtRest (domainFault s1 m.grp m.did m.core 6 t.did 0 mask 0) m.grp
          match m.res with
          | some r => payOwed (s2.modGroup m.grp fun g =>
              let f := fun (x : Result) => if x.src = some r then { x with done := true } else x
              { g with results := g.results.map f, owed := g.owed.map f }) m.grp
          | none => s2
        else
          let r := arriveAt s1 tk t m
          answer r.1 r.2

/-- A reply to a peer device leaves over its link, where that carries traffic. -/
def replyPeer (s : State) (link : Nat) (r : PeerReply) : State :=
  if linkUp s link then s.setSys { s.sys with peerOut := s.sys.peerOut ++ [(link, r)] } else s

/-- A message from a peer link is accepted under a binding, for the oldest live grid of the bound domain with its JOBTAG; another is
dropped (10 R162, R166). The sender's status is returned: NOT_BOUND, NO_DEST, or what became of the message. The timestamp with which it
counts is not stated (log 27). -/
def peerArrival (s : State) (a : PeerMsg) : State :=
  let bound := s.sys.peers.any fun e => e.2 == (a.link, a.ldid, a.rdid)
  let gs := s.work.grids.filter fun e => e.2.did == a.ldid && e.2.launch.jobtag == a.jobtag && !e.2.done && e.2.stage == 0
  if !linkUp s a.link || 0xFFF0 ≤ a.tag || a.payload.length = 0 || 256 < a.payload.length then s
  else if !bound then replyPeer s a.link (.done [3])
  else match leastBy (fun (e : Nat × Grid) => e.2.order) gs with
    | none => replyPeer s a.link (.done [5])
    | some g => match teamOfGrid s g.1 a.dteam with
      | none => replyPeer s a.link (.done [5])
      | some (tk, t) =>
        let (n, s0) := s.fresh
        let s1 := s0.setCtl { s0.ctl with free := s0.ctl.free + 1 }
        let m : Msg :=
          { steam := a.steam, slink := a.link + 1, dteam := tk, dst := some tk, link := none, tag := a.tag, data := a.payload,
            gts := ⟨Config.peerTs s.ctl.free % 2 ^ 40, newEpoch s⟩, did := a.ldid, grp := 0, res := none, core := t.core,
            bound := none, sent := true, hops := [], enq := n, beats := 1, row := 0, t0 := s.sys.clk, paid := 0 }
        let r := arriveAt s1 tk t m
        replyPeer r.1 a.link (.done [r.2])

end Sys2Proof.Machine
end

