-- ==== Sys2Proof/Machine/Posts.lean ====
section
/-! DEFINITION. Operations of words on other units (19 R323, R326, R328, R330, R335, R344, R350): each is sent when what its
release awaits has completed and no earlier operation of its group on the same unit waits, and is performed there. One that is
refused as its word issues ends the word with a trap; one refused later traps its group at the boundary. -/

namespace Sys2Proof.Machine

/-! ## Posts -/

/-- A post by its number. -/
def State.post (s : State) (i : Nat) : Option Post := tget s.fly.posts i
/-- The state with a post set. -/
def State.setPost (s : State) (i : Nat) (p : Post) : State := s.setFly { s.fly with posts := tset s.fly.posts i p }
/-- The state without a post. -/
def State.delPost (s : State) (i : Nat) : State := s.setFly { s.fly with posts := tdel s.fly.posts i }

/-- How an attempt to perform an operation ends. -/
inductive Sent where
  | done (s : State)
  | wait (s : State)
  | refused (t : Trap) (s : State)
  | parked (page reason lvl acc : Nat) (s : State)

/-- A trap of the word that made a post. -/
def Post.trap (p : Post) (cause sub info : Nat) : Trap :=
  { cause := cause, sub := sub, info := info, pc := p.pc, depth := p.depth, mask := p.gang, word := true, owner := 0 }

/-- Argument i of a post. -/
def Post.arg (p : Post) (i : Nat) : Nat := p.args.getD i 0

/-- The post's result with one value for every lane. -/
def answer (s : State) (p : Post) (v : Nat) : State := match p.res with | some r => finishResult s p.grp r v | none => s

/-- The post's result with values by lane; without any the destination stays unwritten. -/
def answerLanes (s : State) (p : Post) (vals : List (Nat × Nat)) : State :=
  match p.res with
  | none => s
  | some rid =>
    let f := fun (r : Result) => if r.src = some rid then { r with vals := vals, done := true } else r
    payOwed (s.modGroup p.grp fun g => { g with results := g.results.map f, owed := g.owed.map f }) p.grp

/-- A refusal in memory: DOMAIN and ECC are boundary causes of the group, and the result stays unwritten (01 R19, 13 R207). -/
def deniedAt (s : State) (p : Post) (cause sub info owner : Nat) : Sent :=
  let t := { p.trap cause sub info with word := false, owner := owner }
  .done (answerLanes (addBoundaryTrap (if cause = cDOMAIN then logDomain s p.did info owner p.core else s) p.grp t) p [])

/-! ## Phaser operations (11 R174 to R177, 19 R324) -/

/-- What a phaser word does to the counts, and its arrival's floor. -/
def phaserOp (p : Post) (floor : Ts) : PhOp :=
  let n : Int := p.arg 3
  if p.opc = 0xA0 then
    match p.arg 2 with
    | 0 => { sreg := 1, pend := 1 }
    | 1 => { wreg := 1 }
    | 2 => { sreg := 1, wreg := 1, pend := 1 }
    | _ => { sreg := n, pend := n }
  else if p.opc = 0xA1 then
    match p.arg 2 with
    | 0 => { sreg := -1, pend := -1, ts := some floor }
    | 1 => { wreg := -1 }
    | 2 => { sreg := -1, wreg := -1, pend := -1, ts := some floor }
    | _ => { sreg := -n, pend := -n, ts := some floor }
  else if p.opc = 0xA2 then { pend := -1, ts := some floor }
  else if p.arg 2 = 0 then { inb := n } else { outb := n }

/-- n of mode P outside 1 to 1023 is COUNT, n of PHEXP outside 1 to 2^23 - 1 is BYTES (19 R324). -/
def badPhaserN (p : Post) : Option Nat :=
  if (p.opc = 0xA0 ∨ p.opc = 0xA1) ∧ p.arg 2 = 3 ∧ (p.arg 3 = 0 ∨ 1023 < p.arg 3) then some phCOUNT
  else if p.opc = 0xA4 ∧ (p.arg 3 = 0 ∨ 2 ^ 23 ≤ p.arg 3) then some phBYTES
  else none

/-- The kinds, 1 for signaller and 2 for waiter, that a word needs held or not held by its group on a team phaser, and the kinds it
holds after it (11 R174, R180). -/
def memberAfter (p : Post) (held : Nat) : Option Nat :=
  let k := match p.arg 2 with | 0 => 1 | 1 => 2 | 2 => 3 | _ => 0
  if p.opc = 0xA0 then if held &&& k = 0 then some (held ||| k) else none
  else if p.opc = 0xA1 then if held &&& k = k then some (held &&& (3 ^^^ k)) else none
  else if p.opc = 0xA2 then if held &&& 1 = 1 then some held else none
  else if p.opc = 0xA3 then if held &&& 2 = 2 then some held else none
  else some held

/-- A phaser wait at its home: complete at once as an acquire, or recorded (11 R177, R178, R183). -/
def waitAt (s : State) (i : Nat) (p : Post) (ph : Nat) (now : Bool) (w : Wait) : State :=
  let gone := fun (x : Wait) => match x with | .post j => j == i | _ => false
  if now then endWaits s gone (phTs ph)
  else
    let sub := fun (x : Wait) => if gone x then w else x
    let path := fun (q : Path) => { q with waits := q.waits.map fun w => (w.1, sub w.2) }
    s.modGroup p.grp fun g =>
      { g with paths := g.paths.map path
               run := g.run.map fun r => { r with waits := r.waits.map fun w => (w.1, w.2.1, sub w.2.2) }
               handler := g.handler.map fun h =>
                 { h with held := h.held.map path, waits := h.waits.map fun w => (w.1, sub w.2) } }

/-- A phaser of SRAM that an operation reads: the first of an epoch moves MAXTS to it (11 R178). -/
def meetPhaser (s : State) (key : Nat) : State :=
  let p := sramPhaser s key
  if (phTs p).ep = newEpoch s then s else setSramPhaser s key (phRebase p (newEpoch s))

/-- An operation of a word on a team phaser. -/
def performTeamPhaser (s : State) (i : Nat) (p : Post) (t : Team) (g : Group) : Sent :=
  let n := p.arg 1
  let no := fun (sub : Nat) => Sent.refused (p.trap cPHASER sub n) s
  if teamPhasers s t ≤ n then no phNUMBER
  else
    let key := phaserKey s t n
    let ph := sramPhaser s key
    if bits ph 127 125 ≠ 0 then no phFORMAT
    else match memberAfter p (bits g.phreg (2 * n + 1) (2 * n)) with
      | none => no phMEMBER
      | some m =>
        if p.opc = 0xA3 then
          .done (waitAt (meetPhaser s key) i p (phRebase ph (newEpoch s)) (phGen ph != p.arg 3 % 16) (.phaser false key none))
        else if p.opc = 0xA5 then .done (answer (meetPhaser s key) p (bits ph 25 0))
        else match operateSram s key (phaserOp p g.gts) with
          | .error sub => no sub
          | .ok s1 => .done (s1.modGroup p.grp fun g => { g with phreg := setBits g.phreg (2 * n + 1) (2 * n) m })

/-- The waits that the home slice of a device phaser has recorded (11 R177). -/
def recordedAt (s : State) (slice : Nat) : Nat :=
  (s.work.groups.map fun e =>
    let mine := fun (w : Wait) => match w with | .phaser true a _ => homeSlice s a == slice | _ => false
    (e.2.paths.map fun p => (p.waits.filter fun w => mine w.2).length).sum +
    (match e.2.run with | some r => (r.waits.filter fun w => mine w.2.2).length | none => 0) +
    (match e.2.handler with
      | some h => (h.held.map fun p => (p.waits.filter fun w => mine w.2).length).sum + (h.waits.filter fun w => mine w.2).length
      | none => 0)).sum

/-- An operation of a word on a device phaser: an atomic of its line, whose acknowledgement carries the write's timestamp (11 R171,
07 R110). Its beat takes a token (05 R73). -/
def performDevPhaser (s : State) (i : Nat) (p : Post) (g : Group) : Sent :=
  let va := p.arg 1
  match translateNow s p.core p.did va 3 with
  | .failed r l s1 => .parked (va / 2 ^ 14) r l 3 s1
  | .alien o s1 => deniedAt s1 p cDOMAIN 0 4 o
  | .busy s1 => .wait s1
  | .ok e pa s1 =>
    let earlier := s1.fly.reqs.any fun x => decide (x.1 < i) && x.2.grp == p.grp && x.2.point == homeSlice s1 pa &&
      (match x.2.stage with | .inject | .queued | .net | .point | .bisnp => true | _ => false)
    if !phaserPage e then .refused (p.trap cPHASER phPLACE va) s1
    else if earlier ∨ !tokenHeld s1 p.core p.part then .wait s1
    else match touchLineFor s1 pa (pteKey e.pte) va g.gts with
      | .wait s2 => .wait s2
      | .denied c sub info o s2 => deniedAt (spendTokens s2 p.core p.part (1024, 0, 0)) p c sub info o
      | .line lk met =>
        let s2 := sampleFree (sampleFree (spendTokens met p.core p.part (1024, 0, 0)) p.part 0 1) p.part 1 1
        let t := lineWriteTs s2 lk g.gts
        if p.opc = 0xA3 ∨ p.opc = 0xA5 then
          let ph := lineField s2 lk pa 16
          let ph1 := phRebase ph (newEpoch s2)
          let s3 := raiseGroup (putLine s2 lk pa (pteKey e.pte) g.gts (leOf 16 ph1)) p.grp t
          if bits ph 127 125 ≠ 0 then .refused (p.trap cPHASER phFORMAT va) s2
          else if p.opc = 0xA5 then .done (answer s3 p (bits ph 25 0))
          else .done (waitAt s3 i p ph1 (phGen ph != p.arg 3 % 16)
            (if recordedAt s3 (homeSlice s3 pa) < 256 then .phaser true pa none else .retest pa false))
        else
          let r := operateLine s2 lk pa (pteKey e.pte) g.gts (phaserOp p g.gts)
          match r.2 with
          | none => .done (raiseGroup r.1 p.grp t)
          | some sub => .refused (p.trap cPHASER sub va) s2

/-! ## Ring operations (11 R182 to R184) -/

/-- The place in SRAM of byte 0 of a ring frame: frames stand in pairs of FIFO rows after the overflow queue's 64. -/
def frameKey (s : State) (t : Team) (f : Nat) : Nat := t.core * 2 ^ 20 + (fifoBase (s.coreAt t.core) t.part * 128 + 64 + 2 * f) * 256

/-- The header of a ring frame. -/
def ringHeader (s : State) (t : Team) (f : Nat) : Nat := leVal (memBytes s.core.sram (frameKey s t f) 16)

/-- The other domain that owns a FIFO row of a core (01 R18 code 7). -/
def fifoAlien (s : State) (core row did : Nat) : Option Nat :=
  match (tget s.core.sramTags (core * 4096 + row)).bind (·.owner) with
  | some o => if o = did then none else some o
  | none => none

/-- Slots of a ring. -/
def ringSlots (h : Nat) : Nat := 2 ^ bits h 1 0

/-- A ring operation: RINGACQ waits (11 R183), RINGREL arrives and frees. -/
def performRing (s : State) (i : Nat) (p : Post) (t : Team) (g : Group) : Sent :=
  let h := p.arg 0
  let u := p.arg 1
  if !t.frames.contains h then .refused (p.trap cPHASER phNUMBER h) s
  else
    let hd := ringHeader s t h
    let k := u % ringSlots hd
    let lap := u / ringSlots hd
    let full := frameKey s t h + 16 + 32 * k
    let empty := full + 16
    let row := frameKey s t h % 2 ^ 20 / 256
    let waits := fun (key par : Nat) =>
      let s1 := meetPhaser s key
      Sent.done (waitAt s1 i p (sramPhaser s1 key) (phGen (sramPhaser s1 key) % 2 == par) (.phaser false key (some (par == 1))))
    match (fifoAlien s t.core row p.did).or (fifoAlien s t.core (row + 1) p.did) with
    | some o => deniedAt s p cDOMAIN 0 7 o
    | none =>
    match p.opc, p.sub with
    | 0xA6, 1 => waits empty (lap % 2)
    | 0xA6, _ => waits full ((lap + 1) % 2)
    | _, 0 =>
      if 2 ^ 23 ≤ p.arg 2 then .refused (p.trap cPHASER phBYTES h) s
      else match operateSram s full { inb := p.arg 2, pend := -1, ts := some g.gts } with
        | .error sub => .refused (p.trap cPHASER sub h) s
        | .ok s1 => .done s1
    | _, 1 =>
      match operateSram s empty { pend := -1, ts := some g.gts } with
      | .error sub => .refused (p.trap cPHASER sub h) s
      | .ok s1 => .done s1
    | _, _ => .done (s.modTeam g.team fun t => { t with frames := t.frames.filter (· != h) })

/-! ## Curator, messages, gates (12 R189 to R196, 19 R330, R333, R335) -/

/-- GPSTART, GPPOLL, DACC and DFPOP at the lead curator. -/
def performCurator (s : State) (p : Post) (g : Group) : Sent :=
  let did := p.did
  match p.opc with
  | 0xAA =>
    let r := (s.dom did).cur.gpstart g.gts
    .done (answer (modCur s did fun _ => r.2) p r.1)
  | 0xAC =>
    let c := (s.dom did).cur
    match p.args.find? fun t => !issued c t with
    | some t => .refused (p.trap cRSECT 5 t) s
    | none =>
      let ls := if p.sub = 1 then [(32, p.arg 0)] else (lanesOf p.act).zip p.args
      let s1 := if p.args.any (ticketDone c) then raiseGroup s p.grp c.gfloor else s
      .done (answerLanes s1 p (ls.map fun e => (e.1, if ticketDone c e.2 then 1 else 0)))
  | 0xAD =>
    match dacc s did (p.arg 0) (p.arg 1) (p.arg 2) g.gts with
    | .status v s1 => .done (answer s1 p v)
    | .badTicket s1 => .refused (p.trap cRSECT 5 (p.arg 2)) s1
    | .wait s1 => .wait s1
  | _ =>
    match dfpop s did with
    | none => .done (answer s p 0)
    | some (a, l, s1) => .done (answer (raiseGroup s1 p.grp (s.dom did).cur.gfloor) p (a + l * 2 ^ 64))

/-- Rows of the team that hold a block are present and resident. -/
def blockHere (s : State) (t : Team) (off n : Nat) : Bool := !t.frozen && (rowsOf off n).all (rowPresent s t)

/-- MSEND after its release: the payload leaves with the sender's timestamp (19 R330). -/
def performMsend (s : State) (p : Post) (t : Team) (g : Group) : Sent :=
  let sel := bits (p.arg 1) 3 0
  if sel ≠ 0 ∧ !linkUp s (sel - 1) then .done (answer s p 4)
  else if !blockHere s t (p.arg 2) (p.arg 3) then .wait s
  else .done (sendMsg s t p.grp p.res g.gts (p.arg 0) (p.arg 1) (padBytes s t (p.arg 2) (p.arg 3)))

/-- GCALL after its release, by the entry that it read as it issued; its target's state and inbox are checked again as it reaches it. -/
def performGcall (s : State) (p : Post) : Sent :=
  match gateRefusal s p.did (p.arg 0) (p.arg 1) (p.arg 2) (p.arg 3) with
  | some v => .done (answer s p v)
  | none => .done (enterInbox s p.grp (p.res.getD 0) (p.arg 0) (p.arg 1) (p.arg 2) (p.arg 3) (p.arg 4) (p.arg 5))

/-- GRET after its release, with the reply that it has read. -/
def performGret (s : State) (p : Post) : Sent :=
  let r := gateReturn s p.grp p.blk (p.arg 1)
  .done (answer r.1 p r.2)

/-! ## Device queues (02 R35, 19 R350) -/

/-- A queue whose ring is no longer empty leaves IDLE (02 R29). -/
def wakeQueue (q : Queue) : Queue := if q.st = .idle ∧ q.head ≠ q.tail then { q with st := .waiting } else q

/-- What refuses a LAUNCH: NO_QUEUE, QUEUE_STOPPED, QUOTA_SPENT (02 R35). -/
def launchRefusal (s : State) (did n : Nat) : Option Nat :=
  let q := s.queue did n
  if 15 < n ∨ !q.kind then some 1
  else if q.st = .off ∨ q.st = .error ∨ (s.dom did).st ≠ .live then some 2
  else if q.quota ≤ q.outst ∨ 2 ^ (q.order + 4) ≤ (q.tail + 65536 - q.head) % 65536 then some 3
  else none

/-- LAUNCH at the domain control unit: refused, or its record is written at TAIL with the group's floor. -/
def performLaunch (s : State) (p : Post) (g : Group) : Sent :=
  let n := p.arg 1
  match launchRefusal s p.did n with
  | some v => .done (answer s p v)
  | none =>
    let q := s.queue p.did n
    let va := q.base + 256 * (q.tail % 2 ^ (q.order + 4))
    match translateDie0 s p.did va 2 with
    | .failed r l s1 => .parked (va / 2 ^ 14) r l 2 s1
    | .alien o s1 => deniedAt s1 p cDOMAIN 0 4 o
    | .busy s1 => .wait s1
    | .ok e pa s1 =>
      match unitAccess s1 e pa va 256 g.gts (some p.blk) with
      | .wait s2 => .wait s2
      | .denied c sub info o s2 => deniedAt s2 p c sub info o
      | .done _ _ s2 =>
        .done (answer (s2.modQueue p.did n fun q => wakeQueue { q with tail := (q.tail + 1) % 65536, outst := q.outst + 1 }) p
          (q.tail * 2 ^ 16))

/-- LQUERY: the queue as the domain control unit holds it (19 R350). -/
def launchQuery (s : State) (did n : Nat) : Nat :=
  let q := s.queue did n
  let code := match q.st with | .off => 0 | .idle => 1 | .waiting => 2 | .ready => 3 | .held => 4 | .error => 5
  if 15 < n then 0
  else q.head + q.tail * 2 ^ 16 + q.outst % 65536 * 2 ^ 32 + q.errc * 2 ^ 48 + code * 2 ^ 56 + (if q.kind then 2 ^ 63 else 0)

/-! ## MWAIT (19 R344) -/

/-- A handle of the team is outstanding. -/
def handleOut (s : State) (team h : Nat) : Bool := s.fly.cmds.any fun e => e.2.team == team && e.2.phase == 4 && e.2.handle == h

/-- The status word that MWAIT writes for a handle that is not outstanding, with STALE for an unknown one. -/
def handleStatus (t : Team) (h : Nat) : Nat := ((t.finished.find? (·.1 == h)).map fun e => e.2 % 2 ^ 32).getD 10

/-- MWAIT: the status words of its handles, once none is outstanding. The completion timestamp of a command that finished with OK
stands above its status word (19 R343). -/
def performMwait (s : State) (p : Post) (t : Team) (team : Nat) : Sent :=
  if p.args.any fun h => handleOut s team h then .wait s
  else
    let ls := if p.sub = 1 then [(32, p.arg 0)] else (lanesOf p.act).zip p.args
    let raise := fun (s : State) (h : Nat) => match t.finished.find? (·.1 == h) with
      | some e =>
        if e.2 % 256 = 0 then raiseGroup s p.grp ⟨bits e.2 71 32, e.2.testBit 72⟩ else s
      | none => s
    .done (answerLanes (p.args.foldl raise s) p (ls.map fun e => (e.1, handleStatus t e.2)))

/-! ## Performing -/

/-- An operation whose block was absent reads it as soon as it is present (19 R320, 06 R95). -/
def readNeed (s : State) (p : Post) : Post :=
  match p.need, s.team (p.grp / 64) with
  | some (o, n), some t => if blockHere s t o n then { p with blk := padBytes s t o n, need := none } else p
  | _, _ => p

/-- An operation is performed where its block is here. -/
def performPost (s : State) (i : Nat) (p : Post) : Sent :=
  match s.group p.grp with
  | none => .done s
  | some g =>
    match s.teamOf g with
    | none => .done s
    | some t =>
      if p.need.isSome then .wait s
      else
        if p.opc < 0xA0 ∨ 0xC1 < p.opc then .done s
        else if p.opc ≤ 0xA5 then
          match badPhaserN p with
          | some sub => .refused (p.trap cPHASER sub (p.arg 1)) s
          | none => if p.arg 0 = 1 then performDevPhaser s i p g else performTeamPhaser s i p t g
        else if p.opc ≤ 0xA7 then performRing s i p t g
        else if p.opc ≤ 0xAE then performCurator s p g
        else match p.opc with
          | 0xB0 => performMsend s p t g
          | 0xB4 => performGcall s p
          | 0xB6 => performGret s p
          | 0xBE => performMwait s p t g.team
          | 0xC0 => performLaunch s p g
          | _ => .done s

/-- A post is still held: accesses it awaits are out, or an earlier operation of its group on the same unit stands before it, or
its team's rows have been evicted. -/
def postHeld (s : State) (i : Nat) (p : Post) : Bool :=
  p.parked || p.waits.any (fun j => (tget s.fly.reqs j).isSome) ||
    (match s.team (p.grp / 64) with | some t => !t.rowsHere | none => false) ||
    s.fly.posts.any fun e => decide (e.1 < i) && e.2.grp == p.grp && e.2.unit == p.unit

/-- The post takes one entry of its core's replay catalogue, or waits for one (13 R204). -/
def catalogPost (s : State) (i : Nat) (p : Post) : State :=
  takeEntries s p.core [{ req := i, lane := lowLane p.act, did := p.did, part := p.part }]

/-- An operation whose translation failed is fault-parked (19 R323). -/
def parkPost (s : State) (i : Nat) (p : Post) (page reason lvl acc : Nat) : State :=
  faultAtRest ((catalogPost (pendFail (s.setPost i { p with parked := true }) (p.core / 48) p.did page reason acc lvl p.core i) i p).modGroup
    p.grp fun g => { g with parked := g.parked.filter (· != i) ++ [i] }) p.grp

/-- A word's operation enters: it is performed as the word issues where nothing holds it, and a refusal is then a word trap. -/
def sendPost (s : State) (i : Nat) (p : Post) : Except Trap State :=
  let p := readNeed s p
  if postHeld s i p then .ok (s.setPost i p)
  else match performPost s i p with
    | .done s1 => .ok s1
    | .wait s1 => .ok (s1.setPost i p)
    | .refused t _ => .error t
    | .parked page r l acc s1 => .ok (parkPost s1 i p page r l acc)

/-- A waiting operation is tried again. One that is refused now traps its group with its word's address as the saved PC (13 R199); its word
has issued because what held it was a fault that the host repairs (log 15). -/
def pumpPost (s0 : State) (i : Nat) : State :=
  match s0.post i with
  | none => s0
  | some p0 =>
    let p := readNeed s0 p0
    let s := if p0.need.isSome ∧ p.need.isNone then s0.setPost i p else s0
    if postHeld s i p then s
    else match performPost s i p with
      | .done s1 => seeGroup (s1.delPost i) p.grp
      | .wait s1 => s1
      | .refused t s1 =>
        let gone := fun (x : Wait) => match x with | .post j => j == i | _ => false
        let s2 := (answerLanes (s1.delPost i) p []).modGroup p.grp fun g => (g.dropWaits gone).wakened
        takeAtRest (addBoundaryTrap s2 p.grp t) p.grp
      | .parked page r l acc s1 => parkPost s1 i p page r l acc

/-- A word whose operation may be refused, which traps the word itself (11 R180, 12 R186, 04 R57). -/
def Post.mayTrap (p : Post) : Bool := decide (0xA0 ≤ p.opc ∧ p.opc ≤ 0xA7) || p.opc == 0xAC || p.opc == 0xAD

/-- The operation waits for the host's repair of a translation: its own, or that of an access or operation before it. -/
def faultHeld (s : State) (p : Post) : Bool :=
  p.parked || p.waits.any (fun j => match tget s.fly.reqs j with | some q => q.stage == .catalogued | none => false) ||
    s.fly.posts.any fun e => e.2.grp == p.grp && e.2.unit == p.unit && e.2.parked

/-- A word whose operation may be refused issues when its home has taken or refused it, so that a refusal traps the word and the words
after it have not issued (04 R57); until then the word waits, and what its operation has asked for stands. A word held by a fault of
translation issues, for its run ends and its group waits in FAULT. -/
def untilTaken (f : State → Out) (s : State) : Out :=
  match f s with
  | .next s1 =>
    if s1.fly.posts.any fun e => decide (s.ctl.nextId ≤ e.1) && e.2.mayTrap && !faultHeld s1 e.2 then .next (s.keepAsked s1) else .next s1
  | o => o

/-- Every waiting operation, in the order in which they were issued. -/
def pumpPosts (s : State) : State := (s.fly.posts.map Prod.fst).foldl pumpPost s

end Sys2Proof.Machine
end

