-- ==== Sys2Proof/Machine/Remote.lean ====
section
/-! DEFINITION. Remote accesses that arrive over peer links (18 R307, 10 R166): each is translated in the bound domain's tables, waits at
this device where its translation fails, is performed at its ordering point, and is answered. -/

namespace Sys2Proof.Machine

/-- A remote access as the words of R307 have it: a store (kind 0), RED (1), ATOM (2) or CAS (3). -/
def remoteLegal (a : RemoteAcc) : Bool :=
  decide (a.va < 2 ^ 57 ∧ a.va % a.size = 0 ∧ a.die < 4 ∧ a.kind < 4) &&
    (if a.kind = 0 then [1, 2, 4, 8, 16].contains a.size else [4, 8].contains a.size && decide (a.op < 8))

/-- The bytes that a remote access writes where bytes stand. -/
def remoteValue (a : RemoteAcc) (old : Nat) : Nat :=
  if a.kind = 0 then a.data
  else if a.kind = 3 then (if old = a.data % 2 ^ (8 * a.size) then a.swap else old)
  else atomicValue a.op a.size old a.data

/-- What the access does, as the ACCESS bits of 09 R152: a store or RED writes, ATOM and CAS read and write. -/
def remoteUse (a : RemoteAcc) : Nat := if a.kind = 0 ∨ a.kind = 1 then 10 else 11

/-- The link carries the entry under which an arrival is accepted (10 R166). -/
def peerBound (s : State) (link ldid rdid : Nat) : Bool := s.sys.peers.any fun e => e.2 == (link, ldid, rdid)

/-- A remote access has been answered and is gone. -/
def endRemote (s : State) (i : Nat) (a : RemoteAcc) (r : PeerReply) : State :=
  replyPeer (s.setFly { s.fly with remotes := tdel s.fly.remotes i }) a.link r

/-- A remote access by its number is tried: performed and answered; refused under a check of R18, with REMOTE_DOMAIN; left to wait for
the host where its translation fails, as an engine's beat is (09 R151). It carries no timestamp, so that with which it counts is free
(log 27); one that reads poisoned bytes is not performed, and its reason is free (DESIGN CHOICE, log 74). -/
def tryRemote (s : State) (i : Nat) (a : RemoteAcc) : State :=
  let st := (s.dom a.ldid).st
  if st = .free ∨ st = .retiring then endRemote s i a (.failed 3)
  else match freshWalk s a.die [] a.ldid a.va (remoteUse a) with
    | .busy s1 => s.keepAsked s1
    | .failed r l s1 =>
      (pendFail s1 a.die a.ldid (a.va / 2 ^ 14) r (remoteUse a) l 255 i).setFly
        { s1.fly with remotes := tset s1.fly.remotes i ⟨a, true⟩ }
    | .alien o s1 => endRemote (logDomain s1 a.ldid 4 o 255) i a (.failed 3)
    | .ok e pa s1 =>
      let s2 := s1.setCtl { s1.ctl with free := s1.ctl.free + 1 }
      let gts : Ts := ⟨Config.peerTs s1.ctl.free % 2 ^ 40, newEpoch s1⟩
      let old := leVal (peek s1 pa a.size)
      let poisoned := decide (a.kind ≠ 0) && (peekSector s1 pa).2
      if poisoned then endRemote s2 i a (.failed (2 + Config.peerAnswer s1.ctl.free % 2))
      else match unitAccess s2 e pa a.va a.size gts (some (leOf a.size (remoteValue a old))) with
        | .wait s3 => s.keepAsked s3
        | .denied c _ info o s3 =>
          if c = cDOMAIN then endRemote (logDomain s3 a.ldid info o 255) i a (.failed 3)
          else endRemote s3 i a (.failed (2 + Config.peerAnswer s1.ctl.free % 2))
        | .done _ _ s3 => endRemote s3 i a (.done (if a.kind < 2 then [] else [old]))

/-- Every remote access that waits for no repair is tried, in order of arrival. -/
def pumpRemotes (s : State) : State :=
  (s.fly.remotes.map Prod.fst).foldl (fun s i => match tget s.fly.remotes i with
    | some r => if r.parked then s else tryRemote s i r.acc
    | none => s) s

/-- A remote access arrives: one without a binding is dropped and answered NOT_BOUND. -/
def acceptRemote (s : State) (a : RemoteAcc) : State :=
  if !linkUp s a.link ∨ !remoteLegal a ∨ s.sys.fatal.isSome then s
  else if !peerBound s a.link a.ldid a.rdid then replyPeer s a.link (.failed 1)
  else
    let (i, s1) := s.fresh
    s1.setFly { s1.fly with remotes := tset s1.fly.remotes i ⟨a, false⟩ }

end Sys2Proof.Machine
end

