-- ==== Sys2Proof/Machine/Issue.lean ====
section
/-! DEFINITION. Issue and boundaries: which group an issue slot takes and which run it issues (05 R69, R70, 04 R60, 03 R42), and
what a group passes at the boundary of a run (04 R57 to R60, R67, 13 R200 to R203); frost at a boundary (05 R77 to R79). -/

namespace Sys2Proof.Machine

/-! ## Choosing -/

/-- The group waits for the translation of its PC (03 R42). -/
def awaitsFetch (s : State) (k : Nat) : Bool := s.fly.reqs.any fun e => e.2.grp == k && e.2.op == .fetch

/-- The budget of the PREEMPT handler has ended (05 R79). -/
def budgetOver (s : State) (g : Group) : Bool :=
  match g.handler with
  | some h => h.over s.sys.clk
  | none => false

/-- The group may issue a run: READY, or in TRAP with a ready handler path (05 R69). A group that is to take PREEMPT issues none
before it does (05 R77). DESIGN CHOICE, log 64: a throttled group competes, and counts its wait, as any READY group does. -/
def competes (s : State) (k : Nat) (g : Group) : Bool :=
  !awaitsFetch s k && g.run.isNone && g.paths.any Path.isReady &&
    ((g.st == .ready && !g.preempt && g.owed.isEmpty) || (g.st == .trap && !budgetOver s g))

/-- The issue slot of a group: its group slot modulo 4 (05 R68), or the port of its team's matrix sequencer (04 R64), numbered 4
plus the team slot. -/
def issueSlot (s : State) (g : Group) : Nat :=
  if g.isSeq then 4 + ((s.teamOf g).map (·.slot)).getD 0 else g.slot % 4

/-- The groups on an issue slot of a core. -/
def onSlot (s : State) (core slot : Nat) : List (Nat × Group) :=
  s.work.groups.filter fun e => s.coreOf e.2 == core && issueSlot s e.2 == slot

/-- A run is in progress on the slot. -/
def slotBusy (s : State) (core slot : Nat) : Bool :=
  (onSlot s core slot).any fun e => e.2.st != .stopped && match e.2.run with | some r => !r.closed | none => false

/-- The partition of a group. -/
def State.partOf (s : State) (g : Group) : Nat := ((s.teamOf g).map (·.part)).getD 0

/-- The partitions and weights of a core's valid entries. -/
def weights (c : Core) : List (Nat × Nat) :=
  (c.dpreg.filter fun e => e.2.1.getLsbD 63).map fun e => (bits e.2.1.toNat 55 50, bits e.2.1.toNat 10 4)

/-- A partition's deficit on a slot. -/
def deficitOf (c : Core) (slot p : Nat) : Int := (tget c.deficits (slot * 64 + p)).getD 0

/-- A new round of deficits (05 R69). -/
def newRound (c : Core) (slot : Nat) (E : List Nat) : Core :=
  { c with deficits := (weights c).foldl (fun d e =>
      tset d (slot * 64 + e.1)
        (if E.contains e.1 then deficitOf c slot e.1 + e.2 * 24 else min (deficitOf c slot e.1) 0)) c.deficits }

/-- The partition that the slot serves: the first with a positive deficit after the pointer (05 R69). -/
def chosenPart (c : Core) (slot : Nat) (E : List Nat) : Option Nat :=
  let ptr := c.pointers.getD slot 0
  leastBy (fun p => (p + 64 - ptr) % 64) (E.filter fun p => decide (0 < deficitOf c slot p))

/-- The group of a partition that is served: highest level, longest wait, lowest group slot (05 R70). -/
def chosenGroup (l : List (Nat × Group)) : Option (Nat × Group) :=
  leastBy (fun e => ((15 - e.2.level) * 2 ^ 64 + (2 ^ 64 - 1 - e.2.wait)) * 64 + e.2.slot) l

/-- The groups among which a partition's choice lies: a group that has yielded is passed over where another one stands (18 R296). -/
def preferred (l : List (Nat × Group)) : List (Nat × Group) :=
  let l1 := l.filter fun e => !e.2.passOver
  if l1.isEmpty then l else l1

/-! ## Freezing (05 R77 to R79) -/

/-- A frame in k0 to k3 can be used: its reserved bits are zero, every live lane names a valid path, and its exited bits are the
group's (19 R355, R356). -/
def frameValid (live : Mask) (f : Nat) : Bool :=
  let pathOk := fun (j : Nat) => f.testBit (64 * j + 63)
  bits f 4095 3020 == 0 &&
  ((upTo 32).all fun j => bits f (64 * j + 1) (64 * j) == 0) &&
  (lanes32.all fun l =>
    let b := bits f (2055 + 8 * l) (2048 + 8 * l)
    bits b 6 5 == 0 && bits f (2432 + 8 * l) (2432 + 8 * l) == 0 && bits f (2695 + 8 * l) (2695 + 8 * l) == 0 &&
    b.testBit 7 == !inMask live l && (!inMask live l || pathOk (b % 32)))

/-- What HALT.F adds: GTS has not fallen since PREEMPT, and DEPTH, PHREG and STATUS are the group's (19 R355). -/
def haltValid (live : Mask) (f old : Nat) : Bool :=
  frameValid live f && decide (bits old 2983 2944 ≤ bits f 2983 2944) &&
  bits f 2431 2304 == bits old 2431 2304 && bits f 3019 2984 == bits old 3019 2984

/-- Every wait that blocks a path of a group, or one that its handler holds. -/
def Group.pathWaits (g : Group) : List (Nat × Wait) :=
  g.paths.flatMap (·.waits) ++ match g.handler with | some h => h.held.flatMap (·.waits) ++ h.waits | none => []

/-- The group is FROZEN with a frame; the frame's GTS is no lower than the group's (08 R139), and the curator may see it. -/
def freezeWith (s : State) (k : Nat) (f : Nat) : State :=
  match s.group k with
  | none => s
  | some g =>
    let f1 := setBits f 2983 2944 (max (bits f 2983 2944) g.gts.v)
    let s0 := withdraw s g.pathWaits
    let s1 := if g.isSeq then s0 else writeFrame s0 g f1
    let left := (g.paths.map fun p => (p.mask, stillOut s p.fence)) ++
      match g.handler with
      | some h => (h.trap.mask, stillOut s h.fence) :: h.held.map fun p => (p.mask, stillOut s p.fence)
      | none => []
    noteFrozen (seeGroup (s1.modGroup k fun g =>
      { g with st := .frozen, paths := [], handler := none, preempt := false, run := none, frame := f1, rbcAt := rbcOf s g.gts.ep,
               fences := left.filter fun e => !e.2.isEmpty }) k) g.team

/-- The hardware's frame replaces the handler's: a forced frost, which the domain's status records (05 R79). -/
def forceFrost (s : State) (k : Nat) : State :=
  match s.group k with
  | none => s
  | some g =>
    match g.handler with
    | none => s
    | some h => freezeWith (s.modDom (s.didOf g) fun d => { d with ffrost := true }) k (setBits h.frame 3018 3018 1)

/-- HALT.F takes effect at its boundary (19 R355). -/
def haltHandler (s : State) (k : Nat) : State :=
  match s.group k with
  | none => s
  | some g =>
    match g.handler with
    | none => s
    | some h =>
      let f := readFrame s g
      if haltValid g.live f h.frame then freezeWith s k f else forceFrost s k

/-! ## The boundary -/

/-- The paths that a run leaves: its lanes sorted by successor, each path with the waits that words with a true guard in one of
its lanes began (04 R58, R59). -/
def runPaths (s : State) (r : Run) : List Path :=
  let key := fun (x : Succ) => (x.pc, x.depth, inMask r.regroup x.lane)
  ((r.succ.map key).eraseDups).map fun c =>
    let m := maskOf fun l => r.succ.any fun x => x.lane == l && key x == c
    { Path.new c.1 c.2.1 m with
      waits := r.waits.filterMap fun w => if w.1 &&& m = 0#32 then none else some w.2
      fence := stillOut s r.hold
      rdv := if c.2.2 then some (r.pc - 8) else none }

/-- The group's timestamp moves to the epoch of its core at the boundary (07 R115). -/
def rebaseAtBoundary (s : State) (k : Nat) : State :=
  match s.group k with
  | none => s
  | some g =>
    if g.gts.ep ≠ newEpoch s ∧ (s.coreAt (s.coreOf g)).epoch = newEpoch s then
      s.modGroup k fun g => { g with gts := g.gts.rebased }
    else s

/-- A handler whose paths have all finished or exited ends (13 R202). -/
def endHandler (s : State) (k : Nat) : State :=
  match s.group k with
  | none => s
  | some g =>
    if g.handler.isSome ∧ g.paths.isEmpty then
      let s1 := leaveTrap s k
      match s1.group k with
      | none => s1
      | some g1 => if g1.live = 0#32 then exitGroup s1 k else takeAtRest (seeGroup s1 k) k
    else s

/-- A killed caller's call: removed where it still waits in its inbox, else marked, so that its GRET finds the caller gone (01 R25). -/
def dropCallOf (s : State) (k : Nat) : State :=
  match (s.group k).bind (·.outCall) with
  | none => s
  | some id => match findCall s id with
    | none => s
    | some (d, c) =>
      let s1 := s.modGroup k fun g => { g with outCall := none }
      if c.taker.isNone then dropCall s1 id
      else s1.modDom d fun x => { x with inbox := x.inbox.map fun y => if y.id = id then { y with gone := true } else y }

/-- A lane of the path just run, for the next choice: of the one path that the gang has become, else the gang's lowest lane
(04 R59, R60). -/
def ranLane (s : State) (r : Run) : Nat :=
  match runPaths s r with
  | [p] => lowLane p.mask
  | _ => lowLane r.gang

/-- The group passes the boundary of its run, its results written (04 R57, R67). -/
def passBoundary (s : State) (k : Nat) (g : Group) (r : Run) : State :=
  let done := g.results.filter (·.done)
  let owed := g.results.filter (!·.done)
  let s1 := (writeResults s k done).modGroup k fun g =>
    { g with results := [], owed := g.owed ++ owed, run := none, parked := g.parked.filter fun i => !(stillOut s [i]).isEmpty }
  let s2 := rebaseAtBoundary (driftGroup s1 k) k
  if (s.dom (s.didOf g)).st = .killing then exitGroup s2 k
  else match r.trap with
    | some t => enterTrap s2 k t g.paths (r.waits.filterMap fun w => if w.1 &&& r.gang = 0#32 then none else some w.2) (stillOut s r.hold)
    | none =>
      let ps := if r.tret ≠ 0#32 ∨ r.halt then g.paths else reGang (g.paths ++ runPaths s r)
      let s3 := s2.modGroup k fun g =>
        { g with live := g.live &&& ~~~r.exits, paths := ps, justRun := ranLane s r, yielded := r.yielded, passOver := r.yielded }
      match g.handler with
      | some _ =>
        if r.halt then haltHandler s3 k
        else endHandler (s3.modGroup k fun g =>
          { g with handler := g.handler.map fun h => { h with finished := h.finished ||| r.tret } }) k
      | none =>
        if g.live &&& ~~~r.exits = 0#32 then exitGroup s3 k
        else
          let s4 := s3.modGroup k fun g => { g with st := restState ps }
          seeGroup (if owed.isEmpty then takePending s4 k else s4.modGroup k fun g => { g with st := .blocked }) k

/-- A group of a domain in KILLING stops: it exits, and its operations that wait to be sent or are catalogued are dropped (01 R22). -/
def killGroup (s : State) (k : Nat) : State :=
  let gone := fun (q : Req) => q.grp == k && (q.stage == .catalogued || q.stage == .walk || q.op == .fetch)
  let ids := (s.fly.reqs.filter fun e => gone e.2).map (·.1)
  let s1 := s.setFly { s.fly with reqs := s.fly.reqs.filter fun e => !gone e.2, posts := s.fly.posts.filter fun e => e.2.grp != k }
  let s2 := s1.setCore { s1.core with cores := s1.core.cores.map fun e =>
    (e.1, { e.2 with catalogue := e.2.catalogue.filter fun x => !ids.contains x.req, catWait := e.2.catWait.filter fun x => !ids.contains x.req }) }
  exitGroup (dropCallOf s2 k) k

/-- The requests of a group that keep it at the boundary: those that deliver a result, and those that a full fence or a range
operation of the run awaits. -/
def boundaryReqs (s : State) (k : Nat) (r : Run) : List (Nat × Req) :=
  s.fly.reqs.filter fun e => e.2.grp == k && e.2.op != .fetch && (e.2.res.isSome || r.fence.contains e.1)

/-- The accesses of a group that cannot complete before its catalogued ones have: these, and those that wait for them (08 R123, R129,
R138). -/
def heldByPark (s : State) (k : Nat) : List Nat :=
  let mine := s.fly.reqs.filter fun e => e.2.grp == k && !e.2.op.free
  let parked := (s.fly.posts.filter fun e => e.2.grp == k && e.2.parked).map (·.1)
  mine.foldl (fun b e =>
    let q := e.2
    let on := fun (f : Nat × Req) => decide (f.1 < e.1) && b.contains f.1 &&
      ((f.2.point == q.point && f.2.stage == .inject) || (f.2.samePath q && (f.2.sc || q.sc)))
    if q.stage = .catalogued ∨ (q.stage = .inject ∧ (q.waits.any b.contains ∨ mine.any on ∨
        s.fly.posts.any (fun p => decide (p.1 < e.1) && parked.contains p.1 && p.2.unit == 100 + q.point))) then b ++ [e.1] else b) []

/-- RESULTS_COMPLETE: a group whose run has issued passes its boundary once every result is written; a result held by another party
leaves it BLOCKED, and a catalogued access leaves it in FAULT once every other result is in (04 R57, R67, 19 R320). A boundary whose
drift would pass the last timestamp waits for the rebase (07 R106). -/
def resultsStep (s : State) (k : Nat) : State :=
  match s.group k with
  | none => s
  | some g =>
    match g.run with
    | none => s
    | some r =>
      let mine := s.fly.reqs.filter fun e => e.2.grp == k && (match e.2.op with | .prefetch _ | .fetch => false | _ => true)
      let awaited := boundaryReqs s k r
      let undone := g.results.filter (!·.done)
      let walking := mine.any fun e => e.2.stage == .walk
      let parked := mine.any (fun e => e.2.stage == .catalogued) || (s.fly.posts.any fun e => e.2.grp == k && e.2.parked) ||
        s.fly.cmds.any fun e => e.2.grp == k && e.2.parked && e.2.phase == 0
      let stands := fun (x : GState) => if g.handler.isSome ∧ x ≠ .fault then s else s.modGroup k fun g => { g with st := x }
      if r.closed && (s.dom (s.didOf g)).st == .killing then killGroup (writeResults s k (g.results.filter (·.done))) k
      else if !r.closed || g.st == .stopped || g.st == .fault || walking then s
      else if parked then
        if undone.any (·.held) then stands .blocked
        else if awaited.all fun e => (heldByPark s k).contains e.1 then stands .fault else s
      else if undone.any (!·.held) then s
      else if !undone.isEmpty then stands .blocked
      else if !awaited.isEmpty || mine.any (·.2.sc) || driftHolds s g then s
      else passBoundary s k g r

/-- RESULTS_COMPLETE (04 R67). -/
def execResultsComplete (s : State) : Out :=
  match s.ctl.ev with
  | some (.resultsComplete k) => .next (whenUp s fun s => resultsStep s k)
  | _ => .next s

/-! ## Fetching a run (03 R42) -/

/-- How the fetch of a run ends. -/
inductive Fetched where
  | words (ws : List Bits64) (s : State)
  | miss (va : Nat) (s : State)
  | bad (t : Nat) (sub : Nat) (info owner : Nat) (s : State)

/-- The key index of the sector of an address, at its line or in DRAM. -/
def keyAt (s : State) (pa : Nat) : Nat :=
  if isHost pa then noKey
  else match findLine s (homeSlice s pa) pa with
    | some lk => ((s.line lk).map fun l => sectorKey s l (bits pa 7 7)).getD noKey
    | none => (s.sector (pa / 128)).key

/-- The word that a fetch finds at an address: where the host has rewritten it under a grid in progress, the old word or the new one
(03 R46). DESIGN CHOICE (log 69): how long an old word may still be found. -/
def fetchWord (s : State) (pa : Nat) : Bits64 × State :=
  match tget s.mem.oldText (pa / 8) with
  | some old =>
    let f := s.ctl.free
    (BitVec.ofNat 64 (if Config.oldWord f then old else leVal (peek s pa 8)), s.setCtl { s.ctl with free := f + 1 })
  | none => (BitVec.ofNat 64 (leVal (peek s pa 8)), s)

/-- The subcode of a fetch that meets poison (13 R207). -/
def fetchEcc (s : State) (pa : Nat) : Nat :=
  if isHost pa then 1
  else match findLine s (homeSlice s pa) pa with
    | some lk => eccSub s lk [bits pa 7 7]
    | none => 1

/-- The words of a run from an address: up to the first with B = 1, at most 24. -/
def fetchRun (s : State) (core did pc : Nat) : Nat → Fetched
  | 0 => .words [] s
  | n + 1 =>
    match tlbFind s core did (pc / 2 ^ 14) with
    | none => .miss pc s
    | some (e, s1) =>
      if !allowed e.pte 4 then .miss pc (tlbDrop s1 core did (pc / 2 ^ 14))
      else
        let pa := physOf e (core / 48) pc
        if !isHost pa && keyAt s1 pa != pteKey e.pte then .bad cDOMAIN 0 4 (keyAt s1 pa) s1
        else if (peekSector s1 pa).2 then .bad cECC (fetchEcc s1 pa) (pc / 128 * 128) 0 s1
        else
          let w := fetchWord s1 pa
          if w.1.getLsbD 63 then .words [w.1] w.2
          else match fetchRun w.2 core did ((pc + 8) % 2 ^ 57) n with
            | .words ws s2 => .words (w.1 :: ws) s2
            | x => x

/-- The first illegal word of a run as fetched, or its 24th word where none has B = 1 (03 R42, 16 R254). -/
def illegalIn (ws : List Bits64) : Option Bits64 :=
  match ws.find? fun w => match decodeWord w with | .ok _ => false | .error _ => true with
  | some w => some w
  | none => match ws.getLast? with
    | some w => if w.getLsbD 63 then none else some w
    | none => none

/-- A wait for the translation of a PC enters the table of requests. -/
def fetchReq (s : State) (k : Nat) (g : Group) (va : Nat) : Req :=
  { grp := k, core := s.coreOf g, did := s.didOf g, part := s.partOf g, pc := va, opc := 0, hint := 0, dreg := none, iseq := 0,
    mask := 0#32, op := .fetch, size := 8, sx := false, na := false, order := .plain, scope := .grp, rmt := none,
    lanes := [{ lane := 0, va := va, pa := 0, size := 8, data := 0, data2 := 0 }], res := none, gts := g.gts, held := false,
    waits := [], stage := .walk, pte := none, point := 0, hops := [], enq := 0, renew := none, t0 := 0, back := [], ts := none,
    bytes := [], fail := none, rs := false, run := 0, late := false, lvl := 0, paid := 0 }

/-- A run starts: its path leaves the group's paths, and the group leaves READY for ISSUING with its level at the base and its
wait at 0 (04 R54, 05 R70); a PREEMPT handler's budget runs from its first word (05 R77). -/
def startRun (s : State) (k : Nat) (p : Path) (ws : List Bits64) : State :=
  let (n, s1) := s.fresh
  s1.modGroup k fun g =>
    { g with st := if g.st = .ready then .issuing else g.st, level := g.base, wait := 0,
             paths := g.paths.filter (· != p),
             run := some { Run.of p.pc p.depth p.mask ws with hold := p.fence, num := n },
             handler := g.handler.map fun h =>
               { h with budget := if h.trap.cause = cPREEMPT ∧ h.budget.isNone then some (s.sys.clk + 512) else h.budget } }

/-- A trap before the run's first word. -/
def trapBefore (s : State) (k : Nat) (g : Group) (p : Path) (cause sub info : Nat) : State :=
  enterTrap s k { cause := cause, sub := sub, info := info, pc := p.pc, depth := p.depth, mask := p.mask, word := true, owner := 0 }
    (g.paths.filter (· != p)) p.waits p.fence

/-- A group that won its slot issues a run of the path chosen: the state, and the number of its words (0: none). -/
def issueRun (s : State) (k : Nat) (g : Group) : State × Nat :=
  match nextPath s k g with
  | none => (s, 0)
  | some p =>
    if p.pc % 8 ≠ 0 then (trapBefore s k g p cFETCH 0 p.pc, 0)
    else match fetchRun s (s.coreOf g) (s.didOf g) p.pc 24 with
      | .miss va s1 => (enter s1 (fetchReq s1 k g va), 0)
      | .bad c sub info o s1 =>
        (trapBefore (if c = cDOMAIN then logDomain s1 (s1.didOf g) info o (s1.coreOf g) else s1) k g p c sub info, 0)
      | .words ws s1 =>
        match illegalIn ws with
        | some w => (trapBefore s1 k g p cILLEGAL 0 w.toNat, 0)
        | none => (startRun s1 k p ws, ws.length)

/-- A free issue slot decides (05 R69): a partition, its group, one run; the run is charged to the partition. DESIGN CHOICE, log 64: a
decision that issues no word, because a fetch missed or trapped, charges nothing and leaves the pointer. -/
def slotDecision (s : State) (core slot : Nat) : State :=
  let c := s.coreAt core
  let can := (onSlot s core slot).filter fun e => competes s e.1 e.2
  let E := (can.map fun e => s.partOf e.2).eraseDups
  if slotBusy s core slot || can.isEmpty then s
  else
    let c1 := if E.any fun p => decide (0 < deficitOf c slot p) then c else newRound c slot E
    match chosenPart c1 slot E with
    | none => s
    | some p =>
      let mine := can.filter fun e => s.partOf e.2 == p
      match chosenGroup (preferred mine) with
      | none => s
      | some (k, g) =>
        let r := issueRun (s.modCore core fun _ => c1) k g
        let s1 := r.1.mapGroups fun x y => if mine.any (·.1 == x) then { y with passOver := false } else y
        if r.2 = 0 then s1
        else s1.modCore core fun c =>
          { c with deficits := tset c.deficits (slot * 64 + p) (deficitOf c slot p - r.2),
                   pointers := setAt (c.pointers ++ List.replicate (4 - c.pointers.length) 0) slot (p + 1) }

/-- The matrix sequencer of a team slot issues through its own port (04 R64). -/
def portDecision (s : State) (core slot : Nat) : State :=
  if slotBusy s core slot then s
  else match (onSlot s core slot).find? fun e => competes s e.1 e.2 with
    | some (k, g) => (issueRun s k g).1
    | none => s

/-- ISSUE_SLOT_DECISION (05 R69). -/
def execIssueSlotDecision (s : State) : Out :=
  match s.ctl.ev with
  | some (.issueSlotDecision core slot) => .next (whenUp s fun s =>
      if slot < 4 then slotDecision s core slot else portDecision s core slot)
  | _ => .next s

/-! ## Timers -/

/-- PATH_DUE: the paths whose fairness timer has reached 256 are due (04 R60). -/
def execPathDue (s : State) : Out :=
  match s.ctl.ev with
  | some (.pathDue k) => .next (whenUp s fun s =>
      s.modGroup k fun g => { g with paths := g.paths.map fun p => if 256 ≤ p.timer then { p with due := true } else p })
  | _ => .next s

/-- WAIT_AGING: a READY group's wait reaches the next multiple of 1024, and its level rises (05 R70). -/
def execWaitAging (s : State) : Out :=
  match s.ctl.ev with
  | some (.waitAging k) => .next (whenUp s fun s =>
      match s.group k with
      | some g => if waiting g then passTime s (1024 - g.wait % 1024) 0 else s
      | none => s)
  | _ => .next s

/-! ## PREEMPT -/

/-- The caller of a gate call whose entry allows frost while the call is taken (01 R24). -/
def callTaken (s : State) (g : Group) : Bool :=
  match g.outCall with
  | some id => (match findCall s id with | some (_, c) => c.taker.isSome && c.frz | none => false)
  | none => false

/-- The frame of a group as its state stands. -/
def frameNow (s : State) (g : Group) (ps : List Path) (rdv : Bool) : Nat :=
  frameBits g ps (frameStatus rdv false (callTaken s g) false)

/-- A group of the team other than this one is frozen or evicted. -/
def memberFrozen (s : State) (k : Nat) (g : Group) : Bool :=
  s.work.groups.any fun e => e.1 != k && e.2.team == g.team && (e.2.st == .frozen || e.2.st == .evicted)

/-- A group at rest enters its handler for PREEMPT; a matrix sequencer freezes at once (05 R77). -/
def preemptAtRest (s : State) (k : Nat) : State :=
  match s.group k with
  | none => s
  | some g =>
    let f := frameNow s g g.paths false
    if g.isSeq then freezeWith s k f
    else
      let t0 : Trap := { cause := cPREEMPT, sub := 0, info := 0, pc := 0, depth := 0, mask := 0#32, word := false, owner := 0 }
      match sourcePath s k g t0 with
      | none => freezeWith s k f
      | some p =>
        takeTrap (withdraw s p.waits) k { t0 with pc := p.resume, depth := p.depth, mask := p.mask } (g.paths.filter (· != p)) [] p.fence f

/-- PREEMPT is taken: at a boundary in READY or BLOCKED; in RENDEZVOUS, before the rendezvous completes, where another member of the team
is frozen, each path at its REGROUP target (a wait that still blocks one is not saved: log 65); by a caller whose call is taken with
F = 1 (05 R77, 04 R67, 01 R24). -/
def preemptStep (s : State) (k : Nat) : State :=
  match s.group k with
  | none => s
  | some g =>
    if !g.preempt || g.handler.isSome then s
    else if g.st = .rendezvous then
      if memberFrozen s k g ∧ !(s.teamOf g).any (·.repack) then
        freezeWith s k (frameNow s g (g.paths.map fun p => { p with rdv := none, waits := [] }) true)
      else s
    else if g.st = .ready ∨ g.st = .blocked then
      match g.run with
      | none => if g.owed.isEmpty ∨ callTaken s g then preemptAtRest s k else s
      | some r =>
        if r.closed ∧ callTaken s g ∧ g.outCall.isSome then preemptAtRest (passBoundary s k g r) k else s
    else s

/-- PREEMPT_TAKE (05 R77). -/
def execPreemptTake (s : State) : Out :=
  match s.ctl.ev with
  | some (.preemptTake k) => .next (whenUp s fun s => preemptStep s k)
  | _ => .next s

/-- FORCED_FROST: a handler whose budget has ended is stopped at its boundary (05 R79). -/
def execForcedFrost (s : State) : Out :=
  match s.ctl.ev with
  | some (.forcedFrost k) => .next (whenUp s fun s =>
      match s.group k with
      | some g => if g.st = .trap ∧ g.run.isNone ∧ budgetOver s g then forceFrost s k else s
      | none => s)
  | _ => .next s

end Sys2Proof.Machine
end

