-- ==== Sys2Proof/Machine/CrossLane.lean ====
section
/-! DEFINITION. The cross-lane instructions, opcodes 0x78 to 0x7E (18 R299 to R302), and the rule of collectives (04 R66). -/

namespace Sys2Proof.Machine

/-- Whether a collective acts (04 R66): only when the gang is the entry mask and the guard is true in all of it; a guard
false in every lane makes it a no-op, and any other case traps with MASK. -/
def collective (c : Ctx) : Except Trap Bool :=
  if c.act = 0#32 then .ok false
  else if c.r.gang = c.g.live ∧ c.act = c.r.gang then .ok true
  else .error (c.trap cMASK 0 c.r.gang.toNat)

/-- A cross-lane word: the matrix sequencer may not issue it (18 R292); a poisoned source row leaves the destination
unwritten; the results are variable-latency. The function gives the destination lanes, their values and flags. -/
def crossWord (w : RWord) (op : Nat) (coll : Bool) (n : Widths)
    (f : Ctx → List Bits64 → List Bits64 → List Bits64 → Mask × (Nat → LaneRes)) (s : State) : Out :=
  issueWord w.h (lanewiseR w) 13 (fun c s =>
    match checkR s c w op false n with
    | .error t => .error t
    | .ok () =>
      match (if coll then collective c else .ok (c.act != 0#32)) with
      | .error t => .error t
      | .ok acts =>
        if !acts then .ok s
        else match poisonedRow s c (readsR w n) with
          | some r => .ok (pendEcc s c r)
          | none =>
            let r := f c (opdVals s c w.a w.pa w.k.toNat n.a) (opdVals s c w.b w.pb w.k.toNat n.b)
              (opdVals s c w.c w.pc w.k.toNat n.c)
            .ok (addResult s c.k (doneResult (destOf s c w.d n.d) r.1 (fun l => (r.2 l).1.toNat) (fun l => (r.2 l).2)))) s

/-- Element l of a list of lane values. -/
def laneAt (v : List Bits64) (l : Nat) : Word := lo32 (v.getD l 0#64)

/-- PERM: lane b[4:0] of a (18 R300). -/
def execPerm (w : RWord) (s : State) : Out :=
  crossWord w 0x78 false {} (fun c a b _ => (c.act, fun l => res32 (laneAt a ((laneAt b l).toNat % 32)))) s

/-- SHUF: lane b[4:0] of a, or of c where b[5] is 1; 0 where b[6] is 1 (18 R300). -/
def execShuf (w : RWord) (s : State) : Out :=
  crossWord w 0x79 false {} (fun c a b d => (c.act, fun l =>
    let x := (laneAt b l).toNat
    if x / 64 % 2 = 1 then res32 0#32
    else if x / 32 % 2 = 0 then res32 (laneAt a (x % 32)) else res32 (laneAt d (x % 32)))) s

/-- WREDUCE: the combination of the members' values, in every member or once in an s-register; with an s-register the flags
go to every member (18 R301). -/
def execWreduce (w : RWord) (s : State) : Out :=
  crossWord w 0x7A true {} (fun c a _ _ =>
    let r := combine w.m.toNat ((lanesOf c.act).map (laneAt a))
    (c.act, fun _ => r)) s

/-- WSCAN: the inclusive combination over the members up to each lane (18 R301). -/
def execWscan (w : RWord) (s : State) : Out :=
  crossWord w 0x7B true {} (fun c a _ _ =>
    (c.act, fun l => combine w.m.toNat (((lanesOf c.act).filter (· ≤ l)).map (laneAt a)))) s

/-- MATCH: the members whose value equals the lane's, on 32 or 64 bits (18 R302). -/
def execMatchL (w : RWord) (s : State) : Out :=
  crossWord w 0x7C true ⟨1, if w.m.toNat % 2 = 1 then 2 else 1, 1, 1⟩ (fun c a _ _ =>
    (c.act, fun l => res32 (maskOf fun j => inMask c.act j && a.getD j 0#64 == a.getD l 0#64))) s

/-- RDLANE: a in lane s(B)[4:0] (18 R300). -/
def execRdlane (w : RWord) (s : State) : Out :=
  crossWord w 0x7D false {} (fun c a b _ => (c.act, fun l => res32 (laneAt a ((laneAt b l).toNat % 32)))) s

/-- WRLANE: lane s(B)[4:0] alone, where it is active, takes a of that lane (18 R300). -/
def execWrlane (w : RWord) (s : State) : Out :=
  crossWord w 0x7E false {} (fun c a b _ =>
    let j := (laneAt b 0).toNat % 32
    (maskOf fun l => l == j && inMask c.act l, fun l => res32 (laneAt a l))) s

end Sys2Proof.Machine
end

