-- ==== Sys2Proof/Machine/MemoryFam.lean ====
section
/-! DEFINITION. The memory instructions, opcodes 0x80 to 0x93 (18 R303 to R318): what a word checks and which requests it makes.
Requests are performed by the events of the memory pipeline. -/

namespace Sys2Proof.Machine

/-- Bytes of a width (16 R247). -/
def widthBytes (w : Width) : Nat :=
  match w with
  | .w8 => 1 | .w16 => 2 | .w32 => 4 | .w64 => 8 | .w128 => 16
/-- Registers a value of a width takes. -/
def widthRegs (w : Width) : Nat := max 1 (widthBytes w / 4)

/-- The spaces of 06 R84. -/
inductive Space where
  | global | scratch | cluster | const
  deriving DecidableEq, Repr

/-- The operand names a vector register. -/
def lanewiseM (w : MWord) : Bool := w.data.isV || w.base.isV

/-- The lanes for which a word makes accesses: each active lane, or one access for the word where BASE is an s-register
(18 R292). -/
def accessLanes (c : Ctx) (w : MWord) : List Nat :=
  if w.base.isS then (if c.act = 0#32 then [] else [32]) else lanesOf c.act

/-- Lane l of an operand's values; the uniform access takes those of the highest active lane (18 R292). -/
def valueAt (c : Ctx) (v : List Nat) (l : Nat) : Nat := v.getD (if l = 32 then highLane c.act else l) 0

/-- The value of cnt registers of an operand from register j, lane by lane. -/
def operandNats (s : State) (c : Ctx) (o : Opd) (j cnt : Nat) : List Nat :=
  match cnt with
  | 0 => List.replicate 32 0
  | n + 1 =>
    ((opdWords s c o .ident 0 j).zip (operandNats s c o (j + 1) n)).map fun e => e.1.toNat + 2 ^ 32 * e.2

/-- The 64-bit segment of a word; 0 without one (16 R248). -/
def segmentOf (s : State) (c : Ctx) (w : MWord) : Nat := sopd s c w.seg 2

/-- The address of each access, exact (16 R248). A `.RMT` segment gives its link in bits [63:61], read here as zero
(18 R307). -/
def formAddress (s : State) (c : Ctx) (w : MWord) (sp : Space) (rmt : Bool) (l : Nat) : Int :=
  let b : Int := valueAt c ((opdWords s c w.base .ident 0 0).map (·.toNat)) l
  let seg := if rmt then segmentOf s c w % 2 ^ 61 else segmentOf s c w
  b + w.off.toInt + (if sp = .global then seg else 0)

/-- An address as %trapinfo holds it. -/
def addressInfo (a : Int) : Nat := (a % 2 ^ 64).toNat

/-- The team of a cluster rank of the issuing team (06 R86). -/
def rankTeam (s : State) (c : Ctx) (rank : Nat) : Option (Nat × Team) :=
  match s.teamOf c.g with
  | none => none
  | some t => s.work.teams.find? fun e => e.2.grid == t.grid && e.2.cluster == t.cluster && e.2.rank == rank

/-- Bytes of scratchpad the program may reach (06 R84, R85). -/
def padExtent (s : State) (g : Group) : Nat := ((s.teamOf g).bind s.launchOf |>.map (·.srows * 256)).getD 0

/-- An access of a size lies within its space (06 R84). -/
def inExtent (s : State) (c : Ctx) (sp : Space) (a n : Nat) : Bool :=
  match sp with
  | .global => decide (a + n ≤ 2 ^ 57)
  | .scratch => decide (a + n ≤ padExtent s c.g)
  | .cluster =>
    let clus := ((s.teamOf c.g).bind s.launchOf |>.map (·.clus)).getD 0
    decide (a < 2 ^ 24 ∧ bits a 23 20 < clus ∧ a % 2 ^ 20 + n ≤ padExtent s c.g) &&
      (match rankTeam s c (bits a 23 20) with | some e => !e.2.retired | none => false)
  | .const => decide (a + n ≤ ((s.teamOf c.g).bind s.launchOf |>.map (·.csize * 16)).getD 0)

/-- The addresses of a word's accesses, checked as 16 R248 and 06 R84 lay down: formation, alignment, extent, each reporting the
lowest offending lane. -/
def checkAddresses (s : State) (c : Ctx) (w : MWord) (sp : Space) (rmt : Bool) (size align : Nat) :
    Except Trap (List (Nat × Nat)) :=
  let as := (accessLanes c w).map fun l => (l, formAddress s c w sp rmt l)
  let top : Int := if sp = .global then 2 ^ 57 else 2 ^ 32
  match as.find? fun e => decide (e.2 < 0 ∨ top ≤ e.2) with
  | some e => .error (c.trap cBOUNDS 0 (addressInfo e.2))
  | none =>
    let ns := as.map fun e => (e.1, e.2.toNat)
    match ns.find? fun e => e.2 % align != 0 with
    | some e => .error (c.trap cALIGN 0 e.2)
    | none => match ns.find? fun e => !inExtent s c sp e.2 size with
      | some e => .error (c.trap cBOUNDS 0 e.2)
      | none => .ok ns

/-- The v-registers that the data of a word names. -/
def dataRegs (w : MWord) : Nat → List Nat := vregsOf w.data

/-- The checks of a memory word before its addresses: what the matrix sequencer may issue (18 R292), and its registers. -/
def checkM (s : State) (c : Ctx) (w : MWord) (op : Nat) (seqOk : Bool) (cnt : Nat) : Except Trap Unit :=
  if c.g.isSeq && !seqOk then .error (c.trap cROLE 0 op)
  else checkRegs s c op (vregsOf w.data cnt ++ vregsOf w.base 1)

/-- The accesses that the release or the fences before it make a word wait for: a release all earlier accesses of its path, a later
write those of a release fence (08 R129, R131). -/
def waitsFor (s : State) (c : Ctx) (order : Order) (writes : Bool) : List Nat :=
  let held := if writes then stillOut s c.r.hold else []
  if order = .rel ∨ order = .ar then (lanesAccesses s c.k c.r.gang) ++ held else held

/-- The next core issue sequence number (13 R204). -/
def nextIssue (s : State) (core : Nat) : Nat × State :=
  ((s.coreAt core).catSeq, s.modCore core fun c => { c with catSeq := (c.catSeq + 1) % 65536 })

/-- The number of a destination register, for the catalogue (13 R204). -/
def regNumber (o : Opd) : Option Nat :=
  match o with
  | .v n => some n
  | .s n => some (0xC0 + n)
  | _ => none

/-- The request a word makes of some of its accesses. -/
def mkReq (s : State) (c : Ctx) (w : MWord) (op : Nat) (o : ReqOp) (size iseq : Nat) (res : Option Nat) (rmt : Option Nat)
    (lanes : List LaneAcc) : Req :=
  let ws := waitsFor s c w.order o.writes
  { grp := c.k, core := s.coreOf c.g, did := s.didOf c.g, part := ((s.teamOf c.g).map (·.part)).getD 0, pc := c.pc, opc := op,
    hint := w.hint.toNat, dreg := if res.isSome then regNumber w.data else none, iseq := iseq, mask := c.r.gang, op := o,
    size := size, sx := o == .load && w.hint.toNat.testBit 0 && size < 4, na := o == .load && w.hint.toNat.testBit 2,
    order := w.order, scope := w.scope, rmt := rmt, lanes := lanes, res := res, gts := c.g.gts,
    held := w.order == .rel || w.order == .ar || !ws.isEmpty, waits := ws, stage := .walk, pte := none, point := 0, hops := [],
    enq := 0, renew := none, t0 := 0, back := [], ts := none, bytes := [], fail := none,
    rs := lanes.any fun a => (if a.lane = 32 then lanesOf c.act else [a.lane]).any fun l => c.g.depth.getD l 0 != 0,
    run := c.r.num, late := false, lvl := 0, paid := 0 }

/-- Accesses in groups of equal key, in order of first appearance. -/
def groupAccs (key : LaneAcc → Nat) (ls : List LaneAcc) : List (List LaneAcc) :=
  ((ls.map key).eraseDups).map fun k => ls.filter fun a => key a == k

/-- A result that requests of number rid will deliver. -/
def waitingResult (d : Dest) (m : Mask) (rid : Nat) (held : Bool) : Result :=
  { dest := d, lanes := m, vals := [], flags := [], src := some rid, done := false, held := held }

/-- Enters requests in order, and lets those whose turn it is set out. -/
def enterAll (s : State) (qs : List Req) : State := pump (qs.foldl enter s)

/-- The accesses of a word by lane, with their data. -/
def laneAccs (c : Ctx) (as : List (Nat × Nat)) (size : Nat) (x y : List Nat) : List LaneAcc :=
  as.map fun e => { lane := e.1, va := e.2, pa := 0, size := size, data := valueAt c x e.1, data2 := valueAt c y e.1 }

/-- The result of a word and the requests that deliver it. -/
def issueReqs (s : State) (c : Ctx) (w : MWord) (op : Nat) (o : ReqOp) (size cnt : Nat) (hasRes : Bool) (rmt : Option Nat)
    (groups : List (List LaneAcc)) : State :=
  let (iseq, s1) := nextIssue s (s.coreOf c.g)
  if hasRes then
    let (rid, s2) := s1.fresh
    let s3 := addResult s2 c.k (waitingResult (destOf s c w.data cnt) c.act rid false)
    settle (enterAll s3 (groups.map (mkReq s c w op o size iseq (some rid) rmt))) c.k rid
  else enterAll s1 (groups.map (mkReq s c w op o size iseq none rmt))

/-- The link a `.RMT` word names: s(n+1)[31:29] (18 R307). -/
def linkOf (s : State) (c : Ctx) (w : MWord) : Nat := segmentOf s c w / 2 ^ 61

/-- A remote word that has no binding, or whose link is not up, is not sent: it writes no destination, and the group takes LINK at
its boundary (18 R307, 10 R168). -/
def remoteRefusal (s : State) (c : Ctx) (l : Nat) : Option Trap :=
  let t := fun (r : Nat) => { c.trap cLINK 0 (l + r * 256) with word := false }
  if (bindingOf s l (s.didOf c.g)).isNone then some (t 1) else if !linkUp s l then some (t 0) else none

/-- The body of a global word: checks, addresses, and its requests, or a refusal of a remote one. -/
def globalBody (w : MWord) (op : Nat) (o : ReqOp) (seqOk readsData hasRes : Bool) (cnt size align grain : Nat) (c : Ctx)
    (s : State) : Except Trap State :=
  match checkM s c w op seqOk cnt with
  | .error t => .error t
  | .ok () =>
    match poisonedRow s c (vregsOf w.base 1 ++ (if readsData then vregsOf w.data cnt else [])) with
    | some r => .ok (pendEcc s c r)
    | none =>
      let rmt := (o.writes && w.hint.toNat.testBit 3) && (match o with | .push | .pop => false | _ => true)
      match checkAddresses s c w .global rmt size align with
      | .error t => .error t
      | .ok as =>
        if as.isEmpty then .ok s
        else
          let half := if o = .cas then cnt / 2 else cnt
          let ls := laneAccs c as size (operandNats s c w.data 0 half) (operandNats s c w.data half half)
          let link := linkOf s c w
          match (if rmt then remoteRefusal s c link else none) with
          | some t => .ok (addBoundaryTrap s c.k t)
          | none =>
            let gs := if grain = 0 then ls.map fun a => [a] else groupAccs (fun a => a.va / grain) ls
            .ok (issueReqs s c w op o size (if o = .cas then half else cnt) hasRes (if rmt then some link else none) gs)

/-- LD.C: the grid's own copy of its constants, fixed-latency (18 R305). -/
def constBody (w : MWord) (c : Ctx) (s : State) : Except Trap State :=
  let cnt := (widthRegs w.width)
  match checkM s c w 0x80 (!lanewiseM w) cnt with
  | .error t => .error t
  | .ok () =>
    match poisonedRow s c (vregsOf w.base 1) with
    | some r => .ok (pendEcc s c r)
    | none =>
      match checkAddresses s c w .const false (widthBytes w.width) (widthBytes w.width) with
      | .error t => .error t
      | .ok as =>
        let k := (((s.teamOf c.g).bind fun t => s.grid t.grid).map (·.consts)).getD []
        let vals := as.map fun e => (e.1, loadValue (widthBytes w.width) (w.hint.toNat.testBit 0) (k.drop e.2))
        .ok (writeDest s c.k (destOf s c w.data cnt) c.act (resultValue vals))

/-- LD (18 R305): one request per 128 B sector. -/
def execLd (w : MWord) (s : State) : Out :=
  issueWord w.h (lanewiseM w) 13 (fun c s =>
    if w.hint.toNat.testBit 1 then constBody w c s
    else globalBody w 0x80 .load (!lanewiseM w) false true (widthRegs w.width) (widthBytes w.width) (widthBytes w.width) 128 c s) s

/-- ST (18 R306): one request per line. -/
def execSt (w : MWord) (s : State) : Out :=
  issueWord w.h (lanewiseM w) 13
    (globalBody w 0x81 .store (!lanewiseM w) true false (widthRegs w.width) (widthBytes w.width) (widthBytes w.width) 256) s

/-- MST (18 R306): four parts per line, of which a page without REPL keeps one (06 R102). -/
def execMst (w : MWord) (s : State) : Out :=
  issueWord w.h (lanewiseM w) 13 (fun c s =>
    match checkM s c w 0x86 false (widthRegs w.width) with
    | .error t => .error t
    | .ok () =>
      match poisonedRow s c (vregsOf w.base 1 ++ vregsOf w.data (widthRegs w.width)) with
      | some r => .ok (pendEcc s c r)
      | none =>
        match checkAddresses s c w .global false (widthBytes w.width) (widthBytes w.width) with
        | .error t => .error t
        | .ok as =>
          let ls := laneAccs c as (widthBytes w.width) (operandNats s c w.data 0 (widthRegs w.width)) []
          let (iseq, s1) := nextIssue s (s.coreOf c.g)
          let qs := (groupAccs (fun a => a.va / 256) ls).flatMap fun g =>
            (upTo 4).map fun d => mkReq s c w 0x86 (.mst d) (widthBytes w.width) iseq none none g
          .ok (if as.isEmpty then s else enterAll s1 qs)) s

/-- PREF (18 R308): a renewal of each sector that writes no register. -/
def execPref (w : MWord) (s : State) : Out :=
  issueWord w.h (lanewiseM w) 13
    (globalBody w 0x87 (.prefetch (w.hint.toNat.testBit 0)) false false false 0 1 1 128) s

/-- FENCE (08 R131, 18 R309). -/
def execFence (w : MWord) (s : State) : Out :=
  issueWord w.h false 13 (fun c s =>
    .ok (if c.act = 0#32 then s
      else match w.order with
        | .plain => fullFence s c
        | .acq => s
        | .rel | .ar => releaseFence s c)) s

/-- A range operation in each lane: it waits for the earlier accesses of its group, and the group for it at the boundary
(18 R310). -/
def rangeWord (w : MWord) (op : Nat) (o : ReqOp) (s : State) : Out :=
  issueWord w.h (lanewiseM w) 13 (fun c s =>
    match checkM s c w op false 1 with
    | .error t => .error t
    | .ok () =>
      match poisonedRow s c (vregsOf w.base 1 ++ vregsOf w.data 1) with
      | some r => .ok (pendEcc s c r)
      | none =>
        match checkAddresses s c w .global false 0 1 with
        | .error t => .error t
        | .ok as =>
          let len := operandNats s c w.data 0 1
          match as.find? fun e => decide (2 ^ 57 ≤ e.2 + valueAt c len e.1 ∧ valueAt c len e.1 ≠ 0) with
          | some e => .error (c.trap cBOUNDS 0 e.2)
          | none =>
            let (iseq, s1) := nextIssue s (s.coreOf c.g)
            let ls := (as.filter fun e => valueAt c len e.1 != 0).map fun e =>
              ({ lane := e.1, va := e.2, pa := 0, size := valueAt c len e.1, data := valueAt c len e.1, data2 := 0 } : LaneAcc)
            let before := groupAccesses s c.k
            let first := s1.ctl.nextId
            let s2 := (ls.map fun a => { mkReq s c w op o 4 iseq none none [a] with waits := before }).foldl enter s1
            let s3 := s2.modRun c.k fun r => { r with fence := r.fence ++ (upTo ls.length).map (first + ·) }
            .ok (pump s3)) s

/-- CLEANR (18 R310). -/
def execCleanr (w : MWord) (s : State) : Out := rangeWord w 0x89 .clean s
/-- INVALR (18 R310). -/
def execInvalr (w : MWord) (s : State) : Out := rangeWord w 0x8A .inval s
/-- FLUSHR (18 R310). -/
def execFlushr (w : MWord) (s : State) : Out := rangeWord w 0x8B .flush s

/-- The lanes whose accessed bytes overlap those of another (18 R313). -/
def conflicts (as : List (Nat × Nat)) (size : Nat) : Mask :=
  maskOf fun l => as.any fun a => a.1 == l && as.any fun b => b.1 != l && decide (a.2 < b.2 + size ∧ b.2 < a.2 + size)

/-- An atomic word traps with ATOMIC_CONFLICT where two lanes share a byte (18 R313). -/
def noConflict (w : MWord) (sp : Space) (c : Ctx) (s : State) (f : Ctx → State → Except Trap State) : Except Trap State :=
  match checkAddresses s c w sp (sp = .global && w.hint.toNat.testBit 3) (widthBytes w.width) (widthBytes w.width) with
  | .ok as =>
    let m := conflicts as (widthBytes w.width)
    if m ≠ 0#32 then .error (c.trap cCONFLICT 0 m.toNat) else f c s
  | .error _ => f c s

/-- The checks of a word's registers come before its addresses. -/
def atomicBody (w : MWord) (op : Nat) (o : ReqOp) (sp : Space) (cnt : Nat) (c : Ctx) (s : State)
    (f : Ctx → State → Except Trap State) : Except Trap State :=
  match checkM s c w op false cnt with
  | .error t => .error t
  | .ok () =>
    if (poisonedRow s c (vregsOf w.base 1 ++ vregsOf w.data cnt)).isSome || o == .load then f c s else noConflict w sp c s f

/-- ATOM (18 R311): one request per lane. -/
def execAtom (w : MWord) (s : State) : Out :=
  let n := (widthRegs w.width)
  let o := ReqOp.atomic (w.hint.toNat % 8)
  issueWord w.h (lanewiseM w) 13 (fun c s =>
    atomicBody w 0x8C o .global n c s (globalBody w 0x8C o false true true n (widthBytes w.width) (widthBytes w.width) 0)) s

/-- CAS (18 R312): the compare value in DATA, the swap value in the next register of the width. -/
def execCas (w : MWord) (s : State) : Out :=
  let n := 2 * (widthRegs w.width)
  issueWord w.h (lanewiseM w) 13 (fun c s =>
    atomicBody w 0x8D .cas .global n c s (globalBody w 0x8D .cas false true true n (widthBytes w.width) (widthBytes w.width) 0)) s

/-- RED (18 R311). -/
def execRed (w : MWord) (s : State) : Out :=
  let n := (widthRegs w.width)
  let o := ReqOp.red (w.hint.toNat % 8)
  issueWord w.h (lanewiseM w) 13 (fun c s =>
    atomicBody w 0x8E o .global n c s (globalBody w 0x8E o false true false n (widthBytes w.width) (widthBytes w.width) 0)) s

/-- PROBE (18 R314). -/
def execProbe (w : MWord) (s : State) : Out :=
  issueWord w.h (lanewiseM w) 13 (globalBody w 0x91 .probe false false true 2 8 8 128) s

/-- Each queue line that a word names lies on a cacheable page of device memory without REPL; one that translates to another page
traps with BOUNDS (18 R315). -/
def queuePages (s : State) (c : Ctx) (as : List (Nat × Nat)) : Option Nat :=
  (as.find? fun e => match translateNow s (s.coreOf c.g) (s.didOf c.g) e.2 3 with
    | .ok t _ _ => pageRefuses t .push
    | _ => false).map (·.2)

/-- FPUSH and FPOP: one request per queue line with its lanes in ascending order (18 R316). -/
def queueWord (w : MWord) (op : Nat) (o : ReqOp) (cnt : Nat) (s : State) : Out :=
  issueWord w.h (lanewiseM w) 13 (fun c s =>
    match checkM s c w op false cnt with
    | .error t => .error t
    | .ok () =>
      match checkAddresses s c w .global false 256 256 with
      | .ok as => match queuePages s c as with
        | some a => .error (c.trap cBOUNDS 0 a)
        | none => globalBody w op o false (o = .push) (o = .pop) cnt 256 256 256 c s
      | .error t => .error t) s

/-- FPUSH (18 R316). -/
def execFpush (w : MWord) (s : State) : Out := queueWord w 0x92 .push 1 s
/-- FPOP (18 R316). -/
def execFpop (w : MWord) (s : State) : Out := queueWord w 0x93 .pop 2 s

/-! ## Scratchpad -/

/-- The team a scratchpad access reaches: the issuer's, or that of a cluster rank. -/
def padTeam (s : State) (c : Ctx) (sp : Space) (a : Nat) : Option (Nat × Team) :=
  if sp = .cluster then rankTeam s c (bits a 23 20) else (s.teamOf c.g).map fun t => (c.g.team, t)

/-- The first row that an access touches whose owner is another domain (01 R18 codes 1 and 2). -/
def padAlien (s : State) (did : Nat) (t : Team) (off n : Nat) : Option Nat :=
  (rowsOf off n).findSome? fun r => if (s.srow t r).owner = some did then none else some ((s.srow t r).owner.getD 0)

/-- The first poisoned row that an access reads. -/
def padPoison (s : State) (t : Team) (off n : Nat) : Option Nat := (rowsOf off n).find? fun r => (s.srow t r).poison

/-- A scratchpad word: the accesses whose rows are present and whose team is resident are performed at once, the others are held
until they are (06 R86, R95); a release is held too (08 R129). A store for a team that is not resident blocks its path, and meets the
owner tags of the rows where the team stands when it is performed. -/
def padBody (w : MWord) (op : Nat) (o : ReqOp) (sp : Space) (readsData hasRes : Bool) (cnt : Nat) (c : Ctx) (s : State) :
    Except Trap State :=
  match checkM s c w op false cnt with
  | .error t => .error t
  | .ok () =>
    match poisonedRow s c (vregsOf w.base 1 ++ (if readsData then vregsOf w.data cnt else [])) with
    | some r => .ok (pendEcc s c r)
    | none =>
      match checkAddresses s c w sp false (widthBytes w.width) (widthBytes w.width) with
      | .error t => .error t
      | .ok as =>
        if as.isEmpty then .ok s
        else
          let half := if o = .cas then cnt / 2 else cnt
          let n := (widthBytes w.width)
          let ls := (laneAccs c as n (operandNats s c w.data 0 half) (operandNats s c w.data half half)).map fun a =>
            { a with pa := if sp = .cluster then a.va % 2 ^ 20 else a.va }
          let did := s.didOf c.g
          let code := if sp = .cluster then 2 else 1
          let here := fun (a : LaneAcc) => (padTeam s c sp a.va).bind fun e => if e.2.frozen then none else some e.2
          let alien := ls.findSome? fun a => (here a).bind fun t => padAlien s did t a.pa n
          let bad := ls.findSome? fun a => (here a).bind fun t => if o = .store then none else padPoison s t a.pa n
          let ok := ls.filter fun a => match here a with
            | some t => (padAlien s did t a.pa n).isNone && (o == .store || (padPoison s t a.pa n).isNone)
            | none => (padTeam s c sp a.va).isSome
          let s1 := match alien with
            | some ow => domainFault s c.k did (s.coreOf c.g) code ow c.pc c.r.gang c.r.depth
            | none => s
          let s2 := match bad with
            | some r => addBoundaryTrap s1 c.k { c.trap cECC 3 r with word := false }
            | none => s1
          let (iseq, s3) := nextIssue s2 (s.coreOf c.g)
          let (rid, s4) := s3.fresh
          let s5 := if hasRes then addResult s4 c.k (waitingResult (destOf s c w.data half) c.act rid true) else s4
          let teams := (ok.filterMap fun a => (padTeam s c sp a.va).map (·.1)).eraseDups
          let qs := teams.flatMap fun t =>
            let mine := ok.filter fun a => (padTeam s c sp a.va).map (·.1) == some t
            let ready := mine.filter fun a => match s.team t with
              | some tt => (rowsOf a.pa n).all (rowPresent s tt) && !tt.frozen
              | none => false
            let late := mine.filter fun a => !ready.contains a
            ([ready, late].filter fun l => !l.isEmpty).map fun l =>
              { mkReq s c w op o n iseq (if hasRes then some rid else none) none l with point := pScratch t, stage := .inject }
          let enterPad := fun (s : State) (q : Req) =>
            let (i, s1) := s.fresh
            let s2 := s1.setReq i q
            if o = .store && (s.team (q.point - 1000)).any (·.frozen) then
              s2.modRun c.k fun r => { r with waits := r.waits ++ [(c.act, c.pc, .post i)] }
            else s2
          .ok (settle (pump (qs.foldl enterPad s5)) c.k rid)

/-- LDS (18 R305). -/
def execLds (w : MWord) (s : State) : Out :=
  issueWord w.h (lanewiseM w) 13 (padBody w 0x82 .load .scratch false true (widthRegs w.width)) s
/-- STS (18 R306). -/
def execSts (w : MWord) (s : State) : Out :=
  issueWord w.h (lanewiseM w) 13 (padBody w 0x83 .store .scratch true false (widthRegs w.width)) s
/-- LDC (18 R305). -/
def execLdc (w : MWord) (s : State) : Out :=
  issueWord w.h (lanewiseM w) 13 (padBody w 0x84 .load .cluster false true (widthRegs w.width)) s
/-- STC (18 R306). -/
def execStc (w : MWord) (s : State) : Out :=
  issueWord w.h (lanewiseM w) 13 (padBody w 0x85 .store .cluster true false (widthRegs w.width)) s
/-- ATOMS (18 R311). -/
def execAtoms (w : MWord) (s : State) : Out :=
  let o := ReqOp.atomic (w.hint.toNat % 8)
  issueWord w.h (lanewiseM w) 13 (fun c s =>
    atomicBody w 0x8F o .scratch (widthRegs w.width) c s (padBody w 0x8F o .scratch true true (widthRegs w.width))) s
/-- CASS (18 R312). -/
def execCass (w : MWord) (s : State) : Out :=
  issueWord w.h (lanewiseM w) 13 (fun c s =>
    atomicBody w 0x90 .cas .scratch (2 * (widthRegs w.width)) c s (padBody w 0x90 .cas .scratch true true (2 * (widthRegs w.width)))) s

end Sys2Proof.Machine
end

