-- ==== Sys2Proof/Machine/SyncFam.lean ====
section
/-! DEFINITION. The synchronisation instructions, opcodes 0xA0 to 0xB6, and MWAIT, LAUNCH and LQUERY (19 R320 to R335, R344,
R350): what a word checks and reads, and the operation it sends. -/

namespace Sys2Proof.Machine

/-! ## Shared shapes -/

/-- A word of this chapter with R-form fields: its registers are checked, a collective's mask too; a poisoned source leaves its
destination unwritten (13 R207). -/
def syncWord (w : RWord) (op : Nat) (seqOk coll : Bool) (n : Widths) (f : Ctx → State → Except Trap State) (s : State) : Out :=
  issueWord w.h (lanewiseR w) 13 (fun c s =>
    match checkR s c w op seqOk n with
    | .error t => .error t
    | .ok () =>
      match (if coll then collective c else .ok (c.act != 0#32)) with
      | .error t => .error t
      | .ok acts =>
        if !acts then .ok s
        else match poisonedRow s c (readsR w n) with
          | some r => .ok (pendEcc s c r)
          | none => f c s) s

/-- The operation a word sends: a release waits for the earlier accesses of its path (08 R129). -/
def mkPost (s : State) (c : Ctx) (opc sub : Nat) (args : List Nat) (res : Option Nat) (unit : Nat) (release : Bool) : Post :=
  { grp := c.k, core := s.coreOf c.g, did := s.didOf c.g, part := ((s.teamOf c.g).map (·.part)).getD 0, pc := c.pc,
    depth := c.r.depth, opc := opc, sub := sub, gang := c.r.gang, act := c.act, args := args, res := res,
    unit := unit, waits := if release then lanesAccesses s c.k c.r.gang else [], need := none, blk := [], parked := false,
    iseq := (s.coreAt (s.coreOf c.g)).catSeq }

/-- A word with a result sends its operation. -/
def postResult (s : State) (c : Ctx) (d : Opd) (cnt : Nat) (held : Bool) (mk : Nat → Post) : Except Trap State :=
  let (rid, s1) := s.fresh
  let s2 := addResult s1 c.k (waitingResult (destOf s c d cnt) c.act rid held)
  let (i, s3) := s2.fresh
  sendPost s3 i (mk rid)

/-- A word without a result sends its operation. -/
def postPlain (s : State) (p : Post) : Except Trap State :=
  let (i, s1) := s.fresh
  sendPost s1 i p

/-- A path wait: the path is blocked at the boundary of its run until the wait completes (19 R320). -/
def postWait (s : State) (c : Ctx) (p : Post) : Except Trap State :=
  let (i, s1) := s.fresh
  sendPost (s1.modRun c.k fun r => { r with waits := r.waits ++ [(c.act, c.pc, .post i)] }) i p

/-- A result that is known as the word issues. -/
def resultNow (s : State) (c : Ctx) (d : Opd) (cnt v : Nat) : State := addResult s c.k (doneResult (destOf s c d cnt) c.act (fun _ => v) fun _ => 0#8)

/-- An extent of scratchpad that a word names: BOUNDS where it passes SROWS × 256 (19 R320, 06 R84). -/
def checkExtent (s : State) (c : Ctx) (off n : Nat) : Except Trap Unit :=
  if off + n ≤ padExtent s c.g then .ok () else .error (c.trap cBOUNDS 0 off)

/-- The team of the issuing unit. -/
def withTeam (s : State) (c : Ctx) (f : Team → Except Trap State) : Except Trap State :=
  match s.teamOf c.g with
  | some t => f t
  | none => .ok s

/-! ## Phaser words (19 R322 to R324) -/

/-- The core's phaser unit as a home. -/
def unitPhaser : Nat := 1
/-- The curator. -/
def unitCurator : Nat := 2
/-- The message unit. -/
def unitMessage : Nat := 3
/-- The domain control unit: gates. -/
def unitGate : Nat := 4
/-- The domain control unit: device queues. -/
def unitQueue : Nat := 5
/-- A home that has not been found yet. -/
def unitUnknown : Nat := 6

/-- The home of a device address: its slice, which is its ordering point (11 R171). -/
def deviceUnit (s : State) (c : Ctx) (va : Nat) : Nat :=
  match translateNow s (s.coreOf c.g) (s.didOf c.g) va 3 with
  | .ok _ pa _ => 100 + homeSlice s pa
  | _ => unitUnknown

/-- A phaser word: the phaser it names, and the operation sent to its home. The argument n is that of the data register. -/
def phaserWord (w : MWord) (op mode n : Nat) (release : Bool) (send : State → Ctx → Post → Except Trap State) (c : Ctx)
    (s : State) : Except Trap State :=
  match checkRegs s c op (vregsOf w.data 1) with
  | .error t => .error t
  | .ok () =>
    if c.act = 0#32 then .ok s
    else if w.hint.toNat.testBit 3 then
      match checkAddresses s c w .global false 16 16 with
      | .error t => .error t
      | .ok as =>
        let va := (as.head?.map (·.2)).getD 0
        send s c (mkPost s c op 0 [1, va, mode, n] none (deviceUnit s c va) release)
    else
      let a := formAddress s c w .scratch false 32
      send s c (mkPost s c op 0 [0, addressInfo a, mode, n] none unitPhaser release)

/-- PHREG (11 R174). -/
def execPhreg (w : MWord) (s : State) : Out :=
  untilTaken (issueWord w.h (lanewiseM w) 13 (fun c s =>
    phaserWord w 0xA0 (w.hint.toNat % 4) (sopd s c w.data 1) false (fun s _ p => postPlain s p) c s)) s

/-- PHDROP: its signal part is an arrival (11 R175, R178). -/
def execPhdrop (w : MWord) (s : State) : Out :=
  untilTaken (issueWord w.h (lanewiseM w) 13 (fun c s =>
    phaserWord w 0xA1 (w.hint.toNat % 4) (sopd s c w.data 1) (w.hint.toNat % 4 != 1) (fun s _ p => postPlain s p) c s)) s

/-- PHARR (11 R176, R178). -/
def execPharr (w : MWord) (s : State) : Out :=
  untilTaken (issueWord w.h (lanewiseM w) 13 (phaserWord w 0xA2 0 0 true fun s _ p => postPlain s p)) s

/-- PHWAIT (11 R177). -/
def execPhwait (w : MWord) (s : State) : Out :=
  untilTaken (issueWord w.h (lanewiseM w) 13 (fun c s => phaserWord w 0xA3 0 (sopd s c w.data 1) false postWait c s)) s

/-- PHEXP (11 R176). -/
def execPhexp (w : MWord) (s : State) : Out :=
  untilTaken (issueWord w.h (lanewiseM w) 13 (fun c s =>
    phaserWord w 0xA4 (w.hint.toNat % 2) (sopd s c w.data 1) false (fun s _ p => postPlain s p) c s)) s

/-- PHTEST (11 R176). -/
def execPhtest (w : MWord) (s : State) : Out :=
  untilTaken (issueWord w.h (lanewiseM w) 13
    (phaserWord w 0xA5 0 0 false fun s c p => postResult s c w.data 1 false fun rid => { p with res := some rid })) s

/-! ## Stage rings (11 R182 to R184, 19 R325, R326) -/

/-- Ring frames of a partition's range on a core (11 R182). -/
def frameCount (c : Core) (part : Nat) : Nat :=
  let fb := ((c.dpreg.find? fun e => e.2.1.getLsbD 63 && bits e.2.1.toNat 55 50 == part).map fun e => bits e.2.2.toNat 47 42).getD 0
  (fb * 128 - 64) / 2

/-- A phaser of a new ring: registered counts, PEND = SREG, the device epoch (11 R182). -/
def ringPhaser (s : State) (sreg wreg : Nat) : Nat := sreg * 2 ^ 4 + sreg * 2 ^ 16 + wreg * 2 ^ 26 + phFresh s

/-- RINGACQ.NEW: the lowest free frame, or 0xFFFF_FFFF where the ring is refused (11 R182, 19 R326). -/
def newRing (s : State) (team : Nat) (t : Team) (extent buf desc ssize : Nat) : State × Nat :=
  let n := 2 ^ bits desc 1 0
  let pc := bits desc 13 4
  let cc := bits desc 23 14
  let used := fun (f : Nat) => s.work.teams.any fun e => e.2.core == t.core && e.2.part == t.part && e.2.frames.contains f
  let bad := pc = 0 ∨ cc = 0 ∨ ssize < 1 ∨ 4096 < ssize ∨ buf % 256 ≠ 0 ∨ bits desc 3 2 ≠ 0 ∨ bits desc 31 24 ≠ 0 ∨
    extent < buf + n * ssize * 256
  let c := s.coreAt t.core
  let inFifo := fun (f : Nat) => roleOf c (fifoBase c t.part + (64 + 2 * f) / 128) == .fifo
  match (upTo (frameCount c t.part)).find? fun f => !used f && inFifo f with
  | none => (s, 0xFFFFFFFF)
  | some f =>
    if bad then (s, 0xFFFFFFFF)
    else
      let base := frameKey s t f
      let head := leOf 16 (desc + buf * 2 ^ 32 + ssize * 2 ^ 64)
      let pair := fun (k : Nat) => if k < n then leOf 16 (ringPhaser s pc cc) ++ leOf 16 (ringPhaser s cc pc) else List.replicate 32 0#8
      let bytes := head ++ (upTo 15).flatMap pair ++ List.replicate 16 0#8
      let s1 := s.setCore { s.core with sram := memPut s.core.sram base bytes }
      ((tagSram s1 t.core (base % 2 ^ 20 / 256) t.did 2).modTeam team fun t => { t with frames := f :: t.frames }, f)

/-- RINGACQ.NEW. -/
def execRingacqNew (w : RWord) (s : State) : Out :=
  syncWord w 0xA6 true false {} (fun c s =>
    withTeam s c fun t =>
      let r := newRing s c.g.team t (padExtent s c.g) (sopd s c w.a 1) (sopd s c w.b 1) (sopd s c w.c 1)
      .ok (writeDest r.1 c.k (destOf s c w.d 1) c.act fun _ => r.2)) s

/-- RINGACQ.P and RINGACQ.C: the slot's offset at issue, and a wait of the path (11 R183). -/
def ringAcquire (w : RWord) (sub : Nat) (s : State) : Out :=
  untilTaken (syncWord w 0xA6 true false {} (fun c s =>
    withTeam s c fun t =>
      let h := sopd s c w.a 1
      let u := sopd s c w.b 1
      if !t.frames.contains h then .error (c.trap cPHASER phNUMBER h)
      else match fifoAlien s t.core (frameKey s t h % 2 ^ 20 / 256) t.did with
      | some o => .ok (domainFault s c.k t.did t.core 7 o c.pc c.r.gang c.r.depth)
      | none =>
        let hd := ringHeader s t h
        let slot := bits hd 63 32 + u % ringSlots hd * (bits hd 76 64 * 256)
        postWait (writeDest s c.k (destOf s c w.d 1) c.act fun _ => slot) c (mkPost s c 0xA6 sub [h, u] none unitPhaser false))) s

/-- RINGACQ.P. -/
def execRingacqP (w : RWord) (s : State) : Out := ringAcquire w 1 s
/-- RINGACQ.C. -/
def execRingacqC (w : RWord) (s : State) : Out := ringAcquire w 2 s

/-- RINGREL: an arrival is a release (11 R178, R183). -/
def ringRelease (w : RWord) (sub : Nat) (release : Bool) (s : State) : Out :=
  untilTaken (syncWord w 0xA7 true false {} (fun c s =>
    postPlain s (mkPost s c 0xA7 sub [sopd s c w.a 1, sopd s c w.b 1, sopd s c w.c 1] none unitPhaser release))) s

/-- RINGREL.P. -/
def execRingrelP (w : RWord) (s : State) : Out := ringRelease w 0 true s
/-- RINGREL.C. -/
def execRingrelC (w : RWord) (s : State) : Out := ringRelease w 1 true s
/-- RINGREL.END. -/
def execRingrelEnd (w : RWord) (s : State) : Out := ringRelease w 2 false s

/-! ## Read-side sections and grace periods (12 R186, R189, R190, R195, R196) -/

/-- RSBEG and RSEND: a change of the depth of each active lane, refused where a lane stands at its end (12 R186). -/
def depthWord (w : RWord) (op sub : Nat) (up : Bool) (s : State) : Out :=
  syncWord w op false false {} (fun c s =>
    let at' := fun (l : Nat) => c.g.depth.getD l 0
    let bad := maskOf fun l => inMask c.act l && (if up then at' l == 15 else at' l == 0)
    if bad ≠ 0#32 then .error (c.trap cRSECT sub bad.toNat)
    else .ok (s.modGroup c.k fun g =>
      { g with depth := lanes32.map fun l => if inMask c.act l then (if up then at' l + 1 else at' l - 1) else at' l })) s

/-- RSBEG. -/
def execRsbeg (w : RWord) (s : State) : Out := depthWord w 0xA8 1 true s
/-- RSEND. -/
def execRsend (w : RWord) (s : State) : Out := depthWord w 0xA9 2 false s

/-- GPSTART (12 R189). -/
def execGpstart (w : RWord) (s : State) : Out :=
  syncWord w 0xAA false false {} (fun c s =>
    postResult s c w.d 1 false fun rid => mkPost s c 0xAA 0 [] (some rid) unitCurator true) s

/-- The tickets of a word's active lanes: one for an s-register. -/
def laneTickets (s : State) (c : Ctx) (w : RWord) : List Nat :=
  if w.a.isS then [sopd s c w.a 1]
  else (lanesOf c.act).map fun l => (laneAt (opdVals s c w.a w.pa w.k.toNat 1) l).toNat

/-- GPWAIT: refused inside a section or for a ticket that was not issued; else the path waits until every lane's ticket is
complete (12 R186, R190, 19 R328). -/
def execGpwait (w : RWord) (s : State) : Out :=
  syncWord w 0xAB false false {} (fun c s =>
    let bad := maskOf fun l => inMask c.act l && c.g.depth.getD l 0 != 0
    let did := s.didOf c.g
    let cur := (s.dom did).cur
    let ts := laneTickets s c w
    if bad ≠ 0#32 then .error (c.trap cRSECT 4 bad.toNat)
    else match ts.find? fun t => !issued cur t with
      | some t => .error (c.trap cRSECT 5 t)
      | none =>
        let open' := (ts.filter fun t => !ticketDone cur t).eraseDups
        if open'.isEmpty then .ok (raiseGroup s c.k cur.gfloor)
        else .ok (s.modRun c.k fun r => { r with waits := r.waits ++ open'.map fun t => (c.act, c.pc, .ticket did t) })) s

/-- GPPOLL (12 R190). -/
def execGppoll (w : RWord) (s : State) : Out :=
  untilTaken (syncWord w 0xAC false false {} (fun c s =>
    postResult s c w.d 1 false fun rid =>
      mkPost s c 0xAC (if w.a.isS then 1 else 0) (laneTickets s c w) (some rid) unitCurator false)) s

/-- DACC (12 R195). -/
def execDacc (w : RWord) (s : State) : Out :=
  untilTaken (syncWord w 0xAD false false ⟨1, 2, 1, 1⟩ (fun c s =>
    postResult s c w.d 1 false fun rid =>
      mkPost s c 0xAD 0 [sopd s c w.a 2 % 2 ^ 57, sopd s c w.b 1, sopd s c w.c 1] (some rid) unitCurator true)) s

/-- DFPOP (12 R196). -/
def execDfpop (w : RWord) (s : State) : Out :=
  syncWord w 0xAE false false ⟨4, 1, 1, 1⟩ (fun c s =>
    postResult s c w.d 4 false fun rid => mkPost s c 0xAE 0 [] (some rid) unitCurator false) s

/-! ## Messages (10 R162 to R166, 19 R329 to R331) -/

/-- MSEND: a refusal writes its status at once; else the message leaves after the word's release (19 R330). -/
def execMsend (w : RWord) (s : State) : Out :=
  syncWord w 0xB0 false true ⟨1, 2, 1, 1⟩ (fun c s =>
    withTeam s c fun t =>
      let dst := sopd s c w.a 2
      let off := sopd s c w.b 1
      let len := sopd s c w.c 1
      match checkExtent s c off len with
      | .error e => .error e
      | .ok () =>
        match msendRefusal s t (dst % 2 ^ 32) (dst / 2 ^ 32) len with
        | some v => .ok (resultNow s c w.d 1 v)
        | none =>
          postResult s c w.d 1 false fun rid =>
            mkPost s c 0xB0 0 [dst % 2 ^ 32, dst / 2 ^ 32, off, len] (some rid) unitMessage true) s

/-- MRECV: BAD_ARG for reserved operand bits, BAD_TAG for a reserved tag, else the receive is posted (19 R329, R331). -/
def execMrecv (w : RWord) (s : State) : Out :=
  syncWord w 0xB1 false false ⟨1, 4, 1, 1⟩ (fun c s =>
    withTeam s c fun t =>
      let m := sopd s c w.a 4
      let off := sopd s c w.b 1
      let ctl := sopd s c w.c 1
      let len := bits ctl 8 0
      let ph := bits ctl 19 16
      match checkExtent s c off len with
      | .error e => .error e
      | .ok () =>
        if len < 1 ∨ 256 < len ∨ bits ctl 15 9 ≠ 0 ∨ bits ctl 31 20 ≠ 0 ∨ bits m 79 72 ≠ 0 ∨ bits m 127 112 ≠ 0 then
          .ok (resultNow s c w.d 1 6)
        else if 0xFFF0 ≤ bits m 95 80 then .ok (resultNow s c w.d 1 2)
        else if teamPhasers s t ≤ ph then .error (c.trap cPHASER phNUMBER ph)
        else
          let r := postRecv s c.g.team t (bits m 31 0) (bits m 63 32) (bits m 95 64) (bits m 127 96) off len ph
          .ok (resultNow r.1 c w.d 1 r.2)) s

/-- MPROBE (19 R331). -/
def execMprobe (w : RWord) (s : State) : Out :=
  syncWord w 0xB2 false false ⟨4, 4, 1, 1⟩ (fun c s =>
    withTeam s c fun t =>
      let m := sopd s c w.a 4
      .ok (resultNow s c w.d 4 (probeMsg s c.g.team t (bits m 31 0) (bits m 63 32) (bits m 95 64) (bits m 127 96)))) s

/-- MCANCEL (10 R165). -/
def execMcancel (w : RWord) (s : State) : Out :=
  syncWord w 0xB3 false false {} (fun c s =>
    withTeam s c fun t =>
      let r := cancelRecv s c.g.team t (sopd s c w.a 1)
      .ok (resultNow r.1 c w.d 1 r.2)) s

/-! ## Gates (01 R24, R25, 19 R332 to R335) -/

/-- GCALL: a call refused at its check ends at once; else it enters the inbox after its release (19 R333). -/
def execGcall (w : RWord) (s : State) : Out :=
  syncWord w 0xB4 false true ⟨1, 1, 1, 2⟩ (fun c s =>
    let gt := sopd s c w.a 1
    let arg := sopd s c w.b 1
    let sz := sopd s c w.c 2
    let size := sz % 2 ^ 32
    let rep := sz / 2 ^ 32
    match checkExtent s c arg size with
    | .error e => .error e
    | .ok () =>
      match checkExtent s c rep 256 with
      | .error e => .error e
      | .ok () =>
        let e := gateEntry s (s.didOf c.g) (bits gt 7 0)
        match gateRefusal s (s.didOf c.g) (bits gt 7 0) e (bits gt 31 16) size with
        | some v => .ok (resultNow s c w.d 1 v)
        | none =>
          postResult s c w.d 1 true fun rid =>
            mkPost s c 0xB4 0 [bits gt 7 0, e, bits gt 31 16, size, arg, rep] (some rid) unitGate true) s

/-- GWAIT: a group that holds a taken call gets a header with LEN = 0; else the path waits for a call (19 R334). -/
def execGwait (w : RWord) (s : State) : Out :=
  syncWord w 0xB5 false false {} (fun c s =>
    withTeam s c fun t =>
      let sel := sopd s c w.a 1
      let buf := sopd s c w.b 1
      match checkExtent s c buf 272 with
      | .error e => .error e
      | .ok () =>
        if c.g.call.isSome then .ok (padPut s t buf (List.replicate 16 0#8))
        else
          let (o, s1) := s.fresh
          let did := s.didOf c.g
          .ok (matchGates 64 (s1.modRun c.k fun r =>
            { r with waits := r.waits ++ [(c.act, c.pc, .gate o (bits sel 15 0) (bits sel 31 16) buf)] }) did)) s

/-- GRET (19 R335). -/
def execGret (w : RWord) (s : State) : Out :=
  syncWord w 0xB6 false false {} (fun c s =>
    let off := sopd s c w.a 1
    let len := sopd s c w.b 1
    match checkExtent s c off len with
    | .error e => .error e
    | .ok () =>
      postResult s c w.d 1 false fun rid =>
        { mkPost s c 0xB6 0 [off, len] (some rid) unitGate true with need := some (off, len) }) s

/-! ## MWAIT and device queues (19 R344, R350) -/

/-- MWAIT. -/
def execMwait (w : RWord) (s : State) : Out :=
  syncWord w 0xBE true false {} (fun c s =>
    let hs := (laneTickets s c w).map (· % 65536)
    let (u, s1) := s.fresh
    postResult s1 c w.d 1 true fun rid => mkPost s c 0xBE (if w.a.isS then 1 else 0) hs (some rid) (2 ^ 20 + u) false) s

/-- LAUNCH: the record is read as the word issues where it is present, else the result is held until it is (19 R320, R350). The
offset must be a multiple of 16. -/
def execLaunch (w : RWord) (s : State) : Out :=
  syncWord w 0xC0 false false {} (fun c s =>
    withTeam s c fun t =>
      let off := sopd s c w.a 1
      if off % 16 ≠ 0 then .error (c.trap cALIGN 0 off)
      else match checkExtent s c off 256 with
        | .error e => .error e
        | .ok () =>
          postResult s c w.d 1 (!blockHere s t off 256) fun rid =>
            { mkPost s c 0xC0 0 [off, sopd s c w.b 1] (some rid) unitQueue true with need := some (off, 256) }) s

/-- LQUERY. -/
def execLquery (w : RWord) (s : State) : Out :=
  syncWord w 0xC1 false false ⟨2, 1, 1, 1⟩ (fun c s =>
    .ok (resultNow s c w.d 2 (launchQuery s (s.didOf c.g) (sopd s c w.a 1)))) s

end Sys2Proof.Machine
end

