-- ==== Sys2Proof/Machine/SysFam.lean ====
section
/-! DEFINITION. The system instructions, opcodes 0xD0 to 0xD8 (19 R351 to R358), and the scrubbers they start. -/

namespace Sys2Proof.Machine

/-! ## Special registers (19 R352) -/

/-- Groups of a team: ⌈THREADS / 32⌉ (04 R52). -/
def groupCount (r : Launch) : Nat := (r.threads + 31) / 32

/-- Rows of a view, in granules of 8 (06 R87). -/
def viewRows (n : Nat) : Nat := 8 * ((n + 7) / 8)

/-- First team row of the tile view. -/
def tviewBase (r : Launch) : Nat := groupCount r * sliceRows r.vregs

/-- First team row of the accumulator view. -/
def aviewBase (r : Launch) : Nat := tviewBase r + viewRows r.trows

/-- Rows of a team's register block (06 R89). -/
def blockRows (r : Launch) : Nat := aviewBase r + viewRows r.arows

/-- GVIEW of a group; the sequencer, which holds no v-register, has no slice and no window (06 R88). -/
def gview (g : Group) (r : Launch) : Nat :=
  if g.isSeq then 0
  else g.gid * sliceRows r.vregs * 2 ^ 51 + g.wrow * 2 ^ 38 + g.wbase * 2 ^ 30 + g.wcount * 2 ^ 22 + sliceRows r.vregs * 2 ^ 14

/-- A special register in a lane. -/
def specialReg (s : State) (g : Group) (t : Team) (r : Launch) (i l : Nat) : Nat :=
  match i with
  | 0x000 => g.tids.getD l 0
  | 0x001 => l
  | 0x002 => g.gid
  | 0x003 => t.id
  | 0x004 => t.rank
  | 0x005 => t.core
  | 0x006 => t.core / 48
  | 0x007 => t.did
  | 0x008 => g.gts.v % 2 ^ 40 + (if g.gts.ep then 2 ^ 40 else 0)
  | 0x009 => t.resumed
  | 0x00A => (g.flags.getD l 0#8).toNat % 128
  | 0x00B => s.sys.clk % 2 ^ 32
  | 0x00C => (s.dom t.did).vclk % 2 ^ 32
  | 0x00D => g.depth.getD l 0
  | 0x00E => g.trapcause
  | 0x00F => g.trapinfo
  | 0x010 => r.nteams
  | 0x011 => r.threads
  | 0x012 => r.clus
  | 0x020 => gview g r
  | 0x021 => tviewBase r * 2 ^ 51 + viewRows r.trows * 2 ^ 38
  | 0x022 => aviewBase r * 2 ^ 51 + viewRows r.arows * 2 ^ 38
  | _ => if 0x030 ≤ i ∧ i ≤ 0x037 then (r.fmts.getD (i - 0x030) 0#64).toNat else 0

/-- A special register has 64 bits. -/
def wideReg (i : Nat) : Bool := i == 0x008 || i == 0x00F || (0x020 ≤ i && i ≤ 0x022) || (0x030 ≤ i && i ≤ 0x037)

/-- RDSR: the state that stands as the word issues, fixed-latency; open to the sequencer (04 R64). -/
def execRdsr (w : IWord) (s : State) : Out :=
  let i := w.imm.toNat % 2 ^ 12
  let n := if wideReg i then 2 else 1
  issueWord w.h (lanewiseR (asR w)) 13 (fun c s =>
    match checkR s c (asR w) 0xD0 true ⟨n, 1, 1, 1⟩ with
    | .error t => .error t
    | .ok () =>
      match s.teamOf c.g with
      | none => .ok s
      | some t => match s.launchOf t with
        | none => .ok s
        | some r => .ok (writeDest s c.k (destOf s c w.d n) c.act (specialReg s c.g t r i))) s

/-- WRSR %flags: bits [6:0] of every active lane (15 R232). -/
def execWrsr (w : IWord) (s : State) : Out :=
  issueWord w.h (lanewiseR (asR w)) 13 (fun c s =>
    match checkR s c (asR w) 0xD1 false {} with
    | .error t => .error t
    | .ok () =>
      match poisonedRow s c (vregsOf w.a 1) with
      | some r => .ok (pendEcc s c r)
      | none =>
        let a := opdWords s c w.a .ident 0 0
        .ok (s.modGroup c.k fun g =>
          { g with flags := lanes32.map fun l =>
              if inMask c.act l then (a.getD l 0#32).setWidth 8 &&& 0x7F#8 else g.flags.getD l 0#8 })) s

/-- VIEW: a valid window from the next word on, else BOUNDS (06 R89, 19 R354). -/
def execView (w : RWord) (s : State) : Out :=
  syncWord w 0xD2 false false {} (fun c s =>
    let wrow := sopd s c w.a 1
    let wbase := sopd s c w.b 1
    let wcount := sopd s c w.c 1
    match (s.teamOf c.g).bind s.launchOf with
    | none => .ok s
    | some r =>
      if r.vregs < wbase + wcount then .error (c.trap cBOUNDS 0 wbase)
      else if blockRows r < wrow + wcount then .error (c.trap cBOUNDS 0 wrow)
      else .ok (s.modGroup c.k fun g => { g with wrow := wrow, wbase := wbase, wcount := wcount })) s

/-- CLKRD: arithmetic cycles since device reset (19 R353). -/
def execClkrd (w : RWord) (s : State) : Out :=
  syncWord w 0xD3 false false ⟨2, 1, 1, 1⟩ (fun c s =>
    .ok (writeDest s c.k (destOf s c w.d 2) c.act fun _ => s.sys.clk % 2 ^ 64)) s

/-- A counter as the domain control unit holds it: all ones where it has saturated (14 R211). -/
def counterValue (d : Dom) (i : Nat) : Nat := if d.satBits.getD i false then 2 ^ 64 - 1 else d.counters.getD i 0 % 2 ^ 63

/-- CNTRD (14 R212, 19 R353): reserved indices read 0. -/
def execCntrd (w : IWord) (s : State) : Out :=
  issueWord w.h (lanewiseR (asR w)) 13 (fun c s =>
    match checkR s c (asR w) 0xD4 false ⟨2, 1, 1, 1⟩ with
    | .error t => .error t
    | .ok () =>
      let i := w.imm.toNat % 16
      let v := if (5 ≤ i ∧ i ≤ 7) ∨ i = 15 then 0 else counterValue (s.dom (s.didOf c.g)) i
      .ok (if c.act = 0#32 then s else resultNow s c w.d 2 v)) s

/-! ## Frames (19 R355, R356) -/

/-- SAVEF: only in a PREEMPT handler; the frame as it stood when PREEMPT was taken. -/
def execSavef (w : RWord) (s : State) : Out :=
  issueWord w.h false 13 (fun c s =>
    if c.g.isSeq then .error (c.trap cROLE 0 0xD5)
    else match c.g.handler with
      | some h =>
        if h.trap.cause = cPREEMPT then .ok (if c.act = 0#32 then s else writeFrame s c.g h.frame)
        else .error (c.trap cPRIV 0 0xD5)
      | none => .error (c.trap cPRIV 0 0xD5)) s

/-- The paths of a frame for the lanes of a mask: its blocked paths issue their words again (05 R82). -/
def framePaths (f : Nat) (m : Mask) : List Path :=
  let idx := fun (l : Nat) => bits f (2052 + 8 * l) (2048 + 8 * l)
  let one := fun (j : Nat) =>
    let ls := maskOf fun l => inMask m l && idx l == j
    Path.new (bits f (64 * j + 56) (64 * j + 3) * 8) (bits f (64 * j + 62) (64 * j + 57)) ls
  reGang ((((lanesOf m).map idx).eraseDups).map one)

/-- The predicates p1 to p7 of the lanes of a mask from a frame. -/
def framePreds (g : Group) (f : Nat) (m : Mask) : List Mask :=
  (upTo 7).map fun i =>
    let v := maskOf fun l => f.testBit (2432 + 8 * l + i + 1)
    ((g.preds.getD i 0#32) &&& ~~~m) ||| (v &&& m)

/-- The flags of the lanes of a mask from a frame; bit 7 is reserved and reads as zero (15 R231). -/
def frameFlags (g : Group) (f : Nat) (m : Mask) : List LaneFlags :=
  lanes32.map fun l => if inMask m l then BitVec.ofNat 8 (bits f (2694 + 8 * l) (2688 + 8 * l)) else g.flags.getD l 0#8

/-- Paths that replace others keep the release obligations of the paths whose lanes they take (08 R131). -/
def oweReleases (old ps : List Path) : List Path :=
  ps.map fun p => { p with fence := (old.filter fun q => q.mask &&& p.mask != 0#32).flatMap (·.fence) }

/-- LOADF: only in a handler of another cause; the held paths become those of the frame in k0 to k3, for the live lanes outside the
trap record's mask; a frame that fails its check changes nothing (19 R356). -/
def execLoadf (w : RWord) (s : State) : Out :=
  issueWord w.h (lanewiseR w) 13 (fun c s =>
    match checkR s c w 0xD6 false {} with
    | .error t => .error t
    | .ok () =>
      match c.g.handler with
      | none => .error (c.trap cPRIV 0 0xD6)
      | some h =>
        if h.trap.cause = cPREEMPT then .error (c.trap cPRIV 0 0xD6)
        else if c.act = 0#32 then .ok s
        else
          let f := readFrame s c.g
          let m := c.g.live &&& ~~~h.trap.mask
          let put := fun (s : State) (v : Nat) => writeDest s c.k (destOf s c w.d 1) c.act fun _ => v
          if !frameValid c.g.live f then .ok (put s 1)
          else
            .ok (put ((withdraw s (h.held.flatMap (·.waits))).modGroup c.k fun g =>
              { g with preds := framePreds g f m, flags := frameFlags g f m,
                       handler := g.handler.map fun h => { h with held := oweReleases h.held (framePaths f m) } }) 0)) s

/-! ## Banks and rows -/

/-- A valid entry of a partition on a core: its words as numbers. -/
def partEntry (c : Core) (part : Nat) : Option (Nat × Nat) :=
  (c.dpreg.find? fun e => e.2.1.getLsbD 63 && bits e.2.1.toNat 55 50 == part).map fun e => (e.2.1.toNat, e.2.2.toNat)

/-- The banks of a partition's SB and FB ranges on a core (01 R16). -/
def partBanks (c : Core) (part : Nat) : List Nat :=
  match partEntry c part with
  | none => []
  | some (_, w) => (upTo (bits w 58 53)).map (bits w 52 48 + ·) ++ (upTo (bits w 47 42)).map (bits w 41 37 + ·)

/-- A resident or frozen team holds a row of a bank (06 R93). -/
def bankHeld (s : State) (core bank : Nat) : Bool :=
  s.work.teams.any fun e =>
    let t := e.2
    t.core == core && !t.retired &&
      (heldRuns t.sramBase t.sramCnt t.awayPads).any fun r => decide (0 < r.2 ∧ r.1 < (bank + 1) * 128 ∧ bank * 128 < r.1 + r.2)

/-- A stage ring or an overflow queue uses a FIFO bank of a partition. -/
def fifoUsed (s : State) (core part bank : Nat) : Bool :=
  let c := s.coreAt core
  let base := fifoBase c part
  (bank == base && !((tget c.ovf part).getD []).isEmpty) ||
  s.work.teams.any fun e => e.2.core == core && e.2.part == part && e.2.frames.any fun f => (base * 128 + 64 + 2 * f) / 128 == bank

/-- BANKROLE on a bank of the issuer's partition: a status at once, or a scrub that ends it (06 R93). -/
def bankRole (s : State) (c : Ctx) (w : RWord) (t : Team) (role bank : Nat) : State :=
  let core := s.coreAt t.core
  let now := fun (v : Nat) => resultNow s c w.d 1 v
  let scrub :=
    let (rid, s1) := s.fresh
    (addResult s1 c.k (waitingResult (destOf s c w.d 1) c.act rid true)).modCore t.core fun x =>
      { x with roles := tset x.roles bank (.scrub role (some (c.k, rid, t.did))), l1 := x.l1.filter (·.way != bank),
               bankPart := tset x.bankPart bank t.part }
  if !(partBanks core t.part).contains bank then now 1
  else match roleOf core bank with
    | .partL1 => if role = 0 then now 0 else scrub
    | .scratch => if role = 1 then now 0 else if bankHeld s t.core bank then now 2 else scrub
    | .fifo => if role = 2 then now 0 else if fifoUsed s t.core t.part bank then now 2 else scrub
    | .sharedL1 => now 1
    | .scrub _ _ => now 2

/-- BANKROLE: only from a group in TRAP (06 R93, 19 R357). -/
def execBankrole (w : RWord) (s : State) : Out :=
  issueWord w.h (lanewiseR w) 13 (fun c s =>
    match checkR s c w 0xD7 false {} with
    | .error t => .error t
    | .ok () =>
      if c.g.handler.isNone then .error (c.trap cPRIV 0 0xD7)
      else if c.act = 0#32 then .ok s
      else withTeam s c fun t => .ok (bankRole s c w t (w.m.toNat % 4) (sopd s c w.a 1))) s

/-- The earlier copies of a team that a SCRUB of rows awaits: those that still write into them, and those whose block is not read
yet, unless the block itself lies there. -/
def scrubAwaits (s : State) (team : Nat) (rows : List Nat) : List Nat :=
  (s.fly.cmds.filter fun e =>
    let c := e.2
    let block := c.phase == 0 && c.team == team && (rowsOf c.blkAt 64).all fun r => !rows.contains r
    (c.kind == 0xB8 || c.kind == 0xB9 || c.kind == 0xBA) &&
      (block || c.rowsLeft.any fun r => r.1 / 4096 == team && rows.contains (r.1 % 4096))).map Prod.fst

/-- SCRUB: the rows are marked at once (19 R358). -/
def execScrub (w : RWord) (s : State) : Out :=
  syncWord w 0xD8 false false {} (fun c s =>
    withTeam s c fun t =>
      let off := sopd s c w.a 1
      let len := sopd s c w.b 1
      if off % 256 ≠ 0 ∨ len % 256 ≠ 0 ∨ padExtent s c.g < off + len then .error (c.trap cBOUNDS 0 off)
      else if len = 0 then .ok s
      else
        let rows := rowsOf off len
        let (i, s1) := s.fresh
        let s2 := rows.foldl (fun s r => s.modSrow t r fun x => { x with scrub := true }) s1
        let x : Scrub := { team := c.g.team, grp := c.k, mask := c.r.gang, rows := rows, waits := scrubAwaits s c.g.team rows }
        .ok (s2.setFly { s2.fly with scrubs := tset s2.fly.scrubs i x })) s

end Sys2Proof.Machine
end

