-- ==== Sys2Proof/Machine/Engine.lean ====
section
/-! DEFINITION. Engine commands (19 R336 to R349): their blocks, the checks at acceptance, what an accepted command holds, and the
beats by which engines read and write spaces. -/

namespace Sys2Proof.Machine

/-! ## Commands -/

/-- A command by its number. -/
def State.cmd (s : State) (i : Nat) : Option Cmd := tget s.fly.cmds i
/-- The state with a command set. -/
def State.setCmd (s : State) (i : Nat) (c : Cmd) : State := s.setFly { s.fly with cmds := tset s.fly.cmds i c }
/-- The state with a command changed. -/
def State.modCmd (s : State) (i : Nat) (f : Cmd → Cmd) : State := s.setFly { s.fly with cmds := tmod s.fly.cmds i f }
/-- The state without a command. -/
def State.delCmd (s : State) (i : Nat) : State := s.setFly { s.fly with cmds := tdel s.fly.cmds i }

/-- A copy: COPY, COPYT or COPYM. -/
def Cmd.isCopy (c : Cmd) : Bool := c.kind == 0xB8 || c.kind == 0xB9 || c.kind == 0xBA
/-- A matrix job. -/
def Cmd.isJob (c : Cmd) : Bool := c.kind == 0xBC || c.kind == 0xBD
/-- Bits [hi:lo] of the command's block. -/
def Cmd.f (c : Cmd) (hi lo : Nat) : Nat := bits (leVal c.blk) hi lo
/-- Bits [hi:lo] read as a signed number. -/
def Cmd.sf (c : Cmd) (hi lo : Nat) : Int := signed (hi + 1 - lo) (c.f hi lo)
/-- The acquire flag (07 R114). -/
def Cmd.acq (c : Cmd) : Bool := if c.isJob then c.f 48 48 == 1 else c.f 383 383 == 1

/-- A phaser that a command accounts to (19 R337): device or team, number or address, kind, generation. -/
structure Account where
  dev : Bool
  addr : Nat
  kind : Nat
  gen : Nat
  deriving DecidableEq, Repr

/-- The phasers of a block's command tail; for a job its end arrival. -/
def Cmd.accounts (c : Cmd) : List Account :=
  if c.isJob then if c.f 845 845 = 1 then [⟨false, c.f 844 841, 3, c.f 849 846⟩] else []
  else ([⟨c.f 441 441 == 1, c.f 440 384, c.f 443 442, c.f 447 444⟩, ⟨c.f 505 505 == 1, c.f 504 448, c.f 507 506, c.f 511 508⟩] :
    List Account).filter (·.kind != 0)

/-- The launch record of a command's team. -/
def launchOfTeam (s : State) (team : Nat) : Launch := ((s.team team).bind s.launchOf).getD oneLaunch

/-! ## Spaces (19 R339, 06 R84) -/

/-- A place in a space: 0 global, 1 a team's scratchpad, 3 its tile view, 4 its accumulator view. -/
structure Spot where
  sp : Nat
  team : Nat
  off : Nat
  deriving DecidableEq, Repr

/-- The team of a rank of a command's cluster. -/
def cmdRank (s : State) (c : Cmd) (rank : Nat) : Option Nat :=
  match s.team c.team with
  | none => none
  | some t => (s.work.teams.find? fun e => e.2.grid == t.grid && e.2.cluster == t.cluster && e.2.rank == rank && !e.2.retired).map Prod.fst

/-- The place of an address of a space of 19 R339. -/
def spotOf (s : State) (c : Cmd) (sp : Nat) (a : Int) : Option Spot :=
  let n := a.toNat
  if a < 0 then none
  else match sp with
    | 0 => some ⟨0, 0, n⟩
    | 2 => if 2 ^ 24 ≤ n then none else (cmdRank s c (bits n 23 20)).map fun t => ⟨1, t, n % 2 ^ 20⟩
    | k => some ⟨k, c.team, n⟩

/-- Bytes of a team's space. -/
def spaceSize (s : State) (team sp : Nat) : Nat :=
  let r := launchOfTeam s team
  match sp with
  | 0 => 2 ^ 57
  | 1 => r.srows * 256
  | 3 => viewRows r.trows * 128
  | _ => viewRows r.arows * 128

/-- n bytes from an address of a space lie within it (RANGE otherwise). -/
def inSpace (s : State) (c : Cmd) (sp : Nat) (a : Int) (n : Nat) : Bool :=
  match spotOf s c sp a with
  | some x => decide (x.off + n ≤ spaceSize s x.team x.sp)
  | none => false

/-! ## Beats -/

/-- Why a beat does not go on: it waits; the translation of an address failed; or the command ends with a status, and with a DOMAIN
fault of a check code and owner. -/
inductive Stop where
  | wait (s : State)
  | page (va reason lvl acc : Nat) (s : State)
  | bad (status : Nat) (dom : Option (Nat × Nat)) (s : State)

/-- A piece of engine work over the state. -/
abbrev Eng := StateT State (Except Stop)

/-- The work stops. -/
def Eng.stop {α : Type} (f : State → Stop) : Eng α := fun s => .error (f s)

/-- The work of a result of a unit's access; its timestamp counts for the completion timestamp (07 R114). -/
def Eng.ofAcc (i : Nat) (a : Acc) : Eng Bytes := fun _ =>
  match a with
  | .wait s => .error (.wait s)
  | .denied c _ _ o s => .error (if c = cDOMAIN then .bad 6 (some (4, o)) s else .bad 8 none s)
  | .done bs t s => .ok (bs, s.modCmd i fun c => { c with maxts := c.maxts.maxAt t (newEpoch s) })

/-- The work in hand needs the tokens of one beat that a core injects: of memory, and toward host memory one of the host's too (05 R73). -/
def owe (s : State) (i core : Nat) (host : Bool) : State :=
  s.modCmd i fun c =>
    let o := (tget c.owed core).getD (0, 0)
    { c with owed := tset c.owed core (o.1 + 1024, o.2 + if host then 1024 else 0) }

/-- The samples of a beat that a unit of a core injects: its wait at injection, and that at the slice or stack engine which performs it
(14 R218). -/
def sampleBeat (s : State) (part pa : Nat) (ms : Bool) : State :=
  sampleFree (sampleFree s part 0 1) part (if ms then 2 else 1) (if isHost pa then 0 else 1)

/-- An engine's access to global memory under the command timestamp: reads extend no lease, writes act under 07 R109. -/
def Eng.global (i : Nat) (c : Cmd) (va n : Nat) (w : Option Bytes) : Eng Bytes := fun s =>
  let acc := if w.isSome then 10 else 9
  match translateNow s c.core c.did va acc with
  | .failed r l s1 => .error (.page va r l acc s1)
  | .alien o s1 => .error (.bad 6 (some (4, o)) s1)
  | .busy s1 => .error (.wait s1)
  | .ok e pa s1 =>
    let s2 := sampleBeat (owe s1 i c.core (isHost pa)) c.part pa (pteMs e.pte)
    Eng.ofAcc i (unitAccess s2 e pa va n c.cts w) s2

/-- The scratchpad row of a place must be the domain's own (01 R18 code 5), and resident where it is another team's (06 R86). -/
def Eng.pad (c : Cmd) (x : Spot) (n : Nat) : Eng Team := fun s =>
  match s.team x.team with
  | none => .error (.bad 6 (some (5, 0)) s)
  | some t =>
    match padAlien s c.did t x.off n with
    | some o => .error (.bad 6 (some (5, o)) s)
    | none => if x.team ≠ c.team ∧ t.frozen then .error (.wait s) else .ok (t, s)

/-- A scratchpad row may be read: it is present, or only this command's own bytes are still to come (06 R94). -/
def ownPresent (s : State) (c : Cmd) (team : Nat) (t : Team) (row : Nat) : Bool :=
  let own := if c.rowsLeft.any (·.1 == team * 4096 + row) then 1 else 0
  (s.srow t row).pend == own && !(s.srow t row).scrub

/-- The row of register space that byte off of a view stands in. -/
def viewRow (s : State) (t : Team) (team sp off : Nat) : Nat :=
  let r := launchOfTeam s team
  t.rowBase + (if sp = 3 then tviewBase r else aviewBase r) + off / 128

/-- The bytes of a row of register space. -/
def rowBytes (s : State) (core r : Nat) : Bytes := (s.row core r).flatMap fun w => leOf 4 w.toNat

/-- The words of a row's bytes. -/
def rowOfBytes (b : Bytes) : List Word := lanes32.map fun l => BitVec.ofNat 32 (leVal ((b.drop (4 * l)).take 4))

/-- A row of a view must be the domain's own (01 R18 code 5). -/
def Eng.viewRow (c : Cmd) (x : Spot) : Eng (Team × Nat) := fun s =>
  match s.team x.team with
  | none => .error (.bad 6 (some (5, 0)) s)
  | some t =>
    let r := Machine.viewRow s t x.team x.sp x.off
    match (s.rowTag t.core r).owner with
    | some o => if o = c.did then .ok ((t, r), s) else .error (.bad 6 (some (5, o)) s)
    | none => .error (.bad 6 (some (5, 0)) s)

/-- An engine reads n bytes from a place, within 128 B. -/
def Eng.read (i : Nat) (c : Cmd) (x : Spot) (n : Nat) : Eng Bytes :=
  match x.sp with
  | 0 => Eng.global i c x.off n none
  | 1 => do
    let t ← Eng.pad c x n
    let s ← get
    if !(rowsOf x.off n).all (ownPresent s c x.team t) then Eng.stop .wait
    else if (padPoison s t x.off n).isSome then Eng.stop (.bad 8 none)
    else pure (padBytes s t x.off n)
  | _ => do
    let e ← Eng.viewRow c x
    let s ← get
    if (s.rowTag e.1.core e.2).poison then Eng.stop (.bad 8 none)
    else pure (((rowBytes s e.1.core e.2).drop (x.off % 128)).take n)

/-- What is left to arrive in rows, and the rows whose last byte has arrived (06 R94). -/
def landed (l : List (Nat × Nat)) (team : Nat) : List (Nat × Nat) → List (Nat × Nat)
  | [] => l
  | (row, n) :: r =>
    landed (l.filterMap fun e => if e.1 = team * 4096 + row then (if e.2 ≤ n then none else some (e.1, e.2 - n)) else some e) team r

/-- The bytes of a run that fall into each row. -/
def rowParts (off n : Nat) : List (Nat × Nat) :=
  (rowsOf off n).map fun r => (r, min (off + n) (256 * (r + 1)) - max off (256 * r))

/-- The tag of a scratchpad row of a team, by 4096 times the team plus the row: in its place, or in the team's image. -/
def keyTag (s : State) (key : Nat) : SRow :=
  match s.team (key / 4096) with
  | none => ⟨0, false, none, false⟩
  | some t =>
    if t.awayPads.contains (key % 4096) then
      ((t.image.bind fun im => im.tags.find? (·.1 == key % 4096)).map (·.2)).getD ⟨0, false, none, false⟩
    else s.srow t (key % 4096)

/-- The state with such a tag changed. -/
def modKeyTag (s : State) (key : Nat) (f : SRow → SRow) : State :=
  match s.team (key / 4096) with
  | none => s
  | some t =>
    let row := key % 4096
    if t.awayPads.contains row then
      let put := fun (e : Nat × SRow) => if e.1 = row then (e.1, f e.2) else e
      s.modTeam (key / 4096) fun t => { t with image := t.image.map fun im =>
        { im with tags := im.tags.map put }.owe (imageOff s t 3 + row) [presenceByte (f (keyTag s key))] }
    else s.modSrow t row f

/-- The pending count of a row falls (06 R95). -/
def lowerPend (s : State) (key : Nat) : State := modKeyTag s key fun r => { r with pend := r.pend - 1 }

/-- Bytes of a command have arrived in a team's scratchpad: counts of completed rows fall. -/
def landBytes (s : State) (i team off n : Nat) : State :=
  match s.cmd i with
  | none => s
  | some c =>
    let l := landed c.rowsLeft team (rowParts off n)
    let done := c.rowsLeft.filter fun e => !l.any (·.1 == e.1)
    (done.foldl (fun s e => lowerPend s e.1) s).modCmd i fun c => { c with rowsLeft := l }

/-- An engine writes bytes at a place, within 128 B; a marked row holds the beat (06 R94). -/
def Eng.write (i : Nat) (c : Cmd) (x : Spot) (bs : Bytes) : Eng Unit :=
  match x.sp with
  | 0 => do let _ ← Eng.global i c x.off bs.length (some bs)
  | 1 => do
    let t ← Eng.pad c x bs.length
    let s ← get
    if (rowsOf x.off bs.length).any fun r => (s.srow t r).scrub then Eng.stop .wait
    else set (landBytes (padPut s t x.off bs) i x.team x.off bs.length)
  | _ => do
    let e ← Eng.viewRow c x
    let s ← get
    let new := overlay (rowBytes s e.1.core e.2) (x.off % 128) bs
    set (clearPoison (s.setRow e.1.core e.2 (rowOfBytes new)) e.1.core e.2 (if bs.length = 128 then 0xFFFFFFFF#32 else 0#32))

/-- A run of n bytes at an address of a space, read in pieces that do not cross 128 B. -/
def Eng.readRun (i : Nat) (c : Cmd) (sp : Nat) (a : Int) : Nat → Nat → Eng Bytes
  | 0, _ => pure []
  | fuel + 1, n =>
    if n = 0 then pure []
    else do
      let s ← get
      match spotOf s c sp a with
      | none => Eng.stop (.bad 6 none)
      | some x =>
        let k := min n (128 - x.off % 128)
        let b ← Eng.read i c x k
        let r ← Eng.readRun i c sp (a + k) fuel (n - k)
        pure (b ++ r)

/-- A run of bytes written likewise. -/
def Eng.writeRun (i : Nat) (c : Cmd) (sp : Nat) (a : Int) : Nat → Bytes → Eng Unit
  | 0, _ => pure ()
  | fuel + 1, bs =>
    if bs.isEmpty then pure ()
    else do
      let s ← get
      match spotOf s c sp a with
      | none => Eng.stop (.bad 6 none)
      | some x =>
        let k := min bs.length (128 - x.off % 128)
        Eng.write i c x (bs.take k)
        Eng.writeRun i c sp (a + k) fuel (bs.drop k)

/-! ## The block of a copy (19 R339) -/

/-- Rows of a copy. -/
def Cmd.rows (c : Cmd) : Nat := if c.kind = 0xB9 then c.f 175 160 else 1
/-- Bytes of a row. -/
def Cmd.len (c : Cmd) : Nat := c.f 159 128
/-- The address of row r of the source. -/
def Cmd.srcAt (c : Cmd) (r : Nat) : Int := (c.f 56 0 : Nat) + r * c.sf 319 256
/-- The address of row r of the destination. -/
def Cmd.dstAt (c : Cmd) (r : Nat) : Int := (c.f 120 64 : Nat) + r * c.sf 377 320
/-- The source space. -/
def Cmd.ssp (c : Cmd) : Nat := c.f 59 57
/-- The destination space. -/
def Cmd.dsp (c : Cmd) : Nat := c.f 123 121
/-- The ranks of a COPYM's mask. -/
def Cmd.ranks (c : Cmd) : List Nat := (upTo 12).filter fun r => (c.f 171 160).testBit r

/-- The places that a destination address names: its own, or those of each rank of the mask. -/
def copyDests (s : State) (c : Cmd) (a : Int) : List (Option Spot) :=
  if c.kind = 0xBA then c.ranks.map fun r => if a < 0 then none else (cmdRank s c r).map fun t => ⟨1, t, a.toNat⟩
  else [spotOf s c c.dsp a]

/-- The flags and the accounts of a block are bad: a reserved scope, a phaser number of PHASERS or more, a misaligned address. -/
def tailBad (s : State) (c : Cmd) : Bool :=
  c.f 378 378 != 0 || decide (4 < c.f 381 379) ||
  c.accounts.any fun a => if a.dev then a.addr % 16 != 0 else decide ((launchOfTeam s c.team).phasers ≤ a.addr)

/-- BAD_DESC of a copy. -/
def copyBad (s : State) (c : Cmd) : Bool :=
  c.blkAt % 64 != 0 || c.f 63 60 != 0 || c.f 127 124 != 0 || c.f 255 176 != 0 || decide (4 < c.ssp) || decide (4 < c.dsp) ||
  c.len == 0 || (c.ssp != 0 && c.f 56 32 != 0) || (c.dsp != 0 && c.f 120 96 != 0) ||
  (if c.kind = 0xB9 then c.f 175 160 == 0
   else c.f 319 256 != 0 || c.f 377 320 != 0 || (if c.kind = 0xBA then c.f 175 172 != 0 || c.dsp != 1 else c.f 175 160 != 0)) ||
  tailBad s c

/-- Two runs of n bytes share a byte. -/
def Spot.overlaps (x y : Spot) (n : Nat) : Bool :=
  x.sp == y.sp && x.team == y.team && decide (x.off < y.off + n ∧ y.off < x.off + n)

/-- OVERLAP of a copy: a byte it reads is a byte it writes. -/
def copyOverlap (s : State) (c : Cmd) : Bool :=
  (upTo c.rows).any fun r =>
    match spotOf s c c.ssp (c.srcAt r) with
    | none => false
    | some x => (upTo c.rows).any fun q => (copyDests s c (c.dstAt q)).any fun y => match y with
        | some y => x.overlaps y c.len
        | none => false

/-- RANGE of a copy. -/
def copyRange (s : State) (c : Cmd) : Bool :=
  (c.kind == 0xBA && c.ranks.any fun r => decide ((launchOfTeam s c.team).clus ≤ r)) ||
  (upTo c.rows).any fun r =>
    !inSpace s c c.ssp (c.srcAt r) c.len ||
    (copyDests s c (c.dstAt r)).any fun y => match y with
      | some y => decide (spaceSize s y.team y.sp < y.off + c.len)
      | none => true

/-- Bytes added to what a command writes into each scratchpad row. -/
def addRows (l : List (Nat × Nat)) (team off n : Nat) : List (Nat × Nat) :=
  (rowParts off n).foldl (fun l e =>
    let k := team * 4096 + e.1
    if l.any (·.1 == k) then l.map fun x => if x.1 = k then (k, x.2 + e.2) else x else l ++ [(k, e.2)]) l

/-- What a copy writes into each scratchpad row. -/
def copyRows (s : State) (c : Cmd) : List (Nat × Nat) :=
  (upTo c.rows).foldl (fun l r => (copyDests s c (c.dstAt r)).foldl (fun l y => match y with
    | some y => if y.sp = 1 then addRows l y.team y.off c.len else l
    | none => l) l) []

/-! ## The block of a BANKOP (19 R341) -/

/-- Bytes of an element. -/
def Cmd.elemBytes (c : Cmd) : Nat := if c.f 228 228 = 1 then 2 else 4
/-- Elements. -/
def Cmd.cnt (c : Cmd) : Nat := c.f 223 192
/-- The operation. -/
def Cmd.bop (c : Cmd) : Nat := c.f 227 224
/-- The source ranges that are read, other than DST. -/
def Cmd.sources (c : Cmd) : List Nat := if c.bop < 3 then [c.f 120 64, c.f 184 128] else if c.bop = 4 then [c.f 120 64] else []
/-- Bytes of the destination range. -/
def Cmd.dstBytes (c : Cmd) : Nat := if c.bop = 4 then c.elemBytes else c.cnt * c.elemBytes

/-- BAD_DESC of a BANKOP. -/
def bankBad (s : State) (c : Cmd) : Bool :=
  c.blkAt % 64 != 0 || c.f 63 57 != 0 || c.f 127 121 != 0 || c.f 191 185 != 0 || c.f 255 229 != 0 || c.f 377 288 != 0 ||
  decide (4 < c.bop) || c.cnt == 0 ||
  ([c.f 56 0, c.f 120 64, c.f 184 128].any fun a => a % c.elemBytes != 0) ||
  (c.bop == 3 && (c.f 120 64 != 0 || c.f 184 128 != 0)) || (c.bop == 4 && c.f 184 128 != 0) || tailBad s c

/-- OVERLAP of a BANKOP: DST meets a source range that starts elsewhere. -/
def bankOverlap (c : Cmd) : Bool :=
  let d := c.f 56 0
  c.sources.any fun a => a != d && decide (a < d + c.dstBytes ∧ d < a + c.cnt * c.elemBytes)

/-- RANGE of a BANKOP: a range leaves the virtual address space. -/
def bankRange (c : Cmd) : Bool :=
  decide (2 ^ 57 < c.f 56 0 + c.dstBytes) || c.sources.any fun a => decide (2 ^ 57 < a + c.cnt * c.elemBytes)

/-! ## The card of a job (19 R345, R346) -/

/-- A level of the nest. -/
structure Level where
  trip : Nat
  role : Nat
  sa : Int
  sb : Int
  sc : Int
  deriving DecidableEq, Repr

/-- Level l of a card. -/
def Cmd.level (c : Cmd) (l : Nat) : Level :=
  let b := 512 + 64 * l
  { trip := c.f (b + 15) b, role := c.f (b + 17) (b + 16), sa := c.sf (b + 33) (b + 18), sb := c.sf (b + 49) (b + 34),
    sc := c.sf (b + 63) (b + 50) }
/-- The levels of the nest, the outermost first. -/
def Cmd.levels (c : Cmd) : List Level := (upTo (c.f 22 20)).map c.level
/-- Steps of the job. -/
def Cmd.steps (c : Cmd) : Nat := (c.levels.map (·.trip)).foldl (· * ·) 1
/-- The slot of operand i: A, B, C, D. -/
def cmdSlot (s : State) (c : Cmd) (i : Nat) : Slot :=
  slotOf ((launchOfTeam s c.team).fmts.getD (c.f (3 * i + 2) (3 * i)) 0#64)
/-- The space of A or B: 0 global, 1 scratchpad, 2 tile view. -/
def tileSpace (x : Nat) : Nat := if x = 2 then 3 else x
/-- K of a step. -/
def Cmd.tk (c : Cmd) : Nat := 16 * c.f 44 40
/-- Tile rows. -/
def Cmd.tm (c : Cmd) : Nat := c.f 31 24
/-- Tile columns. -/
def Cmd.tn (c : Cmd) : Nat := c.f 39 32
/-- Elements of a block of scales. -/
def Slot.blkLen (s : Slot) : Nat := if s.blk = 1 then 16 else 32
/-- Bytes of a block of elements. -/
def Slot.blkBytes (s : Slot) : Nat := s.blkLen * s.fmt.width / 8
/-- The job multiplies integers (15 R236). -/
def jobInt (s : State) (c : Cmd) : Bool := (cmdSlot s c 0).intPlain
/-- Bits of an element of C in memory; an integer job reads INT32 (15 R236). -/
def cWidth (s : State) (c : Cmd) : Nat := if jobInt s c then 32 else (cmdSlot s c 2).fmt.width
/-- Bits of an element of D in memory. -/
def dWidth (s : State) (c : Cmd) : Nat := (cmdSlot s c 3).fmt.width

/-- BAD_DESC of a card (19 R346). -/
def jobBad (s : State) (c : Cmd) : Bool :=
  let A := cmdSlot s c 0
  let B := cmdSlot s c 1
  let C := cmdSlot s c 2
  let D := cmdSlot s c 3
  let csrc := c.f 17 16
  let nlev := c.f 22 20
  let ph := (launchOfTeam s c.team).phasers
  c.blkAt % 128 != 0 ||
  ([(23, 23), (47, 45), (63, 53), (127, 121), (191, 185), (255, 249), (319, 313), (895, 850), (959, 953), (1023, 1017)].any
    fun r => c.f r.1 r.2 != 0) ||
  c.f 13 12 == 3 || c.f 15 14 == 3 || c.f 19 18 == 3 || decide (4 < c.f 52 50) ||
  nlev == 0 || decide (5 < nlev) || c.tm == 0 || decide (128 < c.tm) || c.tn == 0 || decide (128 < c.tn) ||
  c.f 44 40 == 0 || decide (16 < c.f 44 40) ||
  (c.levels.any fun l => l.trip == 0 || l.role == 0) ||
  ((upTo 5).any fun l => decide (nlev ≤ l) && c.f (575 + 64 * l) (512 + 64 * l) != 0) ||
  A.intPlain != B.intPlain ||
  (c.f 19 18 == 0 && D.efmt != 0 && D.efmt != 0xB) ||
  (A.blk != 0 && c.f 351 320 % A.blkBytes != 0) || (B.blk != 0 && c.f 383 352 % B.blkBytes != 0) ||
  (c.f 836 836 == 1 && decide (ph ≤ c.f 835 832)) || (c.f 845 845 == 1 && decide (ph ≤ c.f 844 841)) ||
  !matrixFmt A.efmt || !matrixFmt B.efmt ||
  (C.blk != 0 && (csrc == 2 || csrc == 3)) || D.blk != 0 || c.f 447 416 % 128 != 0

/-- The least and greatest value that a stride takes over the nest. -/
def Cmd.span (c : Cmd) (f : Level → Int) : Int × Int :=
  c.levels.foldl (fun r l => (r.1 + min 0 (f l * (l.trip - 1)), r.2 + max 0 (f l * (l.trip - 1)))) (0, 0)

/-- A run from lo to hi of a space lies within it. -/
def hullIn (s : State) (c : Cmd) (sp : Nat) (lo hi : Int) : Bool := decide (0 ≤ lo) && inSpace s c sp lo (hi - lo).toNat

/-- RANGE of a card, over every index of the nest. -/
def jobRange (s : State) (c : Cmd) : Bool :=
  let cs := c.span (·.sc)
  let tile := fun (i sp base ld scb : Nat) (f : Level → Int) (n : Nat) =>
    let sl := cmdSlot s c i
    let z := c.span f
    let lo : Int := 256 * z.1
    let hi : Int := 256 * z.2 + (n - 1) * ld + (c.tk * sl.fmt.width / 8 : Nat)
    hullIn s c sp (base + lo) (base + hi) &&
    (sl.blk == 0 || hullIn s c sp (scb + lo / (sl.blkBytes : Nat)) (scb + (hi - 1) / (sl.blkBytes : Nat) + 1))
  let mem := fun (sp base w : Nat) =>
    hullIn s c sp (base + 256 * cs.1) (base + 256 * cs.2 + (c.tm - 1) * c.f 415 384 + ((c.tn * w + 7) / 8 : Nat))
  let acce : Int := c.f 447 416
  !(tile 0 (tileSpace (c.f 13 12)) (c.f 120 64) (c.f 351 320) (c.f 952 896) (·.sa) c.tm &&
    tile 1 (tileSpace (c.f 15 14)) (c.f 184 128) (c.f 383 352) (c.f 1016 960) (·.sb) c.tn &&
    (c.f 17 16 < 2 || mem (if c.f 17 16 = 2 then 0 else 1) (c.f 248 192) (cWidth s c)) &&
    (c.f 19 18 == 0 || mem (if c.f 19 18 = 1 then 0 else 1) (c.f 312 256) (dWidth s c)) &&
    hullIn s c 4 (4 * (acce + 128 * cs.1)) (4 * (acce + 128 * cs.2 + 128 * (c.tm - 1) + c.tn)))

/-- The indices of step p of the nest, the outermost first. -/
def digits : List Nat → Nat → List Nat
  | [], _ => []
  | _ :: r, p => p / (r.foldl (· * ·) 1) :: digits r (p % (r.foldl (· * ·) 1))

/-- The sum of a stride times the indices. -/
def Cmd.offset (c : Cmd) (p : Nat) (f : Level → Int) : Int :=
  ((c.levels.zip (digits (c.levels.map (·.trip)) p)).map fun e => f e.1 * e.2).foldl (· + ·) 0

/-- Every K-role index of step p is its first, or its last. -/
def Cmd.firstK (c : Cmd) (p : Nat) : Bool :=
  (c.levels.zip (digits (c.levels.map (·.trip)) p)).all fun e => e.1.role != 3 || e.2 == 0
/-- Every K-role index of step p is its last. -/
def Cmd.lastK (c : Cmd) (p : Nat) : Bool :=
  (c.levels.zip (digits (c.levels.map (·.trip)) p)).all fun e => e.1.role != 3 || e.2 + 1 == e.1.trip

/-- What a job writes into each scratchpad row. -/
def jobRows (s : State) (c : Cmd) : List (Nat × Nat) :=
  if c.f 19 18 ≠ 2 then []
  else ((upTo c.steps).filter c.lastK).foldl (fun l p =>
    (upTo c.tm).foldl (fun (l : List (Nat × Nat)) (m : Nat) =>
      addRows l c.team ((c.f 312 256 : Nat) + 256 * c.offset p (·.sc) + (m * c.f 415 384 : Nat)).toNat ((c.tn * dWidth s c + 7) / 8)) l) []

/-! ## Acceptance (19 R338) -/

/-- The team has 32 commands outstanding. -/
def cmdsFull (s : State) (team : Nat) : Bool := decide (32 ≤ (s.fly.cmds.filter fun e => e.2.team == team && e.2.phase == 4).length)

/-- What refuses a command whose block has been read: its code. -/
def cmdRefusal (s : State) (c : Cmd) : Option Nat :=
  let full := cmdsFull s c.team
  if c.isCopy then
    if copyBad s c then some 1 else if copyOverlap s c then some 2 else if copyRange s c then some 3 else if full then some 4 else none
  else if c.isJob then
    if jobBad s c then some 1 else if jobRange s c then some 3 else if full then some 4 else none
  else if bankBad s c then some 1 else if bankOverlap c then some 2 else if bankRange c then some 3
  else if full then some 4 else none

/-- The scratchpad rows that an accepted command writes, with their bytes. -/
def cmdRows (s : State) (c : Cmd) : List (Nat × Nat) := if c.isCopy then copyRows s c else if c.isJob then jobRows s c else []

/-- The pending count of each row can rise (06 R94). -/
def canRaise (s : State) (l : List (Nat × Nat)) : Bool := l.all fun e => decide ((keyTag s e.1).pend < 15)

/-- The pending counts rise. -/
def raisePend (s : State) (l : List (Nat × Nat)) : State :=
  l.foldl (fun s e => modKeyTag s e.1 fun r => { r with pend := r.pend + 1 }) s

/-- A command ends without having been accepted: its status word, and what SOUT waits for. -/
def refuseCmd (s : State) (i : Nat) (c : Cmd) (code : Nat) : State :=
  let s1 := s.delCmd i
  seeGroup (match c.res with | some r => finishResult s1 c.grp r code | none => s1) c.grp

/-- A command whose card met a fault of memory: no status is written, and its group takes the trap. -/
def dropCmd (s : State) (i : Nat) (c : Cmd) (t : Trap) : State :=
  let f := fun (r : Result) => if r.src = c.res ∧ c.res.isSome then { r with done := true } else r
  addBoundaryTrap ((s.delCmd i).modGroup c.grp fun g => { g with results := g.results.map f, owed := g.owed.map f }) c.grp t

/-- The command is accepted: its team's next handle, and the status word OK. -/
def acceptCmd (s : State) (i : Nat) (c : Cmd) : State :=
  match s.team c.team with
  | none => s
  | some t =>
    let h := t.handle % 0xFFFF + 1
    let (n, s1) := s.fresh
    let s2 := (s1.modTeam c.team fun t => { t with handle := h }).setCmd i { c with phase := 4, handle := h, t1 := n }
    match c.res with
    | some r => finishResult s2 c.grp r (h * 2 ^ 16)
    | none => s2

/-- A phaser wait of a lane of a command's path is still out. -/
def phaserWaits (s : State) (c : Cmd) : Bool :=
  let ph := fun (w : Wait) => match w with | .phaser _ _ _ | .retest _ _ | .post _ => true | _ => false
  match s.group c.grp with
  | none => false
  | some g => match g.run with
    | some r => r.waits.any fun w => (w.1 &&& c.mask) != 0#32 && ph w.2.2 && decide (w.2.1 < c.pc)
    | none => false

/-- A command may take its timestamp: what its acquire and a release fence await has completed. -/
def cmdClear (s : State) (c : Cmd) : Bool :=
  c.waits.all (fun j => (tget s.fly.reqs j).isNone) &&
  (!c.acq || (c.loads.all (fun j => (tget s.fly.reqs j).isNone) && !(c.acqPh && phaserWaits s c)))

/-- The block of a command is read: from scratchpad where its rows are present, from global memory through a translation, as one beat of
its core. -/
def readBlock (s : State) (i : Nat) (c : Cmd) : State × Option Cmd :=
  let n := if c.isJob then 128 else 64
  let trap := fun (cause sub info owner : Nat) =>
    ({ cause := cause, sub := sub, info := info, pc := c.pc, depth := 0, mask := c.mask, word := false, owner := owner } : Trap)
  if !c.glob then
    match s.team c.team with
    | none => (s, none)
    | some t => if blockHere s t c.blkAt n then (s, some { c with blk := padBytes s t c.blkAt n }) else (s, none)
  else match translateNow s c.core c.did c.blkAt 9 with
    | .failed r l s1 =>
      let s2 := pendFail (s1.modCmd i fun c => { c with parked := true }) (c.core / 48) c.did (c.blkAt / 2 ^ 14) r 9 l c.core i
      let s3 := takeEntries s2 c.core [{ req := i, lane := 0, did := c.did, part := c.part }]
      (faultAtRest (s3.modGroup c.grp fun g => { g with parked := g.parked.filter (· != i) ++ [i] }) c.grp, none)
    | .alien o s1 => (dropCmd (logDomain s1 c.did 4 o c.core) i c (trap cDOMAIN 0 4 o), none)
    | .busy s1 => (s.keepAsked s1, none)
    | .ok e pa s1 =>
      let cost := (1024, 0, if isHost pa then 1024 else 0)
      if queueBlocked s1 c.core c.part || beatsHeld s1 c.core c.part cost 1 == 0 then (s.keepAsked s1, none)
      else
        let s2 := sampleBeat (spendTokens s1 c.core c.part cost) c.part pa (pteMs e.pte)
        match unitAccess s2 e pa c.blkAt n c.cts none with
        | .wait s3 => (s.keepAsked s3, none)
        | .denied cs sub info o s3 =>
          (dropCmd (if cs = cDOMAIN then logDomain s3 c.did info o c.core else s3) i c (trap cs sub info o), none)
        | .done bs t s3 => (s3, some { c with blk := bs, maxts := c.maxts.maxAt t (newEpoch s3) })

/-- A command goes on towards acceptance as far as it can. The read of a card in global memory is an access of its word, which a release
fence holds as it does the rest (08 R131, R134). -/
def pumpCmd (s : State) (i : Nat) : State :=
  match s.cmd i with
  | none => s
  | some c0 =>
    if c0.parked ∨ 3 ≤ c0.phase then s
    else if c0.phase = 0 ∧ c0.glob ∧ c0.waits.any fun j => (tget s.fly.reqs j).isSome then s
    else
      let rd := if c0.phase = 0 then
          if c0.blkAt % (if c0.isJob then 128 else 64) ≠ 0 then (s, some c0) else readBlock s i c0
        else (s, some c0)
      match rd with
      | (s1, none) => s1
      | (s1, some c1) =>
        match (if c1.phase = 0 then (if c1.blkAt % (if c1.isJob then 128 else 64) ≠ 0 then some 1 else cmdRefusal s1 c1) else none) with
        | some code => refuseCmd s1 i c1 code
        | none =>
          let rows := if c1.phase = 0 then cmdRows s1 c1 else c1.rowsLeft
          let up := c1.phase < 2 ∧ c1.kind ≠ 0xBD
          if up ∧ !canRaise s1 rows then s1.setCmd i { c1 with phase := 1, rowsLeft := rows }
          else
            let s2 := if up then raisePend s1 rows else s1
            let c2 := { c1 with rowsLeft := rows, phase := 2 }
            if !cmdClear s2 c2 || (c2.kind != 0xBD && cmdsFull s2 c2.team) then s2.setCmd i c2
            else
              let gts := ((s2.group c2.grp).map (·.gts)).getD c2.cts
              let late := c2.acq || !c2.waits.isEmpty
              let c3 := if late then { c2 with cts := gts, maxts := c2.maxts.maxAt gts (newEpoch s2) } else c2
              if c3.kind = 0xBD then s2.setCmd i { c3 with phase := 3, t1 := s2.sys.clk } else acceptCmd s2 i c3

/-- Every command on its way to acceptance, in order of issue. -/
def pumpCmds (s : State) : State := (s.fly.cmds.map Prod.fst).foldl pumpCmd s

/-! ## Updates of phasers (11 R179, 19 R337) -/

/-- An update of a phaser is sent. -/
def sendUpd (s : State) (i : Nat) (c : Cmd) (a : Account) (team kind n gen : Nat) (ts : Ts) : State :=
  let (j, s1) := s.fresh
  match s1.team team with
  | none => s1
  | some t =>
    let u : Upd :=
      { cmd := i, team := c.team, grp := c.grp, core := c.core, did := c.did, dev := a.dev,
        addr := if a.dev then 2 ^ 60 else phaserKey s1 t a.addr, info := a.addr, kind := kind, n := n, gen := gen, ts := ts,
        held := false, parked := false, order := 0 }
    s1.setFly { s1.fly with upds := tset s1.fly.upds j u }

/-- The step arrivals of a job, each sent once the one before it has been applied (19 R347). -/
def pumpStep (s : State) (i : Nat) : State :=
  match s.cmd i with
  | none => s
  | some c =>
    let sent := c.acc.getD 0 0
    if c.isJob ∧ c.phase = 4 ∧ c.status = 0 ∧ c.f 836 836 = 1 ∧ sent < c.pos ∧ !(s.fly.upds.any fun e => e.2.cmd == i) then
      (sendUpd s i c ⟨false, c.f 835 832, 3, 0⟩ c.team 3 0 ((c.f 840 837 + sent) % 16) c.maxts).modCmd i fun c =>
        { c with acc := [sent + 1] }
    else s

/-- Every job, in order of issue. -/
def pumpSteps (s : State) : State := (s.fly.cmds.map Prod.fst).foldl pumpStep s

/-- Waits for operations and scratchpad stores that have been performed, or are gone, end. -/
def endPostWaits (s : State) : State :=
  endWaitsPlain s fun w => match w with
    | .post j => (tget s.fly.posts j).isNone && (tget s.fly.reqs j).isNone
    | _ => false
where
  /-- The waits that satisfy a test end without an acquire. -/
  endWaitsPlain (s : State) (f : Wait → Bool) : State :=
    s.mapGroups fun _ g => if g.waitsOn f then (g.dropWaits f).wakened else g

/-- The groups that a grace period still has marked are seen where they show what it waits for (12 R192). -/
def seeMarked (s : State) : State :=
  (s.adm.doms.flatMap fun e => e.2.cur.marked.map (· / 4)).foldl seeGroup s

/-- Everything that waits for what has just happened is tried again: requests, operations of words, commands, remote accesses, writes of
team images; and the groups that have come to rest are seen. -/
def settleAll (s : State) : State :=
  seeMarked (flushImages (pumpRemotes (endPostWaits (pumpSteps (pumpPosts (pumpCmds (pumpPosts (pump s))))))))

/-- A command accounts n bytes of a kind: to device phasers where they are global, to the phasers of the teams named otherwise. -/
def accountBytes (s : State) (i : Nat) (c : Cmd) (kind n : Nat) (glob : Bool) (teams : List Nat) : State :=
  (c.accounts.filter (·.kind == kind)).foldl (fun s a =>
    if a.dev then if glob then sendUpd s i c a c.team kind n a.gen c.cts else s
    else teams.foldl (fun s t => sendUpd s i c a t kind n a.gen c.cts) s) s

/-- An update of the command has not yet been applied or held at its home. -/
def updOut (s : State) (i : Nat) : Bool := s.fly.upds.any fun e => e.2.cmd == i && !e.2.held

/-! ## The end of a beat -/

/-- The tokens that the work in hand needs are taken, as far as the buckets hold them and no earlier beat of the partition waits on the
core: true where all of them are held (05 R73). What takes no token is DEDUCED (log 72). -/
def payTokens (s : State) (i : Nat) : State × Bool :=
  match s.cmd i with
  | none => (s, true)
  | some c => c.owed.foldl (fun a e =>
      let s := a.1
      let had := (((s.cmd i).bind fun c => tget c.paid e.1)).getD (0, 0)
      let mem := (e.2.1 - had.1) / 1024
      let host := (e.2.2 - had.2) / 1024
      let held := fun (cost : Nat × Nat × Nat) (n : Nat) => if queueBlocked s e.1 c.part then 0 else beatsHeld s e.1 c.part cost n
      let m := held (1024, 0, 0) mem
      let h := held (0, 0, 1024) host
      let s1 := (spendTokens s e.1 c.part (1024 * m, 0, 1024 * h)).modCmd i fun c =>
        { c with paid := tset c.paid e.1 (had.1 + 1024 * m, had.2 + 1024 * h) }
      (s1, a.2 && m == mem && h == host)) (s, true)

/-- A command between pieces of work: none in hand, and no line pinned by the one before. -/
def Cmd.idle (c : Cmd) : Cmd := { c with owed := [], pins := [] }

/-- How a beat ends: performed, where its tokens are held; left as it was, with what a wait has already asked for and the tokens it has
taken; waiting for the host to repair a translation; or ending its command. -/
def endBeat (s : State) (i : Nat) (c : Cmd) (r : Except Stop (Unit × State)) : State :=
  match r with
  | .ok (_, s1) =>
    let p := payTokens s1 i
    if p.2 then settleAll (p.1.modCmd i fun c => { c with owed := [], paid := [] })
    else
      let q := payTokens (s.modCmd i fun c => { c with owed := ((s1.cmd i).map (·.owed)).getD [] }) i
      q.1.modCmd i Cmd.idle
  | .error (.wait s1) => (s.keepAsked s1).modCmd i Cmd.idle
  | .error (.page va reason lvl acc s1) =>
    pendFail ((s.keepAsked s1).modCmd i fun c => { c.idle with parked := true }) (c.core / 48) c.did (va / 2 ^ 14) reason acc lvl c.core i
  | .error (.bad st dom s1) =>
    let s2 := failCmd (s1.modCmd i Cmd.idle) i st
    settleAll (match dom with | some d => engineDomain s2 c.grp c.did c.core d.1 d.2 | none => s2)

end Sys2Proof.Machine
end

