-- ==== Sys2Proof/Machine/EngineFam.lean ====
section
/-! DEFINITION. The engine instructions, opcodes 0xB8 to 0xBF but MWAIT (19 R336 to R349): what a word checks, the command it enters,
and the group product. -/

namespace Sys2Proof.Machine

/-! ## Commands -/

/-- The loads and atomics of a path that an acquire awaits (07 R114). -/
def acquireLoads (s : State) (k : Nat) (m : Mask) : List Nat :=
  (s.fly.reqs.filter fun e => e.2.ofLanes k m &&
    (match e.2.op with | .load | .probe | .atomic _ | .cas | .push | .pop => true | _ => false)).map Prod.fst

/-- The command of a word, before its block is read. -/
def newCmd (s : State) (c : Ctx) (kind blkAt : Nat) (glob : Bool) (tag : Nat) (res : Option Nat) : Cmd :=
  { team := c.g.team, grp := c.k, core := s.coreOf c.g, did := s.didOf c.g, part := ((s.teamOf c.g).map (·.part)).getD 0,
    kind := kind, mask := c.r.gang, pc := c.pc, res := res, blk := [], blkAt := blkAt, glob := glob, pairTag := tag,
    phase := 0, waits := stillOut s c.r.hold, loads := acquireLoads s c.k c.r.gang, acqPh := true, handle := 0,
    t0 := s.sys.clk, t1 := 0, mate := none, cts := c.g.gts, maxts := c.g.gts, pos := 0, elems := [], acc := [], flags := 0#8,
    status := 0, rowsLeft := [], moved := false, parked := false,
    rs := (lanesOf c.act).any fun l => c.g.depth.getD l 0 != 0, pins := [], owed := [], paid := [],
    iseq := (s.coreAt (s.coreOf c.g)).catSeq }

/-- A command enters, with its status as a result; the result is held where the block is not yet here, and for MPAIR (19 R320). -/
def enterCmd (s : State) (c : Ctx) (d : Opd) (kind blkAt : Nat) (glob : Bool) (tag : Nat) (held : Bool) : State :=
  let (rid, s1) := s.fresh
  let s2 := addResult s1 c.k (waitingResult (destOf s c d 1) c.act rid held)
  let (i, s3) := s2.fresh
  pumpCmds (s3.setCmd i (newCmd s c kind blkAt glob tag (some rid)))

/-- A copy or BANKOP: only from a C group (19 R336). -/
def groupCommand (w : RWord) (op : Nat) (coll : Bool) (s : State) : Out :=
  issueWord w.h (lanewiseR w) 13 (fun c s =>
    if c.g.isSeq || !c.g.roleC then .error (c.trap cROLE 0 op)
    else match checkR s c w op false {} with
      | .error t => .error t
      | .ok () =>
        match (if coll then collective c else .ok (c.act != 0#32)) with
        | .error t => .error t
        | .ok false => .ok s
        | .ok true =>
          withTeam s c fun t =>
            let off := sopd s c w.a 1
            match checkExtent s c off 64 with
            | .error t => .error t
            | .ok () => .ok (enterCmd s c w.d op off false 0 (decide (off % 64 = 0) && !blockHere s t off 64))) s

/-- COPY (19 R339, R340). -/
def execCopy (w : RWord) (s : State) : Out := groupCommand w 0xB8 true s
/-- COPYT. -/
def execCopyt (w : RWord) (s : State) : Out := groupCommand w 0xB9 true s
/-- COPYM. -/
def execCopym (w : RWord) (s : State) : Out := groupCommand w 0xBA true s
/-- BANKOP (19 R341, R342). -/
def execBankop (w : RWord) (s : State) : Out := groupCommand w 0xBB false s

/-- A matrix job: only from a matrix sequencer (19 R336). A global card past the end of the virtual space traps with BOUNDS, as any
global address does (16 R248). -/
def jobCommand (w : RWord) (op : Nat) (s : State) : Out :=
  issueWord w.h false 14 (fun c s =>
    if !c.g.isSeq then .error (c.trap cROLE 0 op)
    else if c.act = 0#32 then .ok s
    else
      withTeam s c fun t =>
        let glob := w.m.toNat.testBit 0
        let at' := sopd s c w.a (if glob then 2 else 1)
        let tag := if op = 0xBD then sopd s c w.b 1 % 65536 else 0
        let enter := fun (here : Bool) => Except.ok (enterCmd s c w.d op at' glob tag (op == 0xBD || !here))
        if glob then if 2 ^ 57 < at' + 128 then .error (c.trap cBOUNDS 0 at') else enter true
        else match checkExtent s c at' 128 with
          | .error t => .error t
          | .ok () => enter (decide (at' % 128 ≠ 0) || blockHere s t at' 128)) s

/-- MJOB (19 R345 to R347). -/
def execMjob (w : RWord) (s : State) : Out := jobCommand w 0xBC s
/-- MPAIR (19 R348). -/
def execMpair (w : RWord) (s : State) : Out := jobCommand w 0xBD s

/-! ## Group products (19 R349) -/

/-- The matrix counter class of an element format. -/
def formatClass (efmt : Nat) : Nat :=
  if efmt = 2 ∨ efmt = 3 then 0 else if efmt = 4 ∨ efmt = 5 then 1 else if efmt = 6 then 2 else if efmt = 7 then 4 else 3

/-- The counter class of products under two slots: the wider format's, and of equal widths the float format's (14 R209). -/
def macClass (a b : Slot) : Nat :=
  if a.fmt.width < b.fmt.width then formatClass b.efmt
  else if a.fmt.width = b.fmt.width ∧ a.fmt.isInt ∧ !b.fmt.isInt then formatClass b.efmt
  else formatClass a.efmt

/-- Packed element e of registers, counted over lanes (15 R226). -/
def packedElem (rows : List (List Word)) (w e : Nat) : Nat :=
  let bit := e * w
  ((rows.getD (bit / 1024) []).getD (bit % 1024 / 32) 0#32).toNat / 2 ^ (bit % 32) % 2 ^ w

/-- The slot of a GMMA is taken. -/
def gmmaTaken (s : Slot) : Bool := s.blk == 0 && matrixFmt s.efmt

/-- Element (m, n) of a group product: the code written and its flags. -/
def gmmaElem (sl : Slot) (a b : List (List Word)) (cc : Nat) (m n : Nat) : Nat × LaneFlags :=
  let w := sl.fmt.width
  if sl.intPlain then
    groupInt (signed 32 cc) ((upTo 16).map fun k =>
      (sl.fmt.intVal (packedElem a w (16 * m + k)), sl.fmt.intVal (packedElem b w (16 * n + k))))
  else
    let ps := (upTo 16).map fun k =>
      (decodeElem sl (packedElem a w (16 * m + k)) one, decodeElem sl (packedElem b w (16 * n + k)) one)
    let r := groupFloat (decodeNum fp32 cc) (ps.map fun p => (p.1.1, p.2.1))
    (r.1, ps.foldl (fun f p => f ||| p.1.2 ||| p.2.2) r.2)

/-- The 256 elements of a group product. -/
def gmma (sl : Slot) (a b c : List (List Word)) : List (Nat × LaneFlags) :=
  (upTo 256).map fun e =>
    if gmmaTaken sl then gmmaElem sl a b ((c.getD (e / 32) []).getD (e % 32) 0#32).toNat (e / 16) (e % 16)
    else (0x7FC00000, fINVALID)

/-- GMMA: fixed-latency; it writes all 256 elements, and its flags go to every lane. It counts 4096 MACs in the class of
its slot's format, and no lane-operations (14 R210); under a slot without a matrix format, none (DEDUCED, log 76). -/
def execGmma (w : RWord) (s : State) : Out :=
  let slotAt := fun (s : State) (g : Group) => slotOf (slotWord s g (w.m.toNat % 8))
  issueCounted w.h (fun c =>
      let sl := slotAt s c.g
      if c.act = 0#32 || !matrixFmt sl.efmt then (14, 0) else (macClass sl sl, 4096)) (fun c s =>
    match checkR s c w 0xBF false ⟨8, 4, 4, 8⟩ with
    | .error t => .error t
    | .ok () =>
      match collective c with
      | .error t => .error t
      | .ok false => .ok s
      | .ok true =>
        let sl := slotAt s c.g
        let used := sl.fmt.width / 4
        let regs := fun (o : Opd) (p : Pat) (n : Nat) => (upTo n).map fun j => opdWords s c o p w.k.toNat j
        match poisonedRow s c (if gmmaTaken sl then vregsOf w.a used ++ vregsOf w.b used ++ vregsOf w.c 8 else []) with
        | some r => .ok (pendEcc s c r)
        | none =>
          let es := gmma sl (regs w.a w.pa used) (regs w.b w.pb used) (regs w.c w.pc 8)
          let all : Mask := 0xFFFFFFFF#32
          let word := fun (l : Nat) => (upTo 8).foldl (fun v j => v + (es.getD (32 * j + l) (0, 0#8)).1 % 2 ^ 32 * 2 ^ (32 * j)) 0
          let fl := es.foldl (fun f e => f ||| e.2) 0#8
          .ok ((writeDest s c.k (destOf s c w.d 8) all word).modGroup c.k fun g => g.orFlags (fun _ => fl) all)) s

end Sys2Proof.Machine
end

