-- ==== Sys2Proof/Machine/EngineRun.lean ====
section
/-! DEFINITION. The events of the engines: beats of copies, elements of BANKOPs, steps of matrix jobs, the start and the timeout of
pairs, the finish of commands (19 R340, R342, R343, R347, R348), the scrubbers (19 R358, 06 R93), and the retest of a device
phaser (11 R177). -/

namespace Sys2Proof.Machine

/-- The command is accepted and may go on: it has no error, waits for no translation, and each update it has sent has been applied or
held at its home. -/
def goesOn (s : State) (i : Nat) (c : Cmd) : Bool := c.phase == 4 && c.status == 0 && !c.parked && !updOut s i && s.sys.fatal.isNone

/-! ## Copies (19 R340) -/

/-- One beat: n bytes from a place to each destination. -/
def copyPiece (i : Nat) (c : Cmd) (a : Spot) (ys : List Spot) (n : Nat) : Eng Unit := do
  let b ← Eng.read i c a n
  ys.forM fun y => Eng.write i c y b
  modify fun s =>
    let own := fun (x : Spot) => if x.team = c.team ∨ c.kind = 0xBA then [x.team] else []
    let s1 := if a.sp = 0 then accountBytes s i c 2 n true [] else if a.team = c.team then accountBytes s i c 2 n false [a.team] else s
    let s2 := ys.foldl (fun s y => if y.sp = 0 then accountBytes s i c 1 n true [] else accountBytes s i c 1 n false (own y)) s1
    s2.modCmd i fun c => { c with pos := c.pos + n }

/-- The next beat of a copy: up to 128 B that cross no 128 B boundary of the source or of the destination. -/
def copyBeat (s : State) (i : Nat) (c : Cmd) : State :=
  let r := c.pos / c.len
  let x := c.pos % c.len
  match spotOf s c c.ssp (c.srcAt r + x) with
  | none => s
  | some a =>
    let ys := (copyDests s c (c.dstAt r + x)).filterMap id
    let room := ys.foldl (fun (n : Nat) y => min n (128 - y.off % 128)) (128 - a.off % 128)
    endBeat s i c (copyPiece i c a ys (min room (c.len - x)) s)

/-- COPY_BEAT (19 R340). -/
def execCopyBeat (s : State) : Out :=
  match s.ctl.ev with
  | some (.copyBeat i) => .next (whenUp s fun s =>
      match s.cmd i with
      | some c => if c.isCopy && goesOn s i c && decide (c.pos < c.rows * c.len) then copyBeat s i c else s
      | none => s)
  | _ => .next s

/-! ## Bank arithmetic (19 R342) -/

/-- The stack engine reads or writes an element's bytes in DRAM, after the page checks; each is a command of the engine (14 R218). -/
def Eng.dram (i : Nat) (c : Cmd) (va n : Nat) (w : Option Bytes) : Eng Bytes := fun s =>
  let acc := if w.isSome then 10 else 9
  match translateNow s c.core c.did va acc with
  | .failed r l s1 => if r = rPerm then .error (.bad 9 none s1) else .error (.page va r l acc s1)
  | .alien o s1 => .error (.bad 6 (some (4, o)) s1)
  | .busy s1 => .error (.wait s1)
  | .ok e pa s0 =>
    let s1 := sampleFree s0 c.part 2 1
    if isHost pa || pteRepl e.pte then .error (.bad 9 none s1)
    else if pteMs e.pte then Eng.ofAcc i (msAccess s1 pa (pteKey e.pte) va n c.cts w) s1
    else
      let x := s1.sector (pa / 128)
      if x.key ≠ pteKey e.pte then .error (.bad 6 (some (4, x.key)) s1)
      else match w with
        | some bs => .ok ([], engineWrite s1 pa bs (decide (pa % 128 = 0 ∧ bs.length = 128)))
        | none => if x.poison then .error (.bad 8 none s1) else .ok (((sectorPlain s1 (pa / 128)).drop (pa % 128)).take n, s1)

/-- The address of element j of a range. -/
def Cmd.elemAt (c : Cmd) (base j : Nat) : Nat := base + j * c.elemBytes

/-- The element format of a BANKOP. -/
def Cmd.bankFmt (c : Cmd) : Fmt := if c.elemBytes = 2 then bf16 else fp32

/-- An element is read, and accounted to OUTB. -/
def Eng.element (i : Nat) (c : Cmd) (base j : Nat) : Eng Nat := do
  let b ← Eng.dram i c (c.elemAt base j) c.elemBytes none
  modify fun s => accountBytes s i c 2 c.elemBytes true []
  pure (leVal b)

/-- A number is rounded and written as element j of DST, and accounted to INB; its flags go to the summary. -/
def Eng.putElement (i : Nat) (c : Cmd) (j : Nat) (x : FltNum) : Eng Unit := do
  let r := round c.bankFmt .rne x
  let _ ← Eng.dram i c (c.elemAt (c.f 56 0) j) c.elemBytes (some (leOf c.elemBytes r.1))
  modify fun s => (accountBytes s i c 1 c.elemBytes true []).modCmd i fun c => { c with flags := c.flags ||| r.2 }

/-- Element j of a BANKOP; for a REDUCE, the read of a[j], or after the last of them the write of d[0]. -/
def bankPiece (i : Nat) (c : Cmd) (j : Nat) : Eng Unit := do
  let num := fun (x : Nat) => decodeNum c.bankFmt x
  let a := c.f 120 64
  let b := c.f 184 128
  let d := c.f 56 0
  match c.bop with
  | 0 => do
    let x ← Eng.element i c a j
    let y ← Eng.element i c b j
    Eng.putElement i c j (addN false (num x) (num y))
  | 1 => do
    let x ← Eng.element i c a j
    let y ← Eng.element i c b j
    Eng.putElement i c j (mulN (num x) (num y))
  | 2 => do
    let x ← Eng.element i c a j
    let y ← Eng.element i c b j
    let z ← Eng.element i c d j
    Eng.putElement i c j (addN false (mulN (num x) (num y)) (num z))
  | 3 => Eng.putElement i c j (decodeNum fp32 (c.f 287 256))
  | _ =>
    if j < c.cnt then do
      let x ← Eng.element i c a j
      modify fun s => s.modCmd i fun c => { c with acc := c.acc ++ [x] }
    else Eng.putElement i c 0 (sumN false (c.acc.map num))
  modify fun s => s.modCmd i fun c => { c with elems := c.elems ++ [j] }

/-- The stack that performs element j; nothing where its address does not translate. -/
def elemStack (s : State) (c : Cmd) (j : Nat) : Option Nat :=
  match translateNow s c.core c.did (c.elemAt (if c.bop = 4 then c.f 120 64 else c.f 56 0) j) 8 with
  | .ok _ pa _ => some (stackOf pa)
  | _ => none

/-- The elements of a command, with the write of a REDUCE. -/
def Cmd.elemCount (c : Cmd) : Nat := if c.bop = 4 then c.cnt + 1 else c.cnt

/-- Element j is next on its stack; the write of a REDUCE comes after every read. -/
def elemNext (s : State) (c : Cmd) (j : Nat) : Bool :=
  decide (j < c.elemCount) && !c.elems.contains j &&
  if c.bop = 4 ∧ j = c.cnt then (upTo j).all c.elems.contains
  else (upTo j).all fun i => c.elems.contains i || elemStack s c i != elemStack s c j

/-- BANKOP_ELEMENT (19 R342). -/
def execBankopElement (s : State) : Out :=
  match s.ctl.ev with
  | some (.bankopElement i j) => .next (whenUp s fun s =>
      match s.cmd i with
      | some c => if c.kind == 0xBB && goesOn s i c && elemNext s c j then endBeat s i c (bankPiece i c j s) else s
      | none => s)
  | _ => .next s

/-! ## Matrix jobs (19 R347, 15 R235 to R237) -/

/-- The tile fetch unit may pin the lines of slices that a run of n bytes lies in; which ones is free (06 R98, log 56). -/
def notePins (s : State) (i : Nat) (c : Cmd) (va n : Nat) : State :=
  let lines := (upTo (n / 256 + 2)).filterMap fun j =>
    let a := va / 256 * 256 + 256 * j
    if va + n ≤ a then none
    else match translateNow s c.core c.did a 9 with
      | .ok e pa _ => if isHost pa || pteMs e.pte then none else findLine s (homeSlice s pa) pa
      | _ => none
  lines.foldl (fun s lk =>
    let f := s.ctl.free
    let s1 := s.setCtl { s.ctl with free := f + 1 }
    if Config.tilePin f then s1.modCmd i fun c => { c with pins := c.pins ++ [lk] } else s1) s

/-- A row of A, or a column of B: its codes and, under a block-scaled slot, the code of each element's scale. -/
def Eng.tileRow (i : Nat) (c : Cmd) (sl : Slot) (sp base scb : Nat) (off : Int) : Eng (List (Nat × Nat)) := do
  let w := sl.fmt.width
  let n := c.tk * w / 8
  let b ← Eng.readRun i c (tileSpace sp) (base + off) (n + 1) n
  let m := if sl.blk = 0 then 0 else (n + sl.blkBytes - 1) / sl.blkBytes
  let scales ← Eng.readRun i c (tileSpace sp) (scb + off / (sl.blkBytes : Nat)) (m + 1) m
  if sp = 0 then modify fun s => notePins (notePins s i c (base + off).toNat n) i c (scb + off / (sl.blkBytes : Nat)).toNat m
  let v := leVal b
  pure ((upTo c.tk).map fun k => (v / 2 ^ (k * w) % 2 ^ w, ((scales.getD (k / sl.blkLen) 0#8).toNat)))

/-- The elements of a slot as numbers, with the flags of their decoding. -/
def tileNums (sl : Slot) (l : List (Nat × Nat)) : List (FltNum × LaneFlags) :=
  l.map fun e => decodeElem sl e.1 (if sl.blk = 0 then one else decodeNum e4m3z e.2)

/-- One accumulator element after the K groups of a step. -/
def stepSum (int : Bool) (sa sb : Slot) (acc : Nat) (a b : List (Nat × Nat)) : Nat → Nat × LaneFlags
  | 0 => (acc, 0#8)
  | n + 1 =>
    let r := stepSum int sa sb acc a b n
    let x := (a.drop (16 * n)).take 16
    let y := (b.drop (16 * n)).take 16
    if int then
      let q := groupInt (signed 32 r.1) ((x.zip y).map fun e => (sa.fmt.intVal e.1.1, sb.fmt.intVal e.2.1))
      (q.1, r.2 ||| q.2)
    else
      let p := tileNums sa x
      let q := tileNums sb y
      let t := groupFloat (decodeNum fp32 r.1) ((p.zip q).map fun e => (e.1.1, e.2.1))
      (t.1, (p ++ q).foldl (fun f e => f ||| e.2) (r.2 ||| t.2))

/-- The sum of flags of computed elements. -/
def flagsOf (l : List (Nat × LaneFlags)) : LaneFlags := l.foldl (fun f e => f ||| e.2) 0#8

/-- The codes of w bits of a run of bytes. -/
def codesOf (w n : Nat) (b : Bytes) : List Nat := (upTo n).map fun k => leVal b / 2 ^ (k * w) % 2 ^ w

/-- A row of C as accumulator codes, converted to FP32, or as it stands for an integer job (15 R235, R236). -/
def Eng.cRow (i : Nat) (c : Cmd) (step m : Nat) : Eng (List (Nat × LaneFlags)) := do
  let s ← get
  let w := cWidth s c
  let sl := cmdSlot s c 2
  let at' : Int := (c.f 248 192 : Nat) + 256 * c.offset step (·.sc) + (m * c.f 415 384 : Nat)
  let n := (c.tn * w + 7) / 8
  let b ← Eng.readRun i c (if c.f 17 16 = 2 then 0 else 1) at' (n + 1) n
  pure ((codesOf w c.tn b).map fun x =>
    if jobInt s c then (x, 0#8)
    else
      let v := decodeElem sl x one
      let r := round fp32 .rne v.1
      (r.1, r.2 ||| v.2))

/-- The epilogue of an accumulator element: a code of D's format (15 R237). -/
def epilogue (int : Bool) (sd : Slot) (sigma beta acc : Nat) : Nat × LaneFlags :=
  let x := if int then FltNum.ofInt (signed 32 acc) else decodeNum fp32 acc
  let t := round fp32 .rne (addN false (mulN x (decodeNum fp32 sigma)) (decodeNum fp32 beta))
  let d := encodeScaled sd (decodeNum fp32 t.1) one sd.st
  (d.1, t.2 ||| d.2)

/-- Codes of w bits written from an address; the other half of a last byte that they fill in part stays. -/
def Eng.putCodes (i : Nat) (c : Cmd) (sp : Nat) (a : Int) (w : Nat) (l : List Nat) : Eng Unit := do
  let bitsN := l.length * w
  let n := (bitsN + 7) / 8
  let v := packFields w l
  let keep ← if bitsN % 8 = 0 then pure 0 else do
    let b ← Eng.readRun i c sp (a + (n - 1 : Nat)) 2 1
    pure (leVal b / 2 ^ (bitsN % 8) * 2 ^ bitsN)
  Eng.writeRun i c sp a (n + 1) (leOf n (v + keep))

/-- Row m of a step: products into the accumulator, and at the last K its epilogue into D. -/
def Eng.stepRow (i : Nat) (c : Cmd) (step : Nat) (bs : List (List (Nat × Nat))) (m : Nat) : Eng LaneFlags := do
  let s ← get
  let int := jobInt s c
  let sa := cmdSlot s c 0
  let sb := cmdSlot s c 1
  let sd := cmdSlot s c 3
  let e : Int := (c.f 447 416 : Nat) + 128 * c.offset step (·.sc) + (128 * m : Nat)
  let fromC := c.firstK step
  let c0 ←
    if fromC && c.f 17 16 == 0 then pure ((upTo c.tn).map fun _ => (0, 0#8))
    else if fromC && decide (2 ≤ c.f 17 16) then Eng.cRow i c step m
    else do
      let b ← Eng.readRun i c 4 (4 * e) (4 * c.tn + 1) (4 * c.tn)
      pure ((codesOf 32 c.tn b).map fun x => (x, 0#8))
  let a ← Eng.tileRow i c sa (c.f 13 12) (c.f 120 64) (c.f 952 896) (256 * c.offset step (·.sa) + (m * c.f 351 320 : Nat))
  let acc := (upTo c.tn).map fun n => stepSum int sa sb (c0.getD n (0, 0#8)).1 a (bs.getD n []) (c.f 44 40)
  let f := flagsOf c0 ||| flagsOf acc
  Eng.putCodes i c 4 (4 * e) 32 (acc.map (·.1))
  if c.lastK step then do
    let d := acc.map fun x => epilogue int sd (c.f 479 448) (c.f 511 480) x.1
    if c.f 19 18 = 0 then Eng.putCodes i c 4 (4 * e) 32 (d.map (·.1))
    else
      let at' : Int := (c.f 312 256 : Nat) + 256 * c.offset step (·.sc) + (m * c.f 415 384 : Nat)
      Eng.putCodes i c (if c.f 19 18 = 1 then 0 else 1) at' sd.fmt.width (d.map (·.1))
    pure (f ||| flagsOf d)
  else pure f

/-- The counts of a core's engine for a domain (14 R210, R212). -/
def addCount (s : State) (core did cls n : Nat) : State :=
  s.modCore core fun c =>
    let old := (tget c.incs did).getD (List.replicate 16 0)
    { c with incs := tset c.incs did (setAt old cls (old.getD cls 0 + n)) }

/-- The B tile of a step of a job: fetched once, by the side given, whose reads count for the completion timestamp of each command that is
named (07 R114, 19 R348). -/
def Eng.tileB (is : List Nat) (i : Nat) (bc : Cmd) : Eng (List (List (Nat × Nat))) := do
  let s ← get
  let sb := cmdSlot s bc 1
  let old := ((s.cmd i).map (·.maxts)).getD bc.cts
  set (s.modCmd i fun c => { c with maxts := ⟨0, newEpoch s⟩ })
  let bs ← (upTo bc.tn).mapM fun n =>
    Eng.tileRow i bc sb (bc.f 15 14) (bc.f 184 128) (bc.f 1016 960) (256 * bc.offset bc.pos (·.sb) + (n * bc.f 383 352 : Nat))
  modify fun s =>
    let got := ((s.cmd i).map (·.maxts)).getD old
    is.foldl (fun s j => s.modCmd j fun c => { c with maxts := c.maxts.maxAt got (newEpoch s) }) (s.modCmd i fun c => { c with maxts := old })
  pure bs

/-- One step of a job with its B tile. -/
def jobStep (i : Nat) (c : Cmd) (bs : List (List (Nat × Nat))) : Eng Unit := do
  let s ← get
  let sb := cmdSlot s c 1
  let fs ← (upTo c.tm).mapM fun m => Eng.stepRow i c c.pos bs m
  modify fun s =>
    let slot := ((s.team c.team).map (·.slot)).getD 0
    (useCounters (addCount s c.core c.did (macClass (cmdSlot s c 0) sb) (c.tm * c.tn * c.tk)) c.team [macClass (cmdSlot s c 0) sb]).modCore c.core (fun x =>
      { x with tileOwner := some c.did, matrixTurn := slot }) |>.modCmd i fun c =>
        { c with pos := c.pos + 1, flags := fs.foldl (· ||| ·) c.flags }

/-- The side of a pair that fetches B: that of the even core. -/
def fetchSide (i : Nat) (c : Cmd) (m : Nat) (p : Cmd) : Nat × Cmd := if c.core % 2 = 0 then (i, c) else (m, p)

/-- A step of a job with its partner's, where it has one that still runs; the lines that the step before pinned are free again. The tokens
that either side needs are those of the command that steps. -/
def fullStep (s : State) (i : Nat) (c : Cmd) : Eng Unit := do
  let rest := fun (x : Cmd) => { x with pins := [] }
  match c.mate.bind fun m => (s.cmd m).map fun p => (m, p) with
  | some (m, p) =>
    if p.status = 0 ∧ p.pos = c.pos then do
      modify fun s => (s.modCmd i rest).modCmd m rest
      let f := fetchSide i c m p
      let bs ← Eng.tileB [i, m] f.1 f.2
      jobStep i c bs
      jobStep m p bs
      modify fun s => (s.modCmd i fun x => ((s.cmd m).map (·.owed)).getD [] |>.foldl (fun x e =>
        let o := (tget x.owed e.1).getD (0, 0)
        { x with owed := tset x.owed e.1 (o.1 + e.2.1, o.2 + e.2.2) }) x).modCmd m fun x => { x with owed := [] }
    else do
      modify fun s => s.modCmd i rest
      let bs ← Eng.tileB [i] i c
      jobStep i c bs
  | none => do
    modify fun s => s.modCmd i rest
    let bs ← Eng.tileB [i] i c
    jobStep i c bs

/-- The jobs of a core that may step: of each team, the first in order of acceptance. -/
def runnable (s : State) (core : Nat) : List (Nat × Cmd) :=
  let js := s.fly.cmds.filter fun e =>
    e.2.core == core && e.2.isJob && goesOn s e.1 e.2 && decide (e.2.pos < e.2.steps)
  js.filter fun e => !s.fly.cmds.any fun o =>
    o.2.core == core && o.2.isJob && o.2.phase == 4 && o.2.team == e.2.team && decide (o.2.t1 < e.2.t1)

/-- The distance of a team slot from the one served last. -/
def turnRank (s : State) (core team : Nat) : Nat :=
  (((s.team team).map (·.slot)).getD 0 + 15 - (s.coreAt core).matrixTurn) % 16

/-- A step cannot be performed now. -/
def stepWaits (s : State) (i : Nat) (c : Cmd) : Bool :=
  match fullStep s i c s with
  | .error (.wait _) => true
  | _ => false

/-- The job is the one that the core's matrix engine steps next: jobs of different teams alternate, in ascending team slot, past those
that wait. -/
def stepTurn (s : State) (i : Nat) (c : Cmd) : Bool :=
  (runnable s c.core).any (·.1 == i) &&
  (runnable s c.core).all fun e => !decide (turnRank s c.core e.2.team < turnRank s c.core c.team) || stepWaits s e.1 e.2

/-- JOB_STEP_COMMIT (19 R347, 14 R210). -/
def execJobStepCommit (s : State) : Out :=
  match s.ctl.ev with
  | some (.jobStepCommit i) => .next (whenUp s fun s =>
      match s.cmd i with
      | some c => if stepTurn s i c then endBeat s i c (fullStep s i c s) else s
      | none => s)
  | _ => .next s

/-! ## The finish of a command (19 R343) -/

/-- Every beat, element or step of a command has been performed, and its step arrivals have been sent. -/
def dataDone (c : Cmd) : Bool :=
  if c.isCopy then decide (c.rows * c.len ≤ c.pos)
  else if c.isJob then decide (c.steps ≤ c.pos) && (c.f 836 836 == 0 || decide (c.steps ≤ c.acc.getD 0 0))
  else decide (c.elemCount ≤ c.elems.length)

/-- The arrivals of a command that has finished its work. -/
def sendEnds (s : State) (i : Nat) (c : Cmd) : State :=
  ((c.accounts.filter (·.kind == 3)).foldl (fun s a => sendUpd s i c a c.team 3 0 a.gen c.maxts) s).modCmd i fun c =>
    { c with moved := true }

/-- The status word at completion, with the completion timestamp above it (19 R338, R343). -/
def finishWord (c : Cmd) : Nat :=
  let bit := fun (f : LaneFlags) (n : Nat) => if c.flags &&& f = 0#8 then 0 else 2 ^ n
  c.status + bit fINVALID 8 + bit fOVERFLOW 9 + bit fSAT 10 + c.handle * 2 ^ 16 + c.maxts.v % 2 ^ 40 * 2 ^ 32 +
    (if c.maxts.ep then 2 ^ 72 else 0)

/-- A command that has finished: its pending counts fall, its team keeps its status word, and what waited for it goes on. -/
def retireCmd (s : State) (i : Nat) (c : Cmd) : State :=
  let s1 := (c.rowsLeft.foldl (fun s e => lowerPend s e.1) s).delCmd i
  let s2 := (noteRelease s1 c.team c.maxts).modTeam c.team fun t => { t with finished := ((c.handle, finishWord c) :: t.finished).take 64 }
  seeGroup (settleAll s2) c.grp

/-- A command whose work is done makes its end arrivals, and finishes once they are made; one that ended with an error makes
none. -/
def finishStep (s : State) (i : Nat) (c : Cmd) : State :=
  if c.phase ≠ 4 ∨ c.parked ∨ updOut s i then s
  else if c.status ≠ 0 then retireCmd s i c
  else if !dataDone c then s
  else
    let s1 := if c.moved then s else sendEnds s i c
    if updOut s1 i then s1
    else match s1.cmd i with
      | some c1 => retireCmd s1 i c1
      | none => s1

/-- ENGINE_COMMAND_FINISH (19 R343). -/
def execEngineCommandFinish (s : State) : Out :=
  match s.ctl.ev with
  | some (.engineCommandFinish i) => .next (whenUp s fun s =>
      match s.cmd i with
      | some _ =>
        let s1 := settleAll s
        match s1.cmd i with
        | some c => finishStep s1 i c
        | none => s1
      | none => s)
  | _ => .next s

/-! ## Pairs (19 R348) -/

/-- Two sides of one pair: neighbouring cores, teams of one cluster, one domain, one tag. -/
def pairSides (s : State) (c p : Cmd) : Bool :=
  let cl := fun (x : Cmd) => (s.team x.team).map fun t => (t.grid, t.cluster)
  c.kind == 0xBD && p.kind == 0xBD && p.core == c.core ^^^ 1 && cl c == cl p && c.did == p.did && c.pairTag == p.pairTag

/-- The partner became ready within the window of a side. -/
def inWindow (c p : Cmd) : Bool := p.phase == 3 && decide (p.t1 < c.t0 + 4096)

/-- The partner of a side that is ready, each within the window of the other. -/
def partnerOf (s : State) (i : Nat) (c : Cmd) : Option (Nat × Cmd) :=
  if c.phase ≠ 3 then none
  else s.fly.cmds.find? fun e => e.1 != i && pairSides s c e.2 && inWindow c e.2 && inWindow e.2 c

/-- The cards of the sides agree. -/
def cardsAgree (c p : Cmd) : Bool :=
  c.tm == 128 && c.tn == 128 && p.tm == 128 && p.tn == 128 &&
  (([(5, 3), (15, 14), (184, 128), (383, 352), (1016, 960), (44, 40), (22, 20)] : List (Nat × Nat)).all fun r =>
    c.f r.1 r.2 == p.f r.1 r.2) &&
  (upTo 5).all fun l => (c.level l).trip == (p.level l).trip && (c.level l).role == (p.level l).role && (c.level l).sb == (p.level l).sb

/-- A side begins, with its partner. -/
def beginSide (s : State) (i m : Nat) : State :=
  match s.cmd i with
  | some c => acceptCmd (raisePend s c.rowsLeft) i { c with mate := some m }
  | none => s

/-- Both sides start four cycles after the later became ready, or end with MISMATCH. -/
def startPair (s : State) (core : Nat) : State :=
  match s.fly.cmds.findSome? fun e => if e.2.core = core then (partnerOf s e.1 e.2).map fun p => (e, p) else none with
  | none => s
  | some ((i, c), (m, p)) =>
    if s.sys.clk < max c.t1 p.t1 + 4 then s
    else if !cardsAgree c p then settleAll (refuseCmd (refuseCmd s i c 12) m p 12)
    else if !canRaise s (c.rowsLeft ++ p.rowsLeft) || cmdsFull s c.team || cmdsFull s p.team then s
    else settleAll (beginSide (beginSide s i m) m i)

/-- MPAIR_START (19 R348). -/
def execMpairStart (s : State) : Out :=
  match s.ctl.ev with
  | some (.mpairStart core) => .next (whenUp s fun s => startPair s core)
  | _ => .next s

/-- MPAIR_TIMEOUT (19 R348): no partner became ready within the window. -/
def execMpairTimeout (s : State) : Out :=
  match s.ctl.ev with
  | some (.mpairTimeout i) => .next (whenUp s fun s =>
      match s.cmd i with
      | some c =>
        if c.kind == 0xBD && decide (c.phase ≤ 3) && decide (c.t0 + 4096 ≤ s.sys.clk) && (partnerOf s i c).isNone then
          settleAll (refuseCmd s i c 11)
        else s
      | none => s)
  | _ => .next s

/-! ## Scrubbers (19 R358, 06 R93) -/

/-- A scrub that no earlier copy holds up writes its zeros and clears its marks. -/
def scrubZero (s : State) (i : Nat) (x : Scrub) : State :=
  match s.team x.team with
  | none => s
  | some t =>
    let others := s.fly.scrubs.filter fun e => e.1 != i && e.2.team == x.team
    let zero := fun (s : State) (r : Nat) =>
      (padPut s t (256 * r) (List.replicate 256 0#8)).modSrow t r fun y =>
        { y with scrub := others.any fun e => e.2.rows.contains r, poison := false }
    let s1 := x.rows.foldl zero s
    seeGroup (settleAll (s1.setFly { s1.fly with scrubs := tdel s1.fly.scrubs i })) x.grp

/-- SCRUB_ZERO (19 R358). -/
def execScrubZero (s : State) : Out :=
  match s.ctl.ev with
  | some (.scrubZero i) => .next (whenUp s fun s =>
      match tget s.fly.scrubs i with
      | some x => if x.waits.any fun c => (s.cmd c).isSome then s else scrubZero s i x
      | none => s)
  | _ => .next s

/-- The rows of a bank zeroed, with an owner. -/
def zeroBank (s : State) (core bank : Nat) (owner : Option Nat) : State :=
  let base := core * 2 ^ 20 + bank * 2 ^ 15
  let tags := (upTo 128).foldl (fun t j => tset t (core * 4096 + bank * 128 + j) ⟨0, false, owner, false⟩) s.core.sramTags
  s.setCore { s.core with sram := s.core.sram.filter (fun e => !decide (base ≤ e.1 ∧ e.1 < base + 2 ^ 15)), sramTags := tags }

/-- The role that a scrub leads to. -/
def roleAfter (next : Nat) : Role := match next with | 0 => .partL1 | 1 => .scratch | _ => .fifo

/-- BANK_SCRUB_DONE (06 R93). -/
def execBankScrubDone (s : State) : Out :=
  match s.ctl.ev with
  | some (.bankScrubDone core bank) => .next (whenUp s fun s =>
      match roleOf (s.coreAt core) bank with
      | .scrub next holder =>
        let s1 := (zeroBank s core bank (holder.map fun h => h.2.2)).modCore core fun c =>
          { c with roles := tset c.roles bank (roleAfter next) }
        match holder with
        | some h => finishResult s1 h.1 h.2.1 0
        | none => s1
      | _ => s)
  | _ => .next s

/-! ## Retests (11 R177) -/

/-- The waits of a group that found no record, and whose phaser has turned since, end as acquires. -/
def retestWaits (s : State) (k : Nat) : State :=
  match s.group k with
  | none => s
  | some g =>
    let all := (g.paths.flatMap fun p => p.waits.map (·.2)) ++ (match g.run with | some r => r.waits.map (·.2.2) | none => []) ++
      (match g.handler with | some h => (h.held.flatMap fun p => p.waits.map (·.2)) ++ h.waits.map (·.2) | none => [])
    let turned := all.filterMap fun w => match w with | .retest a true => some a | _ => none
    turned.foldl (fun s a =>
      let gone := fun (w : Wait) => match w with | .retest b true => a == b | _ => false
      raiseGroup (s.modGroup k fun g => (g.dropWaits gone).wakened) k (phTs (leVal (peek s a 16)))) s

/-- PHASER_WAIT_RETEST (11 R177). -/
def execPhaserWaitRetest (s : State) : Out :=
  match s.ctl.ev with
  | some (.phaserWaitRetest k) => .next (whenUp s fun s => retestWaits s k)
  | _ => .next s

end Sys2Proof.Machine
end

