-- ==== Sys2Proof/Machine/Command.lean ====
section
/-! DEFINITION. The commands of the host that shape partitions and domains (01 R13 to R25, R383): commits, the life of a domain, the
registers written through the command register, and what a signed record and a write of host memory are made of. -/

namespace Sys2Proof.Machine

/-! ## Statuses (01 R383) -/

/-- A function owns a partition: the PF is function 0, the VF of partition p is function p + 1 (01 R13). -/
def ownsPart (fn p : Nat) : Bool := fn == 0 || fn == p + 1

/-- A function may name a domain: the PF any, a VF those of its partition that are not FREE (01 R13). -/
def ownsDom (s : State) (fn did : Nat) : Bool :=
  fn == 0 || (decide (did < 256) && (s.dom did).st != .free && fn == (s.dom did).part + 1)

/-- The device takes commands: it is up and has met no fatal error (01 R22). -/
def takesCommands (s : State) : Bool := s.sys.up && s.sys.fatal.isNone

/-- A command of a function: refused with NOT_OWN, with BAD_STATE while the device takes none, or with the first status of a list whose
condition holds; else what it does, which sets its status. -/
def commandWith (s : State) (fn : Nat) (own : Bool) (no : List (Bool × Nat)) (f : State → State) : State :=
  if 64 < fn then s
  else if !own then setStatus s fn 4
  else if !takesCommands s then setStatus s fn 1
  else match no.find? (·.1) with
    | some e => setStatus s fn e.2
    | none => f s

/-- A command that is DONE at once. -/
def command (s : State) (fn : Nat) (own : Bool) (no : List (Bool × Nat)) (f : State → State) : State :=
  commandWith s fn own no fun s => setStatus (f s) fn 0

/-- The state of a domain is none of a list. -/
def notIn (s : State) (did : Nat) (l : List DState) : Bool := !l.contains (s.dom did).st

/-- An interrupt of a kind for a function. -/
def interrupt (s : State) (fn kind : Nat) : State := s.setSys { s.sys with irqs := s.sys.irqs ++ [(fn, kind)] }

/-- WATCHDOG. -/
def iWATCHDOG : Nat := 1
/-- ECC. -/
def iECC : Nat := 2
/-- SNAPDONE. -/
def iSNAPDONE : Nat := 3
/-- PROVENANCE. -/
def iPROVENANCE : Nat := 4
/-- BAROMETER. -/
def iBAROMETER : Nat := 5
/-- FABRIC. -/
def iFABRIC : Nat := 6
/-- THERMAL. -/
def iTHERMAL : Nat := 7
/-- LINK. -/
def iLINK : Nat := 8
/-- PAGE. -/
def iPAGE : Nat := 9

/-! ## Partitions (01 R14 to R16, 05 R72, 14 R218) -/

/-- The fields of an entry: V, PART, group slots, rows, weight, team slots, scratchpad and FIFO banks. -/
structure Entry where
  v : Bool
  part : Nat
  gcnt : Nat
  gbase : Nat
  rowcnt : Nat
  rowbase : Nat
  weight : Nat
  teams : Nat
  sbcnt : Nat
  sbbase : Nat
  fbcnt : Nat
  fbbase : Nat
  deriving DecidableEq, Repr

/-- An entry read from its two words. -/
def entryOf (w : Bits64 × Bits64) : Entry :=
  let a := w.1.toNat
  let b := w.2.toNat
  { v := a.testBit 63, part := bits a 55 50, gcnt := bits a 49 43, gbase := bits a 42 37, rowcnt := bits a 36 24,
    rowbase := bits a 23 11, weight := bits a 10 4, teams := bits b 63 59, sbcnt := bits b 58 53, sbbase := bits b 52 48,
    fbcnt := bits b 47 42, fbbase := bits b 41 37 }

/-- The banks of an entry's ranges. -/
def Entry.banks (e : Entry) : List Nat := (upTo e.sbcnt).map (e.sbbase + ·) ++ (upTo e.fbcnt).map (e.fbbase + ·)

/-- Two runs of numbers meet. -/
def runsMeet (a n b m : Nat) : Bool := decide (0 < n ∧ 0 < m ∧ a < b + m ∧ b < a + n)

/-- The valid entries of a core are consistent (01 R16). -/
def consistent (es : List Entry) : Bool :=
  let banks := es.flatMap Entry.banks
  (es.all fun e =>
    decide (e.gbase + e.gcnt ≤ 64 ∧ e.rowbase + e.rowcnt ≤ 6144 ∧ e.sbbase + e.sbcnt ≤ 32 ∧ e.fbbase + e.fbcnt ≤ 32 ∧
      1 ≤ e.weight ∧ e.weight ≤ 64 ∧ e.gcnt ≠ 0 ∧ e.rowcnt ≠ 0 ∧ e.teams ≠ 0)) &&
  ((upTo es.length).all fun i => (upTo es.length).all fun j => i == j ||
    match es[i]?, es[j]? with
    | some x, some y => !runsMeet x.gbase x.gcnt y.gbase y.gcnt && !runsMeet x.rowbase x.rowcnt y.rowbase y.rowcnt
    | _, _ => true) &&
  banks.eraseDups.length == banks.length && decide ((es.map (·.teams)).sum ≤ 16 ∧ banks.length ≤ 30)

/-- The two words that a commit of a partition writes. -/
def descWords (d : PartDesc) : Bits64 × Bits64 :=
  (BitVec.ofNat 64 (setBits (setBits d.ent0.toNat 63 63 1) 55 50 d.part), d.ent1)

/-- A field of the descriptor lies outside its stated range (01 R14, R15), or a reserved bit is set. -/
def descBadArg (d : PartDesc) : Bool :=
  let a := d.ent0.toNat
  let e := entryOf (d.ent0, d.ent1)
  let barb := [d.barb0.toNat, d.barb1.toNat, d.barb2.toNat]
  decide (63 < d.part ∨ 15 < d.e ∨ d.domLimit < 1 ∨ 256 < d.domLimit) ||
  decide (e.weight < 1 ∨ 64 < e.weight ∨ 64 < e.gcnt ∨ 16 < e.teams ∨ 32 < e.sbcnt ∨ 32 < e.fbcnt) || d.cores.any (fun c => decide (192 ≤ c)) ||
  bits a 62 56 != 0 || bits a 3 0 != 0 || bits d.ent1.toNat 36 0 != 0 || bits a 36 24 % 64 != 0 || bits a 23 11 % 64 != 0 ||
  bits d.lim1.toNat 31 0 != 0 || barb.any fun b => bits b 31 0 != 0 || decide (21 < bits b 55 51)

/-- A limiter's DEPTH does not fit its RATE. -/
def depthBad (depth rate : Nat) : Bool := (rate == 0) != (depth == 0)

/-- The commit is refused (01 R14, R16, 05 R72, 14 R218). -/
def descBadPart (s : State) (d : PartDesc) : Bool :=
  let l0 := d.lim0.toNat
  let l1 := d.lim1.toNat
  depthBad (bits l0 63 48) (bits l0 47 32) || depthBad (bits l0 31 16) (bits l0 15 0) || depthBad (bits l1 63 48) (bits l1 47 32) ||
  ([d.barb0.toNat, d.barb1.toNat, d.barb2.toNat].any fun b => bits b 62 61 == 3) ||
  (s.adm.doms.any fun e => e.2.part == d.part &&
    (e.2.st == .live || e.2.st == .draining || e.2.st == .killing || e.2.st == .stopped)) ||
  d.cores.any fun c =>
    let es := (s.coreAt c).dpreg
    (match tget es d.e with | some w => (entryOf w).v && (entryOf w).part != d.part | none => false) ||
    !consistent (((tset es d.e (descWords d)).map fun x => entryOf x.2).filter (·.v))

/-- The banks of a core take the roles that its entries give them (06 R92): a bank that leaves every range is a shared way with no line;
a shared L1 way that enters one loses its lines and is zeroed, and then has no owner. Of the banks that were in a range before and still
are, scratchpad and FIFO banks follow their range; a partition's L1 way, and a bank that a BANKROLE zeroes, stay as they are. -/
def settleRoles (c : Core) : Core :=
  let es := (c.dpreg.map fun x => entryOf x.2).filter (·.v)
  let one (c : Core) (b : Nat) : Core :=
    match es.find? fun e => e.banks.contains b with
    | none =>
      if (tget c.roles b).isSome then
        { c with roles := tdel c.roles b, bankPart := tdel c.bankPart b, l1 := c.l1.filter (·.way != b) }
      else c
    | some e =>
      let fifo := decide (e.fbbase ≤ b ∧ b < e.fbbase + e.fbcnt)
      let c1 := { c with bankPart := tset c.bankPart b e.part }
      match roleOf c b with
      | .sharedL1 => { c1 with roles := tset c.roles b (.scrub (if fifo then 2 else 1) none), l1 := c.l1.filter (·.way != b) }
      | .scrub _ none => { c1 with roles := tset c.roles b (.scrub (if fifo then 2 else 1) none) }
      | .partL1 | .scrub _ (some _) => c1
      | .scratch | .fifo => { c1 with roles := tset c.roles b (if fifo then .fifo else .scratch) }
  (upTo 32).foldl one c

/-- A core after a commit: its deficits are 0 and its pointers stand before partition 0 (05 R69), and its buckets of the partition are
full. -/
def commitCore (d : PartDesc) (c : Core) : Core :=
  let full : Bucket := { mem := bits d.lim0.toNat 63 48 * 1024, peer := bits d.lim0.toNat 31 16 * 1024, host := bits d.lim1.toNat 63 48 * 1024 }
  settleRoles { c with dpreg := tset c.dpreg d.e (descWords d), deficits := [], pointers := [], buckets := tset c.buckets d.part full }

/-- A core outside the set: its entry of that index goes where it is this partition's. Its pointers stay where they stand: 05 R69 sets
them before partition 0 at a commit of the core, and does not say whether the loss of an entry is one (DESIGN CHOICE, log 64). -/
def uncommitCore (d : PartDesc) (c : Core) : Core :=
  match tget c.dpreg d.e with
  | some w => if (entryOf w).v ∧ (entryOf w).part = d.part then settleRoles { c with dpreg := tdel c.dpreg d.e } else c
  | none => c

/-- A commit that is accepted. -/
def commitPart (s : State) (d : PartDesc) : State :=
  let s1 := s.modPart d.part fun p =>
    { p with committed := true, cores := sortBy (fun a b => decide (a ≤ b)) d.cores.eraseDups, domLimit := d.domLimit,
             quota := d.quota, lim0 := d.lim0, lim1 := d.lim1, barb := [d.barb0, d.barb1, d.barb2], winAt := List.replicate 3 s.sys.fab,
             ent0 := (descWords d).1,
             ent1 := d.ent1, e := d.e }
  (upTo 192).foldl (fun s c =>
    if d.cores.contains c then s.modCore c (commitCore d)
    else if (tget (s.coreAt c).dpreg d.e).isSome then s.modCore c (uncommitCore d) else s) s1

/-- PARTITION_COMMIT (01 R14). -/
def execPartitionCommit (s : State) : Out :=
  match s.ctl.ev with
  | some (.partitionCommit fn d) =>
    .next (command s fn (fn == 0) [(descBadArg d, 3), (descBadPart s d, 2)] fun s => commitPart s d)
  | _ => .next s

/-- The weight of a partition's entries on every core of its set, for the rounds that begin after it. -/
def commitWeight (s : State) (part weight : Nat) : State :=
  let p := s.part part
  let put := fun (w : Bits64) => BitVec.ofNat 64 (setBits w.toNat 10 4 weight)
  (p.cores.foldl (fun s c => s.modCore c fun x =>
    { x with dpreg := tmod x.dpreg p.e fun w => (put w.1, w.2) }) s).modPart part fun p => { p with ent0 := put p.ent0 }

/-- WEIGHT_ONLY_COMMIT (01 R14). -/
def execWeightOnlyCommit (s : State) : Out :=
  match s.ctl.ev with
  | some (.weightOnlyCommit fn part weight) =>
    .next (command s fn (fn == 0)
      [(decide (63 < part ∨ weight < 1 ∨ 64 < weight), 3), (!(s.part part).committed, 2)] fun s => commitWeight s part weight)
  | _ => .next s

/-! ## Writes of host memory and of tables by the device -/

/-- The bridge lines of n bytes of host memory. -/
def hostLines (va n : Nat) : List Nat :=
  ((upTo ((n + 255) / 256 + 1)).map fun i => bridgeBase + va / 256 + i).filter fun lk => decide ((lk - bridgeBase) * 256 < va + n)

/-- A write of host memory waits for the rebase: a bridge line that it drops would take the host clock past the last timestamp (07 R106). -/
def hostPutHolds (s : State) (va n : Nat) : Bool := (hostLines va n).any (bridgeHolds s)

/-- Bytes that the device writes to host memory: a bridge line that holds them is dropped first, as for a write of the host. The
addresses that a function gives are those of host memory (log 30). -/
def hostPut (s : State) (va : Nat) (bs : Bytes) : State :=
  let s1 := (hostLines va bs.length).foldl dropBridge s
  s1.setMem { s1.mem with host := memPut s1.mem.host va bs }

/-- One byte of a sector changed where it stands: in the line that holds it, else in memory, under the key index it has. -/
def pokeByte (s : State) (pa : Nat) (b : Byte) : State :=
  if isHost pa then hostPut s (pa - 2 ^ 51) [b]
  else match findLine s (homeSlice s pa) pa with
    | some lk => match s.line lk with
      | some l =>
        let s1 := if l.h then sendBisnp s l.pa true else s
        s1.setLine lk { l with data := overlay l.data (pa % 256) [b], dirty := l.dirty ||| (1 <<< bits pa 7 7) }
      | none => s
    | none =>
      let n := pa / 128
      writeSector s n (s.sector n).key (overlay (sectorPlain s n) (pa % 128) [b]) (s.sector n).poison

/-! ## The life of a domain (01 R22) -/

/-- The domains of a partition that are not FREE. -/
def domsOf (s : State) (part : Nat) : List (Nat × Dom) := s.adm.doms.filter fun e => e.2.part == part && e.2.st != .free

/-- A domain in CLOSED as CREATE makes it. -/
def createDom (s : State) (fn part root vector : Nat) : State :=
  match (upTo 256).find? fun d => (s.dom d).st == .free, (upTo 256).find? fun n => !(domsOf s part).any fun e => e.2.slot == n with
  | some did, some slot =>
    let (gen, s1) := s.fresh
    let ep := newEpoch s
    let cur := { Curator.fresh with gfloor := ⟨0, ep⟩, trun := ⟨0, ep⟩, tpend := ⟨0, ep⟩ }
    let x := s1.sys
    let s2 := s1.setSys { x with dgen := x.dgen + 1, keys := tset x.keys did gen, reply := tset x.reply fn did }
    let s3 := s2.setDom did
      { Dom.fresh with st := .closed, part := part, slot := slot, root := root, vector := vector, dgen := x.dgen + 1, cur := cur, keyGen := gen }
    s3.setCore { s3.core with cores := s3.core.cores.map fun e => (e.1, { e.2 with incs := tdel e.2.incs did, sentAt := tdel e.2.sentAt did }) }
  | _, _ => s

/-- No domain can be created in a partition. -/
def createBarred (s : State) (part : Nat) : Bool :=
  decide ((s.part part).domLimit ≤ (domsOf s part).length) || !(upTo 256).any fun d => (s.dom d).st == .free

/-- CREATE (01 R22). -/
def execCreate (s : State) : Out :=
  match s.ctl.ev with
  | some (.create fn part root vector) =>
    .next (command s fn (ownsPart fn part)
      [(decide (part ≤ 63) && createBarred s part, 1), (decide (63 < part ∨ root % 2 ^ 14 ≠ 0 ∨ 2 ^ 52 ≤ root ∨ 2 ^ 57 ≤ vector), 3)]
      fun s => createDom s fn part root vector)
  | _ => .next s

/-- OPEN (01 R22): the domain is LIVE and its HELD queues wait again (02 R29). -/
def execOpenDomain (s : State) : Out :=
  match s.ctl.ev with
  | some (.openDomain fn did) =>
    .next (command s fn (ownsDom s fn did) [(notIn s did [.closed], 1)] fun s =>
      let s1 := s.modDom did fun d => { d with st := .live }
      s1.setAdm { s1.adm with queues := s1.adm.queues.map fun e =>
        if e.1 / 16 = did ∧ e.2.st = .held then (e.1, { e.2 with st := .waiting }) else e })
  | _ => .next s

/-- A grid of the domain has been dispatched and has not completed. -/
def gridOpen (s : State) (did : Nat) : Bool := s.work.grids.any fun e => e.2.did == did && !e.2.done

/-- The domain reaches CLOSED: its queues hold their records, and the calls still in its inbox end with TARGET_GONE (01 R25). -/
def closeDom (s : State) (did : Nat) : State :=
  let s1 := holdQueues (s.modDom did fun d => { d with st := .closed }) did
  ((s1.dom did).inbox.map (·.id)).foldl (fun s id => endCall s id gTargetGone) s1

/-- CLOSE (01 R22). -/
def execCloseDomain (s : State) : Out :=
  match s.ctl.ev with
  | some (.closeDomain fn did) =>
    .next (command s fn (ownsDom s fn did) [(notIn s did [.live], 1)] fun s =>
      if gridOpen s did then holdQueues (s.modDom did fun d => { d with st := .draining }) did else closeDom s did)
  | _ => .next s

/-- The engine commands of a domain end, their pending counts lowered, with their updates and scrubs (01 R22). -/
def killCmds (s : State) (did : Nat) : State :=
  let mine := s.fly.cmds.filter (·.2.did == did)
  let s1 := mine.foldl (fun s e => (if e.2.phase = 4 ∨ e.2.phase = 2 ∧ e.2.kind ≠ 0xBD then
    e.2.rowsLeft.foldl (fun s r => lowerPend s r.1) s else s).delCmd e.1) s
  s1.setFly { s1.fly with upds := s1.fly.upds.filter (·.2.did != did),
                          scrubs := s1.fly.scrubs.filter fun e => ((s1.team e.2.team).map (·.did)).getD 0 != did }

/-- Translations of a domain are dropped: TLB entries, walk cache entries, walks and the accesses that wait for them, pending entries
(09 R153, R154). A remote access that had arrived for the domain is answered: the domain is gone (18 R307). -/
def killPages (s : State) (did : Nat) : State :=
  let die := fun (d : Die) =>
    { d with tlb := d.tlb.filter (·.did != did), wcache := d.wcache.filter (·.1 != did), pend := d.pend.filter (·.did != did),
             pendWait := d.pendWait.filter (·.did != did), walks := d.walks.filter (·.1 != did),
             walkWait := d.walkWait.filter (·.1 != did) }
  let gone := fun (q : Req) => q.did == did && (q.stage == .catalogued || q.stage == .walk)
  let s1 := s.setMem { s.mem with dies := s.mem.dies.map fun e => (e.1, die e.2) }
  let s2 := s1.setCore { s1.core with cores := s1.core.cores.map fun e =>
    (e.1, { e.2 with tlb := e.2.tlb.filter (·.did != did), catalogue := e.2.catalogue.filter (·.did != did),
                     catWait := e.2.catWait.filter (·.did != did) }) }
  let s3 := s2.setFly { s2.fly with reqs := s2.fly.reqs.filter fun e => !gone e.2 }
  let s4 := (s3.mem.dies.map (·.1)).foldl grantWalkers (s3.modDom did fun d =>
    { d with tlbinv := d.tlbinv.map fun x => { x with walks := [] } })
  (s4.fly.remotes.filter fun e => e.2.acc.ldid == did).foldl (fun s e => endRemote s e.1 e.2.acc (.failed 3)) s4

/-- The groups of a domain that stand at a boundary, or are parked or frozen, stop at once; the others as they pass theirs. -/
def killGroups (s : State) (did : Nat) : State :=
  let atRest := fun (g : Group) => g.st == .stopped || (match g.run with | some r => r.closed | none => true)
  ((s.work.groups.filter fun e => s.didOf e.2 == did && e.2.st != .exited && e.2.st != .empty && atRest e.2).map (·.1)).foldl killGroup s

/-- The queues of a killed domain are OFF, their undispatched records discarded (02 R29, R35). -/
def killQueues (s : State) (did : Nat) : State :=
  s.setAdm { s.adm with queues := s.adm.queues.map fun e =>
    if e.1 / 16 = did then (e.1, { e.2 with st := .off, head := e.2.tail, outst := 0, record := none, waitGen := none, errc := e.2.errc }) else e }

/-- The images of a domain's teams are released, and a FROST still pending returns BAD_STATE (05 R83). -/
def killFrost (s : State) (did : Nat) : State :=
  let fns := ((s.dom did).freezing.map (·.1)).eraseDups
  let s1 := fns.foldl (fun s fn => setFrost s fn 1) (s.modDom did fun d => { d with freezing := [] })
  s1.setWork { s1.work with teams := s1.work.teams.map fun e =>
    if e.2.did = did then (e.1, { e.2 with image := none, freezing := false, frozen := false, thawing := false }) else e }

/-- KILL (01 R22, R25). -/
def killDom (s : State) (did : Nat) : State :=
  let s1 := killQueues (s.modDom did fun d => { d with st := .killing }) did
  let s2 := killPages (killCmds (killFrost s1 did) did) did
  let s3 := ((s2.dom did).inbox.map (·.id)).foldl (fun s id => endCall s id gTargetGone) s2
  let s4 := (((s3.work.groups.filter fun e => s3.didOf e.2 == did).map (·.1))).foldl dropCallOf s3
  settleAll (killGroups s4 did)

/-- KILL (01 R22). -/
def execKill (s : State) : Out :=
  match s.ctl.ev with
  | some (.kill fn did) =>
    .next (command s fn (ownsDom s fn did) [(notIn s did [.live, .draining, .stopped], 1)] fun s => killDom s did)
  | _ => .next s

/-- The messages, receives and registers of a team go with it (10 R165, 04 R65). -/
def removeTeam (s : State) (team : Nat) : State :=
  let s0 := match s.team team with
    | some t => (t.files (((s.launchOf t).map (·.mx)).getD false)).foldl (fun s e =>
        if t.awayFiles.contains e.1 then s else copyFile s (team * 64 + e.1) (slotFile t.core e.2)) s
    | none => s
  let s1 := dropMessages s0 team
  let s2 := s1.setWork { s1.work with groups := s1.work.groups.filter (·.2.team != team),
                                      teams := tmod s1.work.teams team fun t => { t with retired := true, image := none, frames := [] } }
  s2.setCore { s2.core with sregs := s2.core.sregs.filter fun e => e.1 / 4096 != team }

/-- A counter as it is read (14 R211). -/
def counterRead (d : Dom) (i : Nat) : Nat := if d.satBits.getD i false then 2 ^ 64 - 1 else d.counters.getD i 0

/-- The cut of a snapshot: every core sends the domain's increments, and the counters and the virtual clock are kept as they then stand
(14 R214). -/
def cutSnap (s : State) (fn did nonce addr : Nat) (final : Bool) : State :=
  let s0 := (s.core.cores.map (·.1)).foldl (fun s c => flushCore s c did) s
  let s1 := s0.modDom did fun d => d.sendClock s.sys.clk
  s1.modDom did fun d =>
    { d with snum := d.snum + 1,
             snaps := d.snaps ++
               [{ fn := fn, nonce := nonce, addr := addr, final := final, pieces := (upTo 16).map (counterRead d) ++ [d.vclk, d.snum + 1] }] }

/-- Every gate entry of the device that names a domain becomes invalid (01 R22, R23). -/
def dropGates (s : State) (did : Nat) : State :=
  s.adm.doms.foldl (fun s e =>
    (upTo e.2.gateCnt).foldl (fun s g =>
      let w := gateEntry s e.1 g
      if w.testBit 64 ∧ (bits w 15 8 = did ∨ bits w 7 0 = did) then
        pokeByte s (e.2.gates + 32 * g + 8) (BitVec.ofNat 8 (bits w 71 64 - 1))
      else s) s) s

/-- RETIRE (01 R22). -/
def execRetire (s : State) : Out :=
  match s.ctl.ev with
  | some (.retire fn did nonce addr) =>
    .next (command s fn (ownsDom s fn did) [(notIn s did [.closed], 1), (decide (addr % 64 ≠ 0 ∨ 2 ^ 128 ≤ nonce), 3)] fun s =>
      dropGates ((cutSnap s fn did nonce addr true).modDom did fun d => { d with st := .retiring }) did)
  | _ => .next s

/-- Rows, banks, scalar files and the tile store that a domain owns are zeroed and owned by none (01 R21, R22). -/
def zeroOwned (s : State) (did : Nat) : State :=
  let mine := fun (r : Nat × RowTag) => r.2.owner == some did
  let rows := (s.core.rowTags.filter mine).map (·.1)
  let srows := (s.core.sramTags.filter fun e => e.2.owner == some did).map (·.1)
  let files := ((s.core.fileTags.filter (·.2 == did)).map fun e => slotFile (e.1 / 80) (e.1 % 80))
  s.setCore
    { s.core with
      rows := s.core.rows.filter fun e => !rows.contains e.1
      rowTags := s.core.rowTags.filter fun e => !mine e
      sram := s.core.sram.filter fun e => !srows.contains (e.1 / 256)
      sramTags := s.core.sramTags.filter fun e => e.2.owner != some did
      sregs := s.core.sregs.filter fun e => !files.contains (e.1 / 64)
      fileTags := s.core.fileTags.filter (·.2 != did)
      cores := s.core.cores.map fun e => (e.1, if e.2.tileOwner = some did then { e.2 with tileOwner := none } else e.2) }

/-- A retired domain: its counters, its numbers and its sticky bits stand until CREATE (01 R22, 13 R384, 14 R211). -/
def Dom.retired (d : Dom) : Dom :=
  { Dom.fresh with counters := d.counters, satBits := d.satBits, vclk := d.vclk, snum := d.snum, pseq := d.pseq, ffrost := d.ffrost,
                   arrf := d.arrf }

/-- RETIRING ends: zeroing and key overwrite are complete, the final snapshot is written, and the DID is FREE. -/
def retireDone (s : State) (did : Nat) : State :=
  let d := s.dom did
  if d.st ≠ .retiring ∨ !d.snaps.isEmpty then s
  else
    let s0 := s.setWork { s.work with grids := s.work.grids.filter (·.2.did != did), teams := s.work.teams.filter (·.2.did != did) }
    let s1 := zeroOwned s0 did
    let s2 := s1.setAdm { s1.adm with queues := s1.adm.queues.filter fun e => e.1 / 16 != did }
    let s2 := d.tlbinv.foldl (fun s x => setStatus s x.fn 0) s2
    (s2.setDom did d.retired).setSys { s2.sys with keys := tdel s2.sys.keys did }

/-- RETIRE_COMPLETE (01 R22). -/
def execRetireComplete (s : State) : Out :=
  match s.ctl.ev with
  | some (.retireComplete did) => .next (whenUp s fun s => if s.sys.fatal.isSome then s else retireDone s did)
  | _ => .next s

/-- KICK (05 R74, R75). -/
def execKick (s : State) : Out :=
  match s.ctl.ev with
  | some (.kick fn did) =>
    .next (command s fn (ownsDom s fn did) [(notIn s did [.live, .draining], 1)] fun s => s.modDom did fun d => { d with wcount := 0 })
  | _ => .next s

/-- WATCHDOG_EXPIRY (05 R74): COUNT has reached LIMIT times 2^20. -/
def execWatchdogExpiry (s : State) : Out :=
  match s.ctl.ev with
  | some (.watchdogExpiry did) => .next (whenUp s fun s =>
      let d := s.dom did
      if !(notIn s did [.live, .draining]) && d.wlimit != 0 && decide (d.wlimit * 2 ^ 20 ≤ d.wcount) then
        interrupt (interrupt (stopDomain s did 1 0 0 0) (d.part + 1) iWATCHDOG) 0 iWATCHDOG
      else s)
  | _ => .next s

/-! ## Registers (01 R383) -/

/-- The function that may write a register, and whether it does. -/
def regOwn (s : State) (fn : Nat) (r : RegWrite) : Bool :=
  match r with
  | .dsave did _ _ | .dwdogLimit did _ | .dprovHead did _ | .gateTable did _ _ => ownsDom s fn did
  | .prqBase _ | .prqOrder _ | .prqHead _ => true
  | .tbase _ | .tsize _ | .peerBind _ _ _ _ _ | .powerLimit _ | .tablePages _ _ _ => fn == 0

/-- The first of BAD_STATE and BAD_ARG that refuses a register write. -/
def regRefusal (s : State) (r : RegWrite) : List (Bool × Nat) :=
  let gone := fun (did : Nat) => decide (255 < did) || !(notIn s did [.free, .retiring])
  match r with
  | .dsave did w0 w1 =>
    [(notIn s did [.closed], 1), (bits w0.toNat 62 57 != 0 || bits w0.toNat 11 0 != 0 || bits w1.toNat 63 32 != 0, 3)]
  | .dwdogLimit did limit => [(gone did, 1), (decide (2 ^ 16 ≤ limit), 3)]
  | .prqBase va => [(decide (va % 4096 ≠ 0 ∨ 2 ^ 57 ≤ va), 3)]
  | .prqOrder o => [(decide (12 < o), 3)]
  | .prqHead h => [(decide (2 ^ 32 ≤ h), 3)]
  | .tbase pa => [(decide (pa % 2 ^ 14 ≠ 0 ∨ 2 ^ 39 ≤ pa), 3)]
  | .tsize n => [(decide (n % 2 ^ 14 ≠ 0 ∨ 2 ^ 39 < n), 3)]
  | .peerBind i _ link ldid rdid => [(decide (63 < i ∨ 7 < link ∨ 255 < ldid ∨ 255 < rdid), 3)]
  | .powerLimit w => [(decide (w < 800 ∨ 2200 < w ∨ w % 50 ≠ 0), 3)]
  | .dprovHead did h => [(gone did, 1), (decide (2 ^ 32 ≤ h), 3)]
  | .tablePages first n did => [(decide (255 < did ∨ 2 ^ 25 < first + n), 3)]
  | .gateTable did base n => [(gone did, 1), (decide (base % 32 ≠ 0 ∨ 2 ^ 52 ≤ base ∨ 256 < n), 3)]

/-- The page request ring of a function. -/
def State.prq (s : State) (fn : Nat) : Prq := (tget s.sys.prq fn).getD ⟨0, 0, 0, 0⟩

/-- The peer links that a grid sees now, until it completes, each with the key hash of its last training (14 R217). -/
def noteLinks (s : State) : State :=
  let up := (upTo 8).filter fun n => linkUp s n
  let see := fun (g : Grid) =>
    let mine := up.filter fun n => (bindingOf s n g.did).isSome
    let new := mine.map fun n => (n, ((s.sys.links[n]?).map (·.hash)).getD 0)
    { g with links := (g.links.filter fun e => !mine.contains e.1) ++ new }
  s.setWork { s.work with grids := s.work.grids.map fun e => (e.1, if e.2.done ∨ e.2.stage ≠ 0 then e.2 else see e.2) }

/-- A register is written. -/
def writeReg (s : State) (fn : Nat) (r : RegWrite) : State :=
  let prq := fun (f : Prq → Prq) => s.setSys { s.sys with prq := tset s.sys.prq fn (f (s.prq fn)) }
  match r with
  | .dsave did w0 w1 => s.modDom did fun d => { d with save0 := w0, save1 := w1 }
  | .dwdogLimit did limit => s.modDom did fun d => { d with wlimit := limit }
  | .prqBase va => prq fun p => { p with base := va }
  | .prqOrder o => prq fun p => { p with order := o }
  | .prqHead h => prq fun p => { p with head := h }
  | .tbase pa => s.setSys { s.sys with tbase := pa }
  | .tsize n => s.setSys { s.sys with tsize := n }
  | .peerBind i v link ldid rdid =>
    noteLinks (s.setSys { s.sys with peers := if v then tset s.sys.peers i (link, ldid, rdid) else tdel s.sys.peers i })
  | .powerLimit w => s.setSys { s.sys with watts := w }
  | .dprovHead did h => s.modDom did fun d => { d with provHead := h }
  | .tablePages first n did =>
    s.setSys { s.sys with tablePages := (upTo n).foldl (fun t i => tset t (first + i) did) s.sys.tablePages }
  | .gateTable did base n => s.modDom did fun d => { d with gates := base, gateCnt := n }

/-- REGISTER_WRITE (01 R383). -/
def execRegisterWrite (s : State) : Out :=
  match s.ctl.ev with
  | some (.registerWrite fn r) => .next (command s fn (regOwn s fn r) (regRefusal s r) fun s => writeReg s fn r)
  | _ => .next s

/-- FAULT_LOG_CLEAR: a write of 1 to VALID clears the whole log (01 R19). -/
def execFaultLogClear (s : State) : Out :=
  match s.ctl.ev with
  | some (.faultLogClear fn part value) =>
    .next (command s fn (ownsPart fn part) [(decide (63 < part) || bits value.toNat 33 0 != 0, 3)] fun s =>
      if value.getLsbD 63 then s.modPart part fun p => { p with log := 0#64 } else s)
  | _ => .next s

/-- BARSTAT_CLEAR: a write of ones clears the bits it names (14 R219). -/
def execBarstatClear (s : State) : Out :=
  match s.ctl.ev with
  | some (.barstatClear fn part value) =>
    .next (command s fn (ownsPart fn part) [(decide (63 < part ∨ 7 < value), 3)] fun s =>
      s.modPart part fun p => { p with barstat := p.barstat &&& (7 ^^^ value) })
  | _ => .next s

/-- CURATOR_RING_WRITE: V, BASE and ORDER of the deaccession ring of a CLOSED domain; HEAD, RIPE and TAIL become 0 (12 R197). -/
def execCuratorRingWrite (s : State) : Out :=
  match s.ctl.ev with
  | some (.curatorRingWrite fn did w0) =>
    let w := w0.toNat
    .next (command s fn (ownsDom s fn did) [(notIn s did [.closed], 1), (bits w 62 57 != 0 || bits w 11 4 != 0 || decide (12 < bits w 3 0), 3)]
      fun s => modCur s did fun c =>
        { c with v := w.testBit 63, basePage := bits w 56 12, order := bits w 3 0, head := 0, ripe := 0, tail := 0, entries := [] })
  | _ => .next s

/-- DPROV_RING_WRITE: V, BASE and ORDER of the provenance ring of a CLOSED domain; HEAD and TAIL become 0 (14 R215). -/
def execDprovRingWrite (s : State) : Out :=
  match s.ctl.ev with
  | some (.dprovRingWrite fn did w0) =>
    let w := w0.toNat
    .next (command s fn (ownsDom s fn did) [(notIn s did [.closed], 1), (bits w 62 57 != 0 || bits w 11 4 != 0, 3)] fun s =>
      s.modDom did fun d =>
        { d with provV := w.testBit 63, provBase := bits w 56 12 * 4096, provOrder := bits w 3 0, provHead := 0, provTail := 0 })
  | _ => .next s

end Sys2Proof.Machine
end

