-- ==== Sys2Proof/Machine/Compare.lean ====
section
/-! DEFINITION. The compare and predicate instructions, opcodes 0x50 to 0x56 (17 R278 to R281). -/

namespace Sys2Proof.Machine

/-- ICMP (17 R278, R279). -/
def execIcmp (w : RWord) (s : State) : Out :=
  predWord w 0x50 {} (fun _ _ a b => (aluIcmp (w.m.toNat % 8) (w.m.toNat / 8 % 2 == 1) (lo32 a) (lo32 b), 0#8)) s

/-- FCMP; a float compare counts with the compares (14 R209), and the sequencer may issue it on s-registers (04 R64). -/
def execFcmp (w : RWord) (s : State) : Out :=
  predWord w 0x51 {} (fun _ _ a b => fltCmp (w.m.toNat % 8) (w.m.toNat / 8 % 2 == 1) (f32 (lo32 a)) (f32 (lo32 b))) s

/-- DCMP on wide operands (17 R278, R279). -/
def execDcmp (w : RWord) (s : State) : Out :=
  predWord w 0x52 ⟨1, 2, 2, 1⟩ (fun _ _ a b => fltCmp (w.m.toNat % 8) (w.m.toNat / 8 % 2 == 1) (f64 a) (f64 b)) s

/-- A word that writes predicates from predicates. -/
def predOnly (w : RWord) (f : Ctx → Group → Group) (s : State) : Out :=
  issueWord w.h true 12 (fun c s => .ok (s.modGroup c.k (f c))) s

/-- PSET (17 R280). -/
def execPset (w : RWord) (s : State) : Out :=

  predOnly w (fun c g => g.setPred (opdPred w.d) c.act (maskOf fun l =>
    aluPset (w.m.toNat % 4) (w.m.toNat / 4 % 2 == 1) (c.g.pred (opdPred w.a) l) (c.g.pred (opdPred w.b) l))) s

/-- PMOV into a predicate: p(D) := (a ≠ 0) (17 R280). -/
def execPmovToPred (w : RWord) (s : State) : Out := predWord w 0x54 {} (fun _ _ a _ => (lo32 a != 0#32, 0#8)) s

/-- PMOV from a predicate (17 R280). -/
def execPmovFromPred (w : RWord) (s : State) : Out :=
  laneWord w 0x54 12 true false {} (fun c l _ _ _ => res32 (if c.g.pred (opdPred w.a) l then 1#32 else 0#32)) s

/-- PMOV.SETALL: p1 to p7 of each active lane from bits 1 to 7 (17 R280). -/
def setallBody (w : RWord) (c : Ctx) (s : State) : Except Trap State :=
  match checkR s c w 0x54 true {} with
  | .error t => .error t
  | .ok () =>
    match poisonedRow s c (readsR w {}) with
    | some r => .ok (pendEcc s c r)
    | none =>
      let a := opdWords s c w.a w.pa w.k.toNat 0
      .ok (s.modGroup c.k fun g =>
        [1, 2, 3, 4, 5, 6, 7].foldl (fun g j => g.setPred j c.act (maskOf fun l => (a.getD l 0#32).getLsbD j)) g)

/-- PMOV.SETALL (17 R280). -/
def execPmovSetall (w : RWord) (s : State) : Out := issueWord w.h true 12 (setallBody w) s

/-- PMOV.GETALL: bit 0 is 1 (17 R280). -/
def execPmovGetall (w : RWord) (s : State) : Out :=

  laneWord w 0x54 12 true false {} (fun c l _ _ _ =>
    res32 (BitVec.ofNat 32 ((List.range 8).foldl (fun t j => if c.g.pred j l then t + 2 ^ j else t) 0))) s

/-- VOTE.ALL over the active lanes (17 R281). -/
def execVoteAll (w : RWord) (s : State) : Out :=

  predOnly w (fun c g => g.setPred (opdPred w.d) c.act
    (if (lanesOf c.act).all (c.g.pred (opdPred w.a)) then 0xFFFFFFFF#32 else 0#32)) s

/-- VOTE.ANY over the active lanes (17 R281). -/
def execVoteAny (w : RWord) (s : State) : Out :=

  predOnly w (fun c g => g.setPred (opdPred w.d) c.act
    (if (lanesOf c.act).any (c.g.pred (opdPred w.a)) then 0xFFFFFFFF#32 else 0#32)) s

/-- VOTE.BALLOT: the mask of the active lanes in which p(A) is true (17 R281). -/
def execVoteBallot (w : RWord) (s : State) : Out :=
  laneWord w 0x55 12 true false {} (fun c _ _ _ _ => res32 (maskOf fun l => inMask c.act l && c.g.pred (opdPred w.a) l)) s

/-- ACTIVE: the mask of the active lanes (17 R281). -/
def execActive (w : RWord) (s : State) : Out := laneWord w 0x56 12 true false {} (fun c _ _ _ _ => res32 c.act) s


end Sys2Proof.Machine
end

