-- ==== Sys2Proof/Machine/Control.lean ====
section
/-! DEFINITION. The control instructions, opcodes 0x00 to 0x0F (18 R294 to R298). A terminator leaves each lane's successor in
the run; the boundary acts on them (04 R58, R59). -/

namespace Sys2Proof.Machine

/-- The target of a word: its address plus 8 times the signed immediate (18 R295), modulo 2^57. -/
def target (pc : Nat) (imm : BitVec 24) : Nat := (((pc : Int) + 8 * imm.toInt) % 2 ^ 57).toNat

/-- The address after a word. -/
def Ctx.fall (c : Ctx) : Nat := c.pc + 8

/-- The state with successors named for lanes of the gang. -/
def succeed (s : State) (c : Ctx) (f : Nat → Nat × Nat) : State :=
  s.modRun c.k fun r =>
    { r with succ := r.succ ++ (lanesOf c.act).map fun l => { lane := l, pc := (f l).1, depth := (f l).2 } }

/-- NOP (18 R298). -/
def execNop (w : RWord) (s : State) : Out := issueWord w.h false 13 (fun _ s => .ok s) s

/-- NEXT (18 R295). -/
def execNextw (w : IWord) (s : State) : Out :=
  issueWord w.h false 13 (fun c s => .ok (succeed s c fun _ => (target c.pc w.imm, c.r.depth))) s

/-- BRC: to the target in the lanes where p(A), or its complement with `.NOT`, is true (18 R295). -/
def execBrc (w : IWord) (s : State) : Out :=
  issueWord w.h false 13 (fun c s => .ok (succeed s c fun l =>
    (if c.g.pred (opdPred w.a) l != (w.m.toNat % 2 == 1) then target c.pc w.imm else c.fall, c.r.depth))) s

/-- A terminator whose successor is read from A: nothing where a poisoned row is read. -/
def jumpReg (w : RWord) (op : Nat) (depth : Nat) (c : Ctx) (s : State) : Except Trap State :=
  match checkR s c w op true ⟨1, 2, 1, 1⟩ with
  | .error t => .error t
  | .ok () =>
    match poisonedRow s c (readsR w ⟨1, 2, 1, 1⟩) with
    | some r => .ok (pendEcc s c r)
    | none =>
      let a := opdVals s c w.a w.pa w.k.toNat 2
      .ok (succeed s c fun l => ((a.getD l 0#64).toNat % 2 ^ 57, depth))

/-- BRX: the successor is a[56:0] (18 R295). -/
def execBrx (w : RWord) (s : State) : Out :=
  issueWord w.h (lanewiseR w) 13 (fun c s => jumpReg w 0x03 c.r.depth c s) s

/-- CALL: the word after goes to d and the call depth rises; CALL_DEPTH at depth 63 (18 R295). The sequencer may not issue it
(04 R64). -/
def execCall (w : IWord) (s : State) : Out :=
  issueWord w.h (lanewiseR (asR w)) 13 (fun c s =>
    match checkR s c (asR w) 0x04 false ⟨2, 1, 1, 1⟩ with
    | .error t => .error t
    | .ok () =>
      if c.act ≠ 0#32 ∧ 63 ≤ c.r.depth then .error (c.trap cCALLDEPTH 0 c.act.toNat)
      else
        .ok (succeed (writeDest s c.k (destOf s c w.d 2) c.act fun _ => c.fall) c fun _ =>
          (target c.pc w.imm, c.r.depth + 1))) s

/-- RET: the successor is a[56:0] at the lower call depth; CALL_DEPTH at depth 0 (18 R295). -/
def execRet (w : RWord) (s : State) : Out :=
  issueWord w.h (lanewiseR w) 13 (fun c s =>
    match checkR s c w 0x05 true ⟨1, 2, 1, 1⟩ with
    | .error t => .error t
    | .ok () =>
      if c.act ≠ 0#32 ∧ c.r.depth = 0 then .error (c.trap cCALLDEPTH 0 c.act.toNat)
      else jumpReg w 0x05 (c.r.depth - 1) c s) s

/-- REGROUP: the successor of the guard-true lanes, which have executed REGROUP (18 R296); ROLE in the sequencer, PRIV in a
handler (13 R202). -/
def execRegroup (w : IWord) (s : State) : Out :=
  issueWord w.h false 13 (fun c s =>
    if c.g.isSeq then .error (c.trap cROLE 0 0x06)
    else if c.g.handler.isSome then .error (c.trap cPRIV 0 0x06)
    else .ok ((succeed s c fun _ => (target c.pc w.imm, c.r.depth)).modRun c.k fun r =>
      { r with regroup := r.regroup ||| c.act })) s

/-- EXIT: the guard-true lanes exit; RSECT, subcode EXIT, where one is inside a read-side section (18 R296, 12 R186). -/
def execExit (w : RWord) (s : State) : Out :=
  issueWord w.h false 13 (fun c s =>
    let bad := maskOf fun l => inMask c.act l && c.g.depth.getD l 0 != 0
    if bad ≠ 0#32 then .error (c.trap cRSECT 3 bad.toNat)
    else .ok (s.modRun c.k fun r => { r with exits := r.exits ||| c.act })) s

/-- LOOP: the counter falls by one, and the lanes where it is not 0 go to the target; an s-register counter falls once per
word (18 R295). -/
def execLoop (w : IWord) (s : State) : Out :=
  issueWord w.h (lanewiseR (asR w)) 13 (fun c s =>
    match checkR s c (asR w) 0x08 true {} with
    | .error t => .error t
    | .ok () =>
      match poisonedRow s c (vregsOf w.d 1) with
      | some r => .ok (pendEcc s c r)
      | none =>
        let d := (opdWords s c w.d .ident 0 0).map fun x => x - 1#32
        .ok (succeed (writeDest s c.k (destOf s c w.d 1) c.act fun l => (d.getD l 0#32).toNat) c fun l =>
          (if d.getD l 0#32 ≠ 0#32 then target c.pc w.imm else c.fall, c.r.depth))) s

/-- YIELD: every lane falls through, and the group yields at the boundary (18 R296). -/
def execYield (w : RWord) (s : State) : Out :=
  issueWord w.h false 13 (fun c s =>
    .ok (if c.act = 0#32 then s else s.modRun c.k fun r => { r with yielded := true })) s

/-- TRAP n: the word traps with cause TRAP; the saved PC is the word after (18 R297, 13 R199). -/
def execTrapw (w : IWord) (s : State) : Out :=
  issueWord w.h false 13 (fun c s =>
    if c.act = 0#32 then .ok s else .error { c.trap cTRAP 0 w.imm.toNat with pc := c.fall }) s

/-- TRET: outside TRAP it traps with PRIV; in a handler the handler path that issues it finishes, for all of its lanes
(18 R297). -/
def execTret (w : RWord) (s : State) : Out :=
  issueWord w.h false 13 (fun c s =>
    if c.g.handler.isNone then .error (c.trap cPRIV 0 0x0B)
    else .ok (if c.act = 0#32 then s else s.modRun c.k fun r => { r with tret := r.gang })) s

/-- BKPT: the word traps with cause BKPT; %trapinfo is its address and the saved PC the word after (18 R297). -/
def execBkpt (w : RWord) (s : State) : Out :=
  issueWord w.h false 13 (fun c s =>
    if c.g.isSeq then .error (c.trap cROLE 0 0x0C)
    else if c.act = 0#32 then .ok s
    else .error { c.trap cBKPT 0 c.pc with pc := c.fall }) s

/-- WSYNC: a collective that compares the members' masks and then acts as a full fence of group scope (18 R298, 04 R66). -/
def execWsync (w : RWord) (s : State) : Out :=
  issueWord w.h (lanewiseR w) 13 (fun c s =>
    match checkR s c w 0x0D false {} with
    | .error t => .error t
    | .ok () =>
      match collective c with
      | .error t => .error t
      | .ok acts =>
        if !acts then .ok s
        else match poisonedRow s c (readsR w {}) with
          | some r => .ok (pendEcc s c r)
          | none =>
            let a := opdVals s c w.a w.pa w.k.toNat 1
            let first := laneAt a (lowLane c.act)
            match (lanesOf c.act).find? fun l => laneAt a l != first || (laneAt a l &&& ~~~c.g.live) != 0#32 with
            | some l => .error (c.trap cSYNCMASK 0 l)
            | none => .ok (fullFence s c)) s

/-- HALT.F: outside a PREEMPT handler it traps with PRIV; with a true guard it ends the handler at the boundary, where the
group freezes (19 R355); issued after the end of the budget it comes too late, and the frost is forced (05 R79). -/
def execHaltF (w : RWord) (s : State) : Out :=
  issueWord w.h false 13 (fun c s =>
    match c.g.handler with
    | some h =>
      if h.trap.cause = cPREEMPT then
        .ok (if c.act = 0#32 ∨ h.over s.sys.clk then s else s.modRun c.k fun r => { r with halt := true })
      else .error (c.trap cPRIV 0 0x0E)
    | none => .error (c.trap cPRIV 0 0x0E)) s

/-- SETPRI n: the base and current level become n and the wait 0 (18 R298); ROLE in the sequencer. -/
def execSetpri (w : IWord) (s : State) : Out :=
  issueWord w.h false 13 (fun c s =>
    if c.g.isSeq then .error (c.trap cROLE 0 0x0F)
    else
      let n := w.imm.toNat % 16
      .ok (if c.act = 0#32 then s else s.modGroup c.k fun g => { g with base := n, level := n, wait := 0 })) s

end Sys2Proof.Machine
end

