-- ==== Sys2Proof/Machine/ConvertFam.lean ====
section
/-! DEFINITION. The conversion instructions, opcodes 0x70 to 0x76 (17 R287 to R291). -/

namespace Sys2Proof.Machine

/-- A conversion under the grid's format slot M[2:0]; class VOP_CVT (17 R287, 14 R209). -/
def cvtWord (w : RWord) (op : Nat) (n : Widths) (f : Bits64 → Bits64 → Bits64 → Bits64 → LaneRes) (s : State) : Out :=
  laneWord w op 11 false false n (fun c _ a b cc => f (slotWord s c.g (w.m.toNat % 8)) a b cc) s

/-- CVT (17 R288). -/
def execCvt (w : RWord) (s : State) : Out := cvtWord w 0x70 {} (fun sl a _ _ => cvt w.m.toNat sl (lo32 a)) s

/-- CVTF on wide operands (17 R288). -/
def execCvtf (w : RWord) (s : State) : Out := cvtWord w 0x71 ⟨2, 2, 1, 1⟩ (fun sl a _ _ => cvtf w.m.toNat sl a) s

/-- PACKZ (17 R289). -/
def execPackz (w : RWord) (s : State) : Out :=
  cvtWord w 0x72 {} (fun sl a b c => packz sl (lo32 a) (lo32 b) (lo32 c)) s

/-- UNPZ (17 R289). -/
def execUnpz (w : RWord) (s : State) : Out := cvtWord w 0x73 {} (fun sl a b _ => unpz sl (lo32 a) (lo32 b)) s

/-- SCALEB: the values of the active lanes of the lane's block (17 R290). -/
def execScaleb (w : RWord) (s : State) : Out :=

  laneWord w 0x74 11 false false {} (fun c l _ _ _ =>
    let slot := slotWord s c.g (w.m.toNat % 8)
    let n := blockLanes (slotOf slot)
    let a := opdWords s c w.a w.pa w.k.toNat 0
    scaleb slot (((lanesOf c.act).filter fun j => j / n == l / n).map fun j => a.getD j 0#32)) s

/-- QNT (17 R291). -/
def execQnt (w : RWord) (s : State) : Out := cvtWord w 0x75 {} (fun sl a b _ => qnt sl (lo32 a) (lo32 b)) s

/-- DQNT (17 R291). -/
def execDqnt (w : RWord) (s : State) : Out := cvtWord w 0x76 {} (fun sl a b _ => dqnt sl (lo32 a) (lo32 b)) s


end Sys2Proof.Machine
end

