-- ==== Sys2Proof/Machine/Queues.lean ====
section
/-! DEFINITION. Queues and launch records (02 R27 to R33): the descriptor and its writes, doorbells, the checks of a record at HEAD, and
dispatch. -/

namespace Sys2Proof.Machine

/-! ## Writes of a descriptor (02 R27, R28) -/

/-- A command on a queue: refused in a domain in FREE or RETIRING. -/
def queueCommand (s : State) (fn did q : Nat) (no : List (Bool × Nat)) (f : State → State) : State :=
  commandWith s fn (ownsDom s fn did)
    ((decide (255 < did) || !(notIn s did [.free, .retiring]), 1) :: (decide (15 < q), 3) :: no) f

/-- A queue whose ring is not empty leaves IDLE: to WAITING, or to HELD where its domain is not LIVE (02 R29). -/
def stirQueue (s : State) (did q : Nat) : State :=
  s.modQueue did q fun x =>
    let y := wakeQueue x
    if y.st = .waiting ∧ (s.dom did).st ≠ .live then { y with st := .held } else y

/-- A new TAIL of a queue is accepted as R28 lays down, or sets ERRC to BAD_TAIL. -/
def setTail (s : State) (did q tail : Nat) : State × Bool :=
  let x := s.queue did q
  if decide (tail < 2 ^ 16) && decide ((tail + 2 ^ 16 - x.head) % 2 ^ 16 ≤ 2 ^ (x.order + 4)) then
    (stirQueue (s.modQueue did q fun x => { x with tail := tail }) did q, true)
  else (s.modQueue did q fun x => { x with errc := 6 }, false)

/-- A TAIL written through the descriptor: as written while OFF, as a doorbell on another host queue, refused on another device queue. A
TAIL written alone while OFF leaves `fresh`: 02 R27 does not say whether it is a descriptor write, after which the next enable empties
the ring (DESIGN CHOICE, log 32). -/
def writeTail (s : State) (fn did q tail : Nat) : State :=
  let x := s.queue did q
  if x.st = .off then
    if 2 ^ 16 ≤ tail then setStatus s fn 3 else setStatus (s.modQueue did q fun x => { x with tail := tail }) fn 0
  else if x.kind then setStatus s fn 1
  else
    let r := setTail s did q tail
    setStatus r.1 fn (if r.2 then 0 else 3)

/-- QUEUE_TAIL_WRITE (02 R27). -/
def execQueueTailWrite (s : State) : Out :=
  match s.ctl.ev with
  | some (.queueTailWrite fn did q tail) => .next (queueCommand s fn did q [] fun s => writeTail s fn did q tail)
  | _ => .next s

/-- ERRC_CLEAR: a write of 1 to any bit clears the field and nothing else (02 R27). -/
def execErrcClear (s : State) : Out :=
  match s.ctl.ev with
  | some (.errcClear fn did q b) =>
    .next (queueCommand s fn did q [(decide (255 < b), 3)] fun s =>
      setStatus (if b = 0 then s else s.modQueue did q fun x => { x with errc := 0 }) fn 0)
  | _ => .next s

/-- The grids dispatched from a queue that have not completed. -/
def runningOf (s : State) (did q : Nat) : Nat := (s.work.grids.filter fun e => e.2.did == did && e.2.queue == q && !e.2.done).length

/-- A queue is enabled: on the first enable after a descriptor write its ring is empty (02 R29). A device queue counts the records that
stand in its ring and the grids dispatched from it that have not completed (02 R35). -/
def enableQueue (s : State) (did q : Nat) : State :=
  let x := s.queue did q
  if x.st ≠ .off then s
  else
    let z := if x.fresh then { x with head := 0, tail := 0, fresh := false } else x
    let y := { z with outst := if z.kind then (z.tail + 2 ^ 16 - z.head) % 2 ^ 16 + runningOf s did q else 0 }
    stirQueue (s.modQueue did q fun _ => { y with st := .idle, record := none }) did q

/-- QUEUE_ENABLE (02 R29). -/
def execQueueEnable (s : State) : Out :=
  match s.ctl.ev with
  | some (.queueEnable fn did q) => .next (queueCommand s fn did q [] fun s => setStatus (enableQueue s did q) fn 0)
  | _ => .next s

/-- A queue is OFF: its undispatched records stay in its ring. -/
def disableQueue (s : State) (did q : Nat) : State :=
  s.modQueue did q fun x => { x with st := .off, record := none, waitGen := none }

/-- QUEUE_DISABLE (02 R29). -/
def execQueueDisable (s : State) : Out :=
  match s.ctl.ev with
  | some (.queueDisable fn did q) => .next (queueCommand s fn did q [] fun s => setStatus (disableQueue s did q) fn 0)
  | _ => .next s

/-- The fields that may be written only while the queue is OFF: KIND, QPRI, BASE, ORDER, QUOTA. -/
def queueFields (w0 w1 : Nat) : Bool × Nat × Nat × Nat × Nat := (w0.testBit 62, bits w0 61 58, bits w0 56 0, bits w1 63 60, bits w1 55 40)

/-- A written descriptor breaks a requirement of its tables. -/
def queueBad (w0 w1 : Nat) : Bool :=
  w0.testBit 57 || bits w0 7 0 != 0 || bits w1 59 56 != 0 || decide (11 < bits w1 63 60) || (w0.testBit 62 == (bits w1 55 40 == 0))

/-- A descriptor is written: its fields and TAIL while the queue is OFF; in another state its TAIL, ERRC and EN alone may change, and a
TAIL that differs is checked as a doorbell; one that R28 refuses leaves all but ERRC. A write with EN = 1 also enables the queue, and one
with EN = 0 disables it. A write that changes nothing but EN, TAIL and ERRC is an enable, and no descriptor write that the next enable
would empty the ring for (log 32). -/
def writeQueue (s : State) (fn did q w0 w1 : Nat) : State :=
  let x := s.queue did q
  let clear := fun (s : State) => if bits w1 39 32 = 0 then s else s.modQueue did q fun x => { x with errc := 0 }
  if x.st = .off then
    let f := queueFields w0 w1
    let en := w0.testBit 63 && queueFields w0 w1 == (x.kind, x.qpri, x.base, x.order, x.quota)
    let s1 := clear (s.modQueue did q fun x =>
      { x with kind := f.1, qpri := f.2.1, base := f.2.2.1, order := f.2.2.2.1, quota := f.2.2.2.2, tail := bits w1 15 0,
               fresh := x.fresh || !en })
    setStatus (if w0.testBit 63 then enableQueue s1 did q else s1) fn 0
  else
    let r := if bits w1 15 0 = x.tail then (s, true) else setTail s did q (bits w1 15 0)
    if !r.2 then setStatus r.1 fn 3
    else setStatus (if w0.testBit 63 then clear r.1 else disableQueue (clear r.1) did q) fn 0

/-- A written descriptor changes what the queue's state does not let it change: outside OFF another field than TAIL, ERRC and EN, or the
TAIL of a device queue (02 R27). -/
def queueFixed (x : Queue) (w0 w1 : Nat) : Bool :=
  x.st != .off && (queueFields w0 w1 != (x.kind, x.qpri, x.base, x.order, x.quota) || x.kind && bits w1 15 0 != x.tail)

/-- QUEUE_DESCRIPTOR_WRITE (02 R27). -/
def execQueueDescriptorWrite (s : State) : Out :=
  match s.ctl.ev with
  | some (.queueDescriptorWrite fn did q w0 w1) =>
    .next (queueCommand s fn did q
      [(queueFixed (s.queue did q) w0.toNat w1.toNat, 1), (queueBad w0.toNat w1.toNat, 3)]
      fun s => writeQueue s fn did q w0.toNat w1.toNat)
  | _ => .next s

/-- The domain and queue of a doorbell's offset in the memory BAR of a VF (02 R28). -/
def doorbellTarget (s : State) (fn offset : Nat) : Option (Nat × Nat) :=
  let n := (offset - 0x10000) / 0x40
  if fn = 0 ∨ 64 < fn ∨ offset < 0x10000 ∨ offset % 0x40 ≠ 0 ∨ 4096 ≤ n then none
  else ((domsOf s (fn - 1)).find? fun e => e.2.slot == n / 16).map fun e => (e.1, n % 16)

/-- DOORBELL (02 R28): a new TAIL of a host queue. -/
def execDoorbell (s : State) : Out :=
  match s.ctl.ev with
  | some (.doorbell fn offset value) => .next (whenUp s fun s =>
      match doorbellTarget s fn offset with
      | none => s
      | some (did, q) => if (s.queue did q).kind then s else (setTail s did q value).1)
  | _ => .next s

/-- SKIP (02 R29): the record in ERROR is discarded. -/
def execSkip (s : State) : Out :=
  match s.ctl.ev with
  | some (.skip fn did q) =>
    .next (queueCommand s fn did q [((s.queue did q).st != .error, 1)] fun s =>
      setStatus (stirQueue (s.modQueue did q fun x =>
        { x with head := (x.head + 1) % 2 ^ 16, errc := 0, record := none, waitGen := none, st := .idle,
                 outst := if x.kind then x.outst - 1 else x.outst }) did q) fn 0)
  | _ => .next s

/-! ## Reads of the distributor -/

/-- The number by which the pending table knows a queue that waits for a page. -/
def queueWaiter (did q : Nat) : Nat := 2 ^ 60 + did * 16 + q

/-- Something of a number waits for the host to repair a translation. -/
def pageWaits (s : State) (n : Nat) : Bool :=
  s.mem.dies.any fun e => (e.2.pend ++ e.2.pendWait).any fun p => p.waiters.contains n

/-- How a read of the distributor ends: with bytes; it must be tried again; it waits for a page; or it fails. -/
inductive DRead where
  | ok (bs : Bytes) (t : Ts) (s : State)
  | wait (s : State)
  | page (s : State)
  | bad (s : State)

/-- A read of the distributor for a domain, within one 256 B line: a system-scope acquire (02 R28). A domain-check failure is logged with
CORE 0xFF (01 R19). A read that meets a poisoned sector is bad too, so that its queue takes READ_FAULT: 02 R30 and 13 R207 give it no
outcome (DESIGN CHOICE, log 67). -/
def distRead (s : State) (did va n waiter : Nat) : DRead :=
  match translateDie0 s did va 9 with
  | .busy s1 => .wait (s.keepAsked s1)
  | .failed r l s1 => .page (pendFail s1 0 did (va / 2 ^ 14) r 9 l 255 waiter)
  | .alien o s1 => .bad (logDomain s1 did 4 o 255)
  | .ok e pa s1 =>
    match unitAccess s1 e pa va n s1.sys.distTs none with
    | .wait s2 => .wait (s.keepAsked s2)
    | .denied c _ info o s2 => .bad (if c = cDOMAIN then logDomain s2 did info o 255 else s2)
    | .done bs t s2 => .ok bs t (s2.setSys { s2.sys with distTs := s2.sys.distTs.maxAt t (newEpoch s2) })

/-- A longer read, line by line. -/
def distReadRun (s : State) (did waiter : Nat) : Nat → Nat → Nat → DRead
  | 0, _, _ => .ok [] s.sys.distTs s
  | fuel + 1, va, n =>
    if n = 0 then .ok [] s.sys.distTs s
    else
      let k := min n (256 - va % 256)
      match distRead s did va k waiter with
      | .ok bs _ s1 =>
        match distReadRun s1 did waiter fuel (va + k) (n - k) with
        | .ok r t s2 => .ok (bs ++ r) t s2
        | x => x
      | x => x

/-! ## The checks of a record (02 R30, R32, 03 R43, R47) -/

/-- The fields of a record. -/
def launchFields (w : Nat) : Launch :=
  { cls := bits w 11 8, prio := bits w 15 12, mx := w.testBit 16, wt := w.testBit 17, dn := w.testBit 18, nteams := bits w 63 32,
    entry := bits w 120 64, mentry := bits w 184 128, threads := bits w 202 192, clus := bits w 206 203, vregs := bits w 214 207,
    phasers := bits w 219 215, srows := bits w 232 220, arows := bits w 245 233, roles := bits w 287 256, trows := bits w 300 288,
    const := bits w 376 320, csize := bits w 396 384, doneph := bits w 504 448, waitph := bits w 568 512, waitgen := bits w 572 569,
    fmts := (upTo 8).map fun i => BitVec.ofNat 64 (bits w (703 + 64 * i) (640 + 64 * i)), coresel := bits w 1343 1152,
    jobtag := bits w 1407 1344 }

/-- The kernel's core set, ascending (02 R32). -/
def kernelCores (s : State) (part : Nat) (r : Launch) : List Nat :=
  (s.part part).cores.filter fun c => r.coresel == 0 || r.coresel.testBit c

/-- BAD_RECORD: a reserved field, a version, or a field outside its range. -/
def recordBad (s : State) (part w : Nat) : Bool :=
  let r := launchFields w
  bits w 7 0 != 1 ||
  (([(31, 19), (127, 121), (191, 185), (255, 246), (319, 301), (383, 377), (447, 397), (511, 505), (639, 573), (2047, 1408)] :
    List (Nat × Nat)).any fun x => bits w x.1 x.2 != 0) ||
  decide (r.clus < 1 ∨ 12 < r.clus) || r.nteams == 0 || r.nteams % r.clus != 0 || decide (r.threads < 1 ∨ 1024 < r.threads) ||
  decide (r.vregs < 1 ∨ 188 < r.vregs ∨ 16 < r.phasers ∨ 4096 < r.srows ∨ 6144 < r.arows ∨ 6144 < r.trows ∨ 4096 < r.csize) ||
  (!r.mx && r.mentry != 0) || decide (2 ^ r.groups ≤ r.roles) || r.const % 16 != 0 || r.doneph % 16 != 0 || r.waitph % 16 != 0 ||
  r.fmts.any slotInvalid || (upTo 192).any fun c => r.coresel.testBit c && !(s.part part).cores.contains c

/-- A slot names only floor formats (03 R43). -/
def slotFloor (w : Bits64) : Bool :=
  let x := slotOf w
  w == 0#64 || ([0, 1, 2, 3, 4, 5, 8, 9, 10, 11].contains x.efmt && (x.blk == 0 || x.blk == 2))

/-- The kernel lies within the resource floor (03 R43). -/
def withinFloor (r : Launch) : Bool :=
  decide (r.vregs ≤ 64 ∧ r.srows ≤ 384 ∧ r.threads ≤ 512 ∧ r.clus ≤ 8 ∧ r.phasers ≤ 16) && r.fmts.all slotFloor

/-- An address lies in an execute-only code page of a domain. -/
def codePage (s : State) (did va : Nat) : Bool :=
  match walk s 0 did va with
  | (.leaf e, _) => pteEx e.pte
  | _ => false

/-- Register rows that a team takes (03 R47). -/
def Launch.teamRows (r : Launch) : Nat := r.groups * sliceRows r.vregs + viewRows r.trows + viewRows r.arows

/-- Scratchpad rows that a team takes (03 R47). -/
def Launch.padRows (r : Launch) : Nat := 16 * ((r.srows + (if r.phasers = 0 then 0 else 1) + 15) / 16)

/-- A core can hold one team under its empty entry. -/
def canHold (s : State) (part core : Nat) (r : Launch) : Bool :=
  match partEntry (s.coreAt core) part with
  | none => false
  | some w =>
    let e := entryOf (BitVec.ofNat 64 w.1, BitVec.ofNat 64 w.2)
    decide (1 ≤ e.teams ∧ r.groups ≤ e.gcnt ∧ r.teamRows ≤ e.rowcnt ∧ r.padRows ≤ 128 * e.sbcnt)

/-- Enough units of a die for a cluster, among cores that fit: single cores, or pairs where the cluster is even (03 R49). -/
def dieUnits (cores : List Nat) (clus die : Nat) : List (List Nat) :=
  let mine := cores.filter (· / 48 == die)
  if clus % 2 = 1 then mine.map fun c => [c]
  else (mine.filter fun c => c % 2 == 0 && mine.contains (c + 1)).map fun c => [c, c + 1]

/-- NO_FIT: no core, or no die for a cluster, can ever hold one. -/
def noFit (s : State) (part : Nat) (r : Launch) : Bool :=
  let cs := (kernelCores s part r).filter fun c => canHold s part c r
  if r.clus = 1 then cs.isEmpty
  else !(upTo 4).any fun d => decide (r.clus ≤ (dieUnits cs r.clus d).flatten.length)

/-- The first check that a record fails, after its read. -/
def recordCheck (s : State) (did w : Nat) : Option Nat :=
  let r := launchFields w
  let part := (s.dom did).part
  if recordBad s part w then some 1
  else if r.cls ≠ 0 ∧ r.cls ≠ 4 then some 2
  else if r.cls = 0 ∧ !withinFloor r then some 3
  else if r.entry % 8 ≠ 0 ∨ r.mentry % 8 ≠ 0 ∨ !codePage s did r.entry ∨ (r.mx ∧ !codePage s did r.mentry) then some 5
  else if noFit s part r then some 4
  else none

/-! ## Reading the record at HEAD (02 R29, R33) -/

/-- The queue is in ERROR with a code. -/
def queueError (s : State) (did q code : Nat) : State :=
  s.modQueue did q fun x => { x with st := .error, errc := code, record := none, waitGen := none }

/-- Every team of the record before was placed. -/
def lastPlaced (s : State) (x : Queue) : Bool :=
  match x.lastGrid with
  | none => true
  | some g => match s.grid g with
    | some g => decide (g.launch.nteams ≤ g.next) || g.done
    | none => true

/-- A WAITING queue whose record waits on nothing more is READY. -/
def readyQueue (s : State) (did q : Nat) : State :=
  let x := s.queue did q
  match x.record with
  | none => s
  | some r =>
    let met := !r.wt || (match x.waitGen with | some (_, m) => m != 0 | none => false)
    if x.st = .waiting ∧ met ∧ lastPlaced s x then s.modQueue did q fun x => { x with st := .ready } else s

/-- A record that waits on a phaser begins to watch it: its generation now is the first that is tested. A page that 11 R171 refuses for
phasers, and a poisoned sector, give READ_FAULT: 02 R30 names it only for a failed domain check or translation (DESIGN CHOICE, log 67). -/
def watchPhaser (s : State) (did q : Nat) (r : Launch) : State :=
  match translateDie0 s did r.waitph 9 with
  | .busy s1 => s.keepAsked s1
  | .failed rs l s1 => pendFail s1 0 did (r.waitph / 2 ^ 14) rs 9 l 255 (queueWaiter did q)
  | .alien o s1 => queueError (logDomain s1 did 4 o 255) did q 7
  | .ok e pa s1 =>
    if !phaserPage e then queueError s1 did q 7
    else match unitAccess s1 e pa r.waitph 16 s1.sys.distTs none with
      | .wait s2 => s.keepAsked s2
      | .denied c _ info o s2 => queueError (if c = cDOMAIN then logDomain s2 did info o 255 else s2) did q 7
      | .done bs _ s2 =>
        let p := leVal bs
        s2.modQueue did q fun x =>
          { x with record := some r, waitGen := some (pa, if phGen p = r.waitgen then 1 + tsCode (phTs p) else 0) }

/-- The distributor reads and checks the record at HEAD. -/
def readRecord (s : State) (did q : Nat) : State :=
  let x := s.queue did q
  if (x.st ≠ .idle ∧ x.st ≠ .waiting) ∨ x.head = x.tail ∨ x.record.isSome ∨ pageWaits s (queueWaiter did q) then s
  else if (s.dom did).st ≠ .live then s.modQueue did q fun x => { x with st := .held }
  else
    let s0 := s.modQueue did q fun x => { x with st := .waiting }
    match distRead s0 did (x.base + 256 * (x.head % 2 ^ (x.order + 4))) 256 (queueWaiter did q) with
    | .wait s1 => s1
    | .page s1 => s1
    | .bad s1 => queueError s1 did q 7
    | .ok bs _ s1 =>
      match recordCheck s1 did (leVal bs) with
      | some code => queueError s1 did q code
      | none =>
        let r := launchFields (leVal bs)
        let s2 := s1.modQueue did q fun x => { x with hash := leVal (sha384 bs) }
        readyQueue (if r.wt then watchPhaser s2 did q r else s2.modQueue did q fun x => { x with record := some r }) did q

/-- QUEUE_RECORD_READ (02 R29). -/
def execQueueRecordRead (s : State) : Out :=
  match s.ctl.ev with
  | some (.queueRecordRead did q) => .next (whenUp s fun s => if did < 256 ∧ q < 16 then readRecord s did q else s)
  | _ => .next s

/-- WAITPH_TURN_NOTIFY (02 R33). -/
def execWaitphTurnNotify (s : State) : Out :=
  match s.ctl.ev with
  | some (.waitphTurnNotify did q) => .next (whenUp s fun s => readyQueue s did q)
  | _ => .next s

/-! ## Dispatch (02 R31) -/

/-- The queues of a domain that may be dispatched from. -/
def readyQueues (s : State) (did : Nat) : List Nat :=
  (upTo 16).filter fun q => (s.queue did q).st == .ready && !pageWaits s (queueWaiter did q)

/-- The queue of a domain whose turn it is: the highest QPRI, equal ones in turn from the one after that served last at that priority. -/
def turnQueue (s : State) (did : Nat) : Option Nat :=
  let qs := readyQueues s did
  let top := (qs.map fun q => (s.queue did q).qpri).foldl max 0
  leastBy (fun q => (q + 15 - (tget (s.dom did).rrQueue top).getD 15) % 16) (qs.filter fun q => (s.queue did q).qpri == top)

/-- The domain of a partition whose turn it is. -/
def turnDomain (s : State) (part : Nat) : Option Nat :=
  leastBy (fun d => (d + 256 - ((s.part part).rrDom + 1) % 256) % 256)
    (((domsOf s part).filter fun e => e.2.st == .live && !(readyQueues s e.1).isEmpty).map (·.1))

/-- A record is dispatched: the distributor keeps it with its constants, and HEAD advances. -/
def dispatchFrom (s : State) (part did q : Nat) : State :=
  let x := s.queue did q
  match x.record with
  | none => s
  | some r =>
    match distReadRun s did (queueWaiter did q) (r.csize / 16 + 2) r.const (16 * r.csize) with
    | .wait s1 => s1
    | .page s1 => s1
    | .bad s1 => queueError s1 did q 7
    | .ok bs _ s1 =>
      let (id, s2) := s1.fresh
      let ep := newEpoch s2
      let ph : Ts := match x.waitGen with
        | some (_, m) => ⟨(m - 1) % 2 ^ 40, (m - 1).testBit 40⟩
        | none => ⟨0, ep⟩
      let g : Grid :=
        { did := did, part := part, queue := q, index := x.head, order := id, launch := r, consts := bs,
          gts := if r.wt then s2.sys.distTs.maxAt ph ep else s2.sys.distTs, next := 0, ptr := 0, wave := true, waiting := none,
          bar := false, retired := 0, stage := 0, status := 0, start := (s2.dom did).vclk, links := [], hash := x.hash, used := [], vend := 0,
          rel := ⟨0, ep⟩, done := false }
      let s3 := s2.setWork { s2.work with grids := tset s2.work.grids id g }
      let s4 := s3.modQueue did q fun x =>
        { x with head := (x.head + 1) % 2 ^ 16, record := none, waitGen := none, lastGrid := some id, st := .idle }
      noteLinks (((stirQueue s4 did q).modDom did fun d => { d with rrQueue := tset d.rrQueue x.qpri q }).modPart part fun p => { p with rrDom := did })

/-- RECORD_DISPATCH (02 R31). -/
def execRecordDispatch (s : State) : Out :=
  match s.ctl.ev with
  | some (.recordDispatch part) => .next (whenUp s fun s =>
      match turnDomain s part with
      | none => s
      | some did => match turnQueue s did with
        | some q => dispatchFrom s part did q
        | none => s)
  | _ => .next s

end Sys2Proof.Machine
end

