-- ==== Sys2Proof/Machine/Regroup.lean ====
section
/-! DEFINITION. The rendezvous of a team and its repack (04 R61, R62). -/

namespace Sys2Proof.Machine

/-- A live thread at the rendezvous: its number, its group and lane, its successor, and the waits and release obligations of its path. -/
structure Thread where
  tid : Nat
  k : Nat
  lane : Nat
  pc : Nat
  depth : Nat
  waits : List (Nat × Wait)
  fence : List Nat
  deriving DecidableEq, Repr

/-- The groups of a team, without its matrix sequencer. -/
def teamGroups (s : State) (team : Nat) : List (Nat × Group) :=
  s.work.groups.filter fun e => e.2.team == team && !e.2.isSeq

/-- The live threads of a group that stands at the rendezvous. -/
def threadsOf (k : Nat) (g : Group) : List Thread :=
  (lanesOf g.live).filterMap fun l =>
    (g.paths.find? fun p => inMask p.mask l).map fun p => { tid := g.tids.getD l 0, k := k, lane := l, pc := p.pc, depth := p.depth,
                                                                  waits := p.waits, fence := p.fence }

/-- Every group stands at the rendezvous or has left, and nothing is outstanding (04 R61). -/
def rendezvousReady (s : State) (team : Nat) : Bool :=
  let gs := teamGroups s team
  gs.any (·.2.st == .rendezvous) &&
  gs.all fun e =>
    (e.2.st == .rendezvous || e.2.st == .empty || e.2.st == .exited) && e.2.results.isEmpty && e.2.owed.isEmpty &&
    outstanding s e.1 (Path.new 0 0 0xFFFFFFFF#32) == 0 && !(s.fly.posts.any fun p => p.2.grp == e.1) &&
      !s.fly.reqs.any fun q => q.2.grp == e.1 && q.2.res.isSome

/-- The classes of threads by successor, ordered by PC and then depth, each in order of %tid. -/
def classesOf (ts : List Thread) : List (List Thread) :=
  let keys := sortBy (fun a b => decide (a ≤ b)) (ts.map fun t => t.pc * 64 + t.depth).eraseDups
  keys.map fun x => sortBy (fun a b => decide (a.tid ≤ b.tid)) (ts.filter fun t => t.pc * 64 + t.depth == x)

/-- A list cut into pieces of 32. -/
def pieces (fuel : Nat) (l : List Thread) : List (List Thread) :=
  match fuel with
  | 0 => []
  | n + 1 => if l.isEmpty then [] else l.take 32 :: pieces n (l.drop 32)

/-- The groups of a role in RENDEZVOUS, by %gid, and the threads that each receives, by lane: aligned where the classes fit, else
dense (04 R61). -/
def placement (gs : List (Nat × Group)) (roleC : Bool) : List (Nat × List Thread) :=
  let mine := gs.filter fun e => e.2.roleC == roleC && e.2.st == .rendezvous
  let ts := mine.flatMap fun e => threadsOf e.1 e.2
  let cs := classesOf ts
  let aligned := cs.flatMap fun c => pieces (c.length + 1) c
  let dense := pieces (ts.length + 1) cs.flatten
  let packs := if aligned.length ≤ mine.length then aligned else dense
  (upTo mine.length).map fun i => ((mine.getD i (0, default)).1, packs.getD i [])

/-- The whole placement of a team. -/
def teamPlacement (s : State) (team : Nat) : List (Nat × List Thread) :=
  let gs := teamGroups s team
  placement gs false ++ placement gs true

/-- The registrations of a group that becomes EMPTY are dropped, as by PHDROP (04 R61, 11 R175). -/
def dropRegistrations (s : State) (t : Team) (k : Nat) (g : Group) : State :=
  ((upTo 16).foldl (fun s n =>
    let held := bits g.phreg (2 * n + 1) (2 * n)
    let o : PhOp := { sreg := -(held % 2 : Nat), pend := -(held % 2 : Nat), wreg := -(held / 2 : Nat),
                      ts := if held % 2 = 1 then some g.gts else none }
    if held = 0 then s
    else match operateSram s (phaserKey s t n) o with
      | .ok s1 => s1
      | .error _ => s) s).modGroup k fun g => { g with phreg := 0 }

/-- The rendezvous completes: the groups that will receive no thread drop their registrations, and the repack begins. -/
def completeRendezvous (s : State) (team : Nat) : State :=
  match s.team team with
  | none => s
  | some t =>
    if t.repack || !rendezvousReady s team then s
    else
      let gone := (teamPlacement s team).filter fun e => e.2.isEmpty
      let s1 := gone.foldl (fun s e => match s.group e.1 with | some g => dropRegistrations s t e.1 g | none => s) s
      settleAll (s1.modTeam team fun t => { t with repack := true })

/-- RENDEZVOUS_COMPLETE (04 R61). -/
def execRendezvousComplete (s : State) : Out :=
  match s.ctl.ev with
  | some (.rendezvousComplete team) => .next (whenUp s fun s => completeRendezvous s team)
  | _ => .next s

/-- The lane slices of a group's rows as its new threads bring them; a lane that receives no thread keeps what it holds. -/
def moveRows (old s : State) (t : Team) (sl k : Nat) (ts : List Thread) : State :=
  (upTo sl).foldl (fun s j =>
    let at' := fun (x : Nat) => t.rowBase + x % 64 * sl + j
    let here := old.row t.core (at' k)
    let row := lanes32.map fun l => match ts[l]? with
      | some th => (old.row t.core (at' th.k)).getD th.lane 0#32
      | none => here.getD l 0#32
    let bad := (ts.any fun th => (old.rowTag t.core (at' th.k)).poison) ||
      (decide (ts.length < 32) && (old.rowTag t.core (at' k)).poison)
    let s1 := s.setRow t.core (at' k) row
    s1.setCore { s1.core with rowTags := tset s1.core.rowTags (t.core * 6144 + at' k) ⟨(old.rowTag t.core (at' k)).owner, bad⟩ }) s

/-- A value for each lane: that of the lane its thread comes from, or its own where it receives none. -/
def perLane {α : Type} (s : State) (g : Group) (ts : List Thread) (f : Group → Nat → α) : List α :=
  lanes32.map fun l => match ts[l]? with
    | some th => f ((s.group th.k).getD g) th.lane
    | none => f g l

/-- A thread's lane joins the path of its PC, call depth and waits: a wait begun before the REGROUP blocks it still (04 R59, 11 R177). -/
def packPath (ps : List Path) (p : Path) : List Path :=
  match ps with
  | [] => [p]
  | q :: r =>
    if q.pc = p.pc ∧ q.depth = p.depth ∧ q.waits = p.waits then
      { q with mask := q.mask ||| p.mask, fence := (q.fence ++ p.fence).eraseDups } :: r
    else q :: packPath r p

/-- A group as its new threads make it (04 R62). -/
def packedGroup (s : State) (g : Group) (ts : List Thread) : Group :=
  let from' := fun (th : Thread) => (s.group th.k).getD g
  let n := ts.length
  let live := maskOf fun l => decide (l < n)
  let pred := fun (i : Nat) => maskOf fun l => match ts[l]? with
    | some th => inMask ((from' th).preds.getD i 0#32) th.lane
    | none => inMask (g.preds.getD i 0#32) l
  let ep := newEpoch s
  let gts := match ts with
    | [] => g.gts
    | th :: r => r.foldl (fun t x => let u := (from' x).gts; if u.ep = t.ep then ⟨max t.v u.v, t.ep⟩ else t.maxAt u ep) (from' th).gts
  let ps := (ts.foldl (fun (a : List Path × Nat) th => (packPath a.1 { Path.new th.pc th.depth (maskOf (· == a.2)) with waits := th.waits, fence := th.fence }, a.2 + 1)) ([], 0)).1
  { g with live := live, tids := perLane s g ts fun h l => h.tids.getD l 0,
           preds := (upTo 7).map pred, flags := perLane s g ts fun h l => h.flags.getD l 0#8,
           depth := perLane s g ts fun h l => h.depth.getD l 0, gts := gts, paths := ps, justRun := 0,
           yielded := false, passOver := false, st := if ts.isEmpty then .empty else restState ps }

/-- The repack: threads move with their lanes of their groups' slices, predicates, flags, depths and successors; each group takes its
s-registers from the group of its first thread (04 R62). -/
def repackTeam (s : State) (team : Nat) (t : Team) : State :=
  let sl := sliceRows (((s.launchOf t).map (·.vregs)).getD 0)
  let place := teamPlacement s team
  let one := fun (x : State) (e : Nat × List Thread) =>
    match s.group e.1 with
    | none => x
    | some g =>
      let x1 := moveRows s x t sl e.1 e.2
      let x2 := match e.2 with
        | [] => x1
        | th :: _ => (upTo 64).foldl (fun x n => x.setSreg e.1 n (s.sreg th.k n)) x1
      x2.setGroup e.1 (packedGroup s g e.2)
  let s1 := (place.foldl one s).modTeam team fun t => { t with repack := false }
  place.foldl (fun s e => takeAtRest (seeGroup s e.1) e.1) s1

/-- REPACK_DONE (04 R61, R62). -/
def execRepackDone (s : State) : Out :=
  match s.ctl.ev with
  | some (.repackDone team) => .next (whenUp s fun s =>
      match s.team team with
      | some t => if t.repack then repackTeam s team t else s
      | none => s)
  | _ => .next s

end Sys2Proof.Machine
end

