-- ==== Sys2Proof/Machine/Place.lean ====
section
/-! DEFINITION. Teams on cores (03 R47 to R51, 01 R21, 04 R52, R65): the room a team needs, the eviction of frozen teams (05 R80), the wave
and refill rules, the launch hold, retirement. -/

namespace Sys2Proof.Machine

/-! ## Room (03 R47) -/

/-- What a placement grants on a core: a team slot, group slots, the first register row and the first scratchpad row. -/
structure Room where
  slot : Nat
  slots : List Nat
  rowBase : Nat
  sramBase : Nat
  deriving DecidableEq, Repr

/-- The teams that stand on a core. -/
def teamsOn (s : State) (core : Nat) : List (Nat × Team) := s.work.teams.filter fun e => e.2.core == core && !e.2.retired

/-- The room of a frozen team counts as free for its partition once its engine commands have finished (05 R80). -/
def claimable (s : State) (part k : Nat) (t : Team) : Bool :=
  t.part == part && t.frozen && !t.zeroing && t.image.isSome && !s.fly.cmds.any fun e => e.2.team == k

/-- A part of the team has been evicted. -/
def Team.evicted (t : Team) : Bool := !t.awayRows.isEmpty || !t.awayPads.isEmpty || !t.awayFiles.isEmpty

/-- The team still stands in its team slot. -/
def Team.seated (t : Team) : Bool := !t.awayFiles.contains 32

/-- The group slots that a team still holds. -/
def Team.heldSlots (t : Team) : List Nat :=
  ((upTo t.slots.length).filter fun i => !t.awayFiles.contains i).map fun i => t.slots.getD i 0

/-- The lowest address of a range, in granules, at which a run of n fits among used ones. -/
def findBase (lo hi gran n : Nat) (used : List (Nat × Nat)) (ok : Nat → Bool) : Option Nat :=
  if n = 0 then some lo
  else ((upTo ((hi - lo) / gran + 1)).map fun i => lo + i * gran).find? fun b =>
    decide (b + n ≤ hi) && used.all (fun u => !runsMeet b n u.1 u.2) && ok b

/-- The room that a team would take on a core, where it fits; a team that is placed again does not stand in its own way. -/
def fitRoom (s : State) (core part : Nat) (r : Launch) (me : Nat) : Option Room :=
  match partEntry (s.coreAt core) part with
  | none => none
  | some w =>
    let e := entryOf (BitVec.ofNat 64 w.1, BitVec.ofNat 64 w.2)
    let hard := ((teamsOn s core).filter fun x => x.1 != me && !claimable s part x.1 x.2).map (·.2)
    let seated := hard.filter (·.seated)
    let slots := (((upTo e.gcnt).map (e.gbase + ·)).filter fun g => !hard.any fun t => t.heldSlots.contains g).take r.groups
    let rows := hard.flatMap fun t => heldRuns t.rowBase t.rowCnt t.awayRows
    let pads := hard.flatMap fun t => heldRuns t.sramBase t.sramCnt t.awayPads
    let scratch := fun (b : Nat) => (rowsOf (b * 256) (r.padRows * 256)).all fun j => roleOf (s.coreAt core) (j / 128) == .scratch
    match (upTo 16).find? fun n => !seated.any fun t => t.slot == n,
      findBase e.rowbase (e.rowbase + e.rowcnt) 8 r.teamRows rows fun _ => true,
      findBase (128 * e.sbbase) (128 * (e.sbbase + e.sbcnt)) 16 r.padRows pads scratch with
    | some slot, some rb, some sb =>
      if decide ((seated.filter (·.part == part)).length < e.teams) && slots.length == r.groups then
        some { slot := slot, slots := slots, rowBase := rb, sramBase := sb }
      else none
    | _, _, _ => none

/-! ## Eviction (05 R76, R80) -/

/-- Updates on their way to phasers of SRAM follow rows that move. -/
def moveUpds (s : State) (f : Nat → Nat) : State :=
  s.setFly { s.fly with upds := s.fly.upds.map fun e => (e.1, if e.2.dev then e.2 else { e.2 with addr := f e.2.addr }) }

/-- The number under which the scratchpad of an evicted team stands: an evicted row stands at no place of SRAM. -/
def awayKey (k : Nat) : Nat := 2 ^ 50 + k * 2 ^ 20

/-- The words of a scalar file as memory holds them. -/
def fileBytes (s : State) (g : Nat) : Bytes := (upTo 64).flatMap fun n => leOf 4 (s.sreg g n).toNat

/-- What a claim takes of a frozen team: register rows, scratchpad rows, scalar files. -/
structure Claimed where
  rows : List Nat
  pads : List Nat
  files : List Nat
  deriving DecidableEq, Repr

/-- Nothing of the team is claimed. -/
def Claimed.none (c : Claimed) : Bool := c.rows.isEmpty && c.pads.isEmpty && c.files.isEmpty

/-- The spill of what a claim takes: offsets into the image, with the bytes. -/
def spillWrites (s : State) (k : Nat) (t : Team) (c : Claimed) : List (Nat × Bytes) :=
  let r := (s.launchOf t).getD oneLaunch
  let file := fun (g : Nat) => if g = 32 then r.groups else g
  c.rows.map (fun j => (imageOff s t 0 + 128 * j, (s.row t.core (t.rowBase + j)).flatMap fun w => leOf 4 w.toNat)) ++
  (c.files.filter fun g => g != 32 || r.mx).map (fun g => (imageOff s t 1 + 256 * file g, fileBytes s (k * 64 + g))) ++
  c.pads.map (fun j => (imageOff s t 2 + 256 * j, padBytes s t (256 * j) 256)) ++
  c.pads.map fun j => (imageOff s t 3 + j, [presenceByte (s.srow t j)])

/-- The claimed resources of a frozen team are spilt into its image; where the image cannot be written nothing is evicted. -/
def evict (s : State) (k : Nat) (t : Team) (c : Claimed) : State × Bool :=
  match t.image with
  | none => (s, false)
  | some im =>
    let put (a : State × Bool) (x : Nat × Bytes) : State × Bool :=
      if a.2 then spillRun a.1 t.core t.did k (im.addr + x.1) (x.2.length / 128 + 2) x.2 else a
    let w := (spillWrites s k t c).foldl put (s, true)
    if !w.2 then (s.keepAsked w.1, false)
    else
      let im1 : Image :=
        { im with rows := im.rows ++ c.rows.map (fun j => (j, s.row t.core (t.rowBase + j))),
                  bad := im.bad ++ c.rows.filter (fun j => (s.rowTag t.core (t.rowBase + j)).poison),
                  sram := c.pads.foldl (fun m j => memPut m (256 * j) (padBytes s t (256 * j) 256)) im.sram,
                  tags := im.tags ++ c.pads.map (fun j => (j, s.srow t j)),
                  evRows := im.evRows ++ c.rows, evSram := im.evSram ++ c.pads, evSregs := im.evSregs ++ c.files }
      let s1 := w.1.modTeam k fun t => { t with image := some im1 }
      let s2 := moveUpds s1 fun a =>
        if padKey t 0 ≤ a ∧ a < padKey t (256 * t.sramCnt) ∧ c.pads.contains ((a - padKey t 0) / 256) then a - padKey t 0 + awayKey k else a
      let s3 := ((t.files true).filter fun e => c.files.contains e.1).foldl (fun s e => copyFile s (k * 64 + e.1) (slotFile t.core e.2)) s2
      (s3.mapGroups fun _ g => if g.team = k ∧ g.st = .frozen then { g with st := .evicted } else g, true)

/-- What a room takes of a frozen team. -/
def claimOf (t : Team) (r : Launch) (room : Room) : Claimed :=
  let within := fun (a lo n : Nat) => decide (lo ≤ a ∧ a < lo + n)
  { rows := (upTo t.rowCnt).filter fun j => within (t.rowBase + j) room.rowBase r.teamRows && !t.awayRows.contains j,
    pads := (upTo t.sramCnt).filter fun j => within (t.sramBase + j) room.sramBase r.padRows && !t.awayPads.contains j,
    files := ((upTo t.slots.length).filter fun i => room.slots.contains (t.slots.getD i 0) && !t.awayFiles.contains i) ++
      if room.slot = t.slot ∧ !t.awayFiles.contains 32 then [32] else [] }

/-- A claim evicts what it takes of the frozen teams of its partition: true where all of it could be spilt. -/
def claim (s : State) (core part me : Nat) (r : Launch) (room : Room) : State × Bool :=
  let soft := (teamsOn s core).filter fun x => x.1 != me && claimable s part x.1 x.2
  soft.foldl (fun a x =>
    let c := claimOf x.2 r room
    if !a.2 || c.none then a else evict a.1 x.1 x.2 c) (s, true)

/-! ## Granting (01 R21, 04 R52) -/

/-- A granted row, granule or scalar file belongs to another domain, so that it must be zeroed first. -/
def needsZero (s : State) (t : Team) : Bool :=
  let other := fun (o : Option Nat) => match o with | some d => d != t.did | none => false
  ((upTo t.rowCnt).any fun j => other (s.rowTag t.core (t.rowBase + j)).owner) ||
  ((upTo t.sramCnt).any fun j => other (s.srow t j).owner) ||
  (t.files (((s.launchOf t).map (·.mx)).getD false)).any fun e => other (tget s.core.fileTags (t.core * 80 + e.2))

/-- The rows and scalar files granted to a team carry its domain: one of another domain is zeroed, one of its own is left as it is. -/
def takeOver (s : State) (k : Nat) (t : Team) : State :=
  let row (s : State) (j : Nat) : State :=
    let i := t.core * 6144 + t.rowBase + j
    if (s.rowTag t.core (t.rowBase + j)).owner = some t.did then s
    else s.setCore { s.core with rows := tdel s.core.rows i, rowTags := tset s.core.rowTags i ⟨some t.did, false⟩ }
  let pad (s : State) (j : Nat) : State :=
    if (s.srow t j).owner = some t.did then s
    else (s.setCore { s.core with sram := memPut s.core.sram (padKey t (256 * j)) (List.replicate 256 0#8) }).modSrow t j fun _ =>
      ⟨0, false, some t.did, false⟩
  let file (s : State) (e : Nat × Nat) : State :=
    let f := t.core * 80 + e.2
    let s1 := if tget s.core.fileTags f = some t.did then copyFile s (slotFile t.core e.2) (k * 64 + e.1)
      else s.setCore { s.core with sregs := s.core.sregs.filter fun x => x.1 / 64 != k * 64 + e.1 }
    s1.setCore { s1.core with sregs := s1.core.sregs.filter (fun x => x.1 / 64 != slotFile t.core e.2),
                              fileTags := tset s1.core.fileTags f t.did }
  (t.files (((s.launchOf t).map (·.mx)).getD false)).foldl file ((upTo t.sramCnt).foldl pad ((upTo t.rowCnt).foldl row s))

/-- The team phasers take their reset values (11 R173). -/
def freshPhasers (s : State) (t : Team) : State :=
  (upTo (teamPhasers s t)).foldl (fun s n => setSramPhaser s (phaserKey s t n) (phFresh s)) s

/-- The launch hold is released: the team's groups are READY at ENTRY and its sequencer at MENTRY, their s-registers 0, with the grid's
launch timestamp raised to GFLOOR (04 R52, R64). -/
def releaseHold (s : State) (k : Nat) : State :=
  match s.team k with
  | none => s
  | some t =>
    match s.grid t.grid with
    | none => s
    | some g =>
      let ts := g.gts.maxAt (s.dom t.did).cur.gfloor (newEpoch s)
      let s0 := s.setCore { s.core with sregs := s.core.sregs.filter fun e => e.1 / 4096 != k }
      let s1 := (freshPhasers s0 t).modTeam k fun t => { t with held := false, zeroing := false }
      s1.mapGroups fun _ x =>
        if x.team = k ∧ x.st = .held then
          { x with st := .ready, gts := ts, drift := s.sys.clk, level := x.base, wait := 0,
                   paths := [Path.new (if x.isSeq then g.launch.mentry else g.launch.entry) 0 x.live] }
        else x

/-- The groups of a new team, HELD. -/
def newGroups (k : Nat) (g : Grid) (slots : List Nat) : List (Nat × Group) :=
  let r := g.launch
  let one := fun (i : Nat) =>
    let live := maskOf fun l => decide (32 * i + l < r.threads)
    (k * 64 + i, { Group.start k i (slots.getD i 0) live g.gts r.prio with roleC := r.roles.testBit i })
  let seq := { Group.start k 32 0 1#32 g.gts r.prio with tids := 0x400 :: List.replicate 31 0 }
  (upTo r.groups).map one ++ if r.mx then [(k * 64 + 32, seq)] else []

/-- A team of a grid is placed in a room: held while a resource of it is zeroed, else started. -/
def placeTeam (s : State) (gid : Nat) (g : Grid) (id core : Nat) (room : Room) : State × Bool :=
  let r := g.launch
  let (k, s0) := s.fresh
  let c := claim s0 core g.part k r room
  if !c.2 then (c.1, false)
  else
    let t : Team :=
      { grid := gid, id := id, rank := id % r.clus, cluster := id / r.clus, core := core, slot := room.slot, did := g.did, part := g.part,
        rowBase := room.rowBase, rowCnt := r.teamRows, sramBase := room.sramBase, sramCnt := r.padRows, slots := room.slots,
        held := true, zeroing := true, freezing := false, frozen := false, thawing := false, resumed := 0, handle := 0, finished := [],
        retired := false, image := none, drops := none, frames := [], repack := false }
    let s1 := c.1.setWork { c.1.work with teams := tset c.1.work.teams k t,
                                          groups := (newGroups k g room.slots).foldl (fun l e => tset l e.1 e.2) c.1.work.groups }
    (if needsZero s1 t then s1 else releaseHold (takeOver s1 k t) k, true)

/-- ZEROING_COMPLETE (01 R21): the rows are zeroed and carry the new owner, and the hold is released. A team that was frozen while held
stays frozen, its frames in place. -/
def execZeroingComplete (s : State) : Out :=
  match s.ctl.ev with
  | some (.zeroingComplete k) => .next (whenUp s fun s =>
      match s.team k with
      | some t =>
        if !t.zeroing ∨ t.retired then s
        else
          let s1 := takeOver s k t
          if t.frozen then
            let s2 := (freshPhasers s1 t).modTeam k fun t => { t with held := false, zeroing := false }
            (membersOf s2 k).foldl (fun s e => if e.2.isSeq then s else writeFrame s e.2 e.2.frame) s2
          else releaseHold s1 k
      | none => s)
  | _ => .next s

/-! ## The wave and refill rules (03 R48 to R51) -/

/-- The cores on which a grid may place now: those of its kernel's set that no older grid bars (03 R50). -/
def openCores (s : State) (gid : Nat) (g : Grid) : List Nat :=
  let bars := s.work.grids.filter fun e => e.1 != gid && e.2.part == g.part && e.2.bar && !e.2.done && decide (e.2.order < g.order)
  (kernelCores s g.part g.launch).filter fun c => !bars.any fun e => (kernelCores s e.2.part e.2.launch).contains c

/-- A list turned so that it begins at index i. -/
def turned (l : List Nat) (i : Nat) : List Nat := l.drop i ++ l.take i

/-- The cores that the next team or cluster of a grid takes, in rank order (03 R48, R49). A core from which an older grid bars this one
counts as one that does not fit, so that a bar may end the wave: 03 R50 does not say whether it does (DESIGN CHOICE, log 68). -/
def nextCores (s : State) (gid : Nat) (g : Grid) : Option (List Nat) :=
  let all := kernelCores s g.part g.launch
  let fit := (openCores s gid g).filter fun c => (fitRoom s c g.part g.launch (2 ^ 61)).isSome
  let c := g.launch.clus
  if c = 1 then
    ((if g.wave then turned all g.ptr else all).find? fun x => fit.contains x).map fun x => [x]
  else
    let p := all.getD g.ptr 0
    let dies := if g.wave then turned (upTo 4) (p / 48) else upTo 4
    let listed := fun (d : Nat) =>
      let us := dieUnits fit c d
      if g.wave ∧ d = p / 48 then (us.filter fun u => decide (p ≤ u.headD 0)) ++ us.filter fun u => decide (u.headD 0 < p) else us
    (dies.find? fun d => decide (c ≤ (listed d).flatten.length)).map fun d => (listed d).flatten.take c

/-- The next team or cluster of a grid may be placed now (03 R48, R49). -/
def gridPlaceable (s : State) (gid : Nat) (g : Grid) : Bool :=
  !g.done && decide (g.next < g.launch.nteams) && ((s.dom g.did).st == .live || (s.dom g.did).st == .draining) &&
    (nextCores s gid g).isSome

/-- Other grids of the partition that cannot place now begin to wait (03 R50). -/
def startWaits (s : State) (gid part : Nat) : State :=
  s.setWork { s.work with grids := s.work.grids.map fun e =>
    let g := e.2
    if e.1 ≠ gid ∧ g.part = part ∧ !g.done ∧ g.next < g.launch.nteams ∧ g.waiting = none ∧ !gridPlaceable s e.1 g then
      (e.1, { g with waiting := some s.sys.clk })
    else e }

/-- The next team or cluster of a grid is placed on cores; none of it is, where a claim fails. -/
def placeOn (s : State) (gid : Nat) (g : Grid) (cores : List Nat) : State :=
  let all := kernelCores s g.part g.launch
  let r := (upTo cores.length).foldl (fun (a : State × Bool) i =>
    if !a.2 then a
    else
      let c := cores.getD i 0
      match fitRoom a.1 c g.part g.launch (2 ^ 61) with
      | some room => placeTeam a.1 gid g (g.next + i) c room
      | none => (a.1, false)) (s, true)
  if !r.2 then s.keepAsked r.1
  else
    let last := all.idxOf (cores.getLastD 0)
    let s1 := r.1.modGrid gid fun g =>
      { g with next := g.next + cores.length, ptr := if g.wave then (last + 1) % all.length else g.ptr, waiting := none, bar := false }
    startWaits (readyQueue s1 g.did g.queue) gid g.part

/-! ## Thawing teams' room (05 R82) -/

/-- A team has posted receives, overflow entries or an open ring frame, which live in its own core. -/
def bound (s : State) (k : Nat) (t : Team) : Bool :=
  !t.frames.isEmpty || (s.coreAt t.core).recvs.any (·.team == k) || ((tget (s.coreAt t.core).ovf t.part).getD []).any (·.dteam == k)

/-- A team waits to thaw elsewhere than in place. -/
def Team.waitsRoom (t : Team) : Bool := t.thawing && t.frozen && !t.retired && t.evicted

/-- The cores that the thaw of a team takes, with the teams that go there: its own core where it is bound to it; the cluster rule where
its whole cluster waits; else the lowest core that fits it beside the members of its cluster that stand. -/
def thawCores (s : State) (k : Nat) (t : Team) : Option (List (Nat × Nat)) :=
  let r := (s.launchOf t).getD oneLaunch
  let fits := fun (c : Nat) => (fitRoom s c t.part r k).isSome
  let mates := s.work.teams.filter fun e => e.2.grid == t.grid && e.2.cluster == t.cluster
  let still := mates.filter fun e => e.1 != k && !e.2.retired && !e.2.waitsRoom
  let cores := kernelCores s t.part r
  if bound s k t then if fits t.core then some [(k, t.core)] else none
  else if r.clus = 1 ∨ !still.isEmpty ∨ mates.any (fun e => e.2.retired || bound s e.1 e.2) ∨ mates.length < r.clus then
    let beside := fun (c : Nat) => still.all fun e =>
      e.2.core != c && e.2.core / 48 == c / 48 && (r.clus % 2 == 1 || e.2.rank != t.rank ^^^ 1 || e.2.core == c ^^^ 1) &&
      (r.clus % 2 == 1 || c % 2 == t.rank % 2)
    (cores.find? fun c => fits c && (r.clus == 1 || beside c)).map fun c => [(k, c)]
  else
    let ok := cores.filter fun c => mates.all fun e => (fitRoom s c t.part r e.1).isSome
    ((upTo 4).find? fun d => decide (r.clus ≤ (dieUnits ok r.clus d).flatten.length)).map fun d =>
      (sortBy (fun a b => decide (a.2.rank ≤ b.2.rank)) mates).map (·.1) |>.zip ((dieUnits ok r.clus d).flatten.take r.clus)

/-- A frozen team of the partition waits to thaw, may thaw in its domain's state, and fits now: room is offered to it first (03 R50). -/
def thawFirst (s : State) (part : Nat) : Bool :=
  s.work.teams.any fun e =>
    e.2.part == part && e.2.waitsRoom && !(notIn s e.2.did [.live, .draining]) && (thawCores s e.1 e.2).isSome

/-- A placement decision may be made: the cycle of the last retirement has passed, so that every retirement of that cycle is seen
(03 R51). -/
def mayPlace (s : State) : Bool := decide (s.sys.retireAt ≤ s.sys.clk)

/-- The distributor places the next team or cluster of a grid; the wave ends at the first that finds no room (03 R48). -/
def placeNext (s : State) (gid : Nat) : State :=
  match s.grid gid with
  | none => s
  | some g =>
    if !mayPlace s || thawFirst s g.part then s
    else if s.work.grids.any fun e => e.2.part == g.part && decide (e.2.order < g.order) && gridPlaceable s e.1 e.2 then s
    else if !gridPlaceable s gid g then s.modGrid gid fun g => { g with wave := false }
    else match nextCores s gid g with
      | some cs => placeOn s gid g cs
      | none => s

/-- TEAM_PLACE (03 R48). -/
def execTeamPlace (s : State) : Out :=
  match s.ctl.ev with
  | some (.teamPlace gid) => .next (whenUp s fun s => if s.sys.fatal.isSome then s else placeNext s gid)
  | _ => .next s

/-- PLACEMENT_WAIT_EXPIRY (03 R50): a grid that has waited 65,536 cycles bars younger grids from its cores. -/
def execPlacementWaitExpiry (s : State) : Out :=
  match s.ctl.ev with
  | some (.placementWaitExpiry gid) => .next (whenUp s fun s =>
      match s.grid gid with
      | some g => match g.waiting with
        | some t => if t + 65536 ≤ s.sys.clk ∧ !g.done ∧ g.next < g.launch.nteams then s.modGrid gid fun g => { g with bar := true } else s
        | none => s
      | none => s)
  | _ => .next s

/-! ## Retirement (04 R65) -/

/-- The team may retire: its groups and sequencer have left, its commands have finished, and no accepted COPYM that names its rank is in
flight; nothing of it is still to act on its own scratchpad, which the retirement frees, or at its core's units (log 31). A store to
memory may still be out. -/
def mayRetire (s : State) (k : Nat) (t : Team) : Bool :=
  let ms := membersOf s k
  let mine := fun (g : Nat) => g / 64 == k
  !t.retired && !t.held && (ms.all fun e => e.2.st == .exited || e.2.st == .empty) && !s.fly.cmds.any (fun e => e.2.team == k) &&
  !(s.fly.cmds.any fun e => e.2.kind == 0xBA && e.2.phase == 4 && e.2.ranks.contains t.rank &&
    match s.team e.2.team with | some u => u.grid == t.grid && u.cluster == t.cluster | none => false) &&
  !(s.fly.scrubs.any fun e => e.2.team == k) &&
  !(s.fly.reqs.any fun e => mine e.2.grp && (e.2.point == pScratch k || e.2.res.isSome)) && !(s.fly.posts.any fun e => mine e.2.grp) &&
  !(s.fly.upds.any fun e => e.2.team == k)

/-- TEAM_RETIRE (04 R65): a group with a store still out stands, EXITED, until its grid is gone, so that the store's timestamp is kept for
the grid's arrival (02 R34). -/
def execTeamRetire (s : State) : Out :=
  match s.ctl.ev with
  | some (.teamRetire k) => .next (whenUp s fun s =>
      match s.team k with
      | some t =>
        if mayRetire s k t then
          let s1 := (membersOf s k).foldl (fun s e => noteRelease s k e.2.gts) s
          let out := (membersOf s k).filter fun e => s.fly.reqs.any fun q => q.2.grp == e.1 && !q.2.op.free
          let s2 := (removeTeam s1 k).modGrid t.grid fun g => { g with retired := g.retired + 1 }
          settleAll (out.foldl (fun s e => s.setGroup e.1 e.2) (s2.setSys { s2.sys with retireAt := s2.sys.clk + 1 }))
        else s
      | none => s)
  | _ => .next s

end Sys2Proof.Machine
end

