-- ==== Sys2Proof/Machine/Finish.lean ====
section
/-! DEFINITION. Grids at their end (02 R34, R35, 14 R216): completion, the provenance record, the arrival on DONEPH; signed snapshots of the
counters (14 R213, R214), their flush (14 R212), and the barometers (14 R218, R219). -/

namespace Sys2Proof.Machine

/-! ## Signed records (14 R214) -/

/-- A number of fields, each given by its lowest bit and its width. -/
def fieldsOf : List (Nat × Nat × Nat) → Nat
  | [] => 0
  | (lo, w, x) :: r => x % 2 ^ w * 2 ^ lo + fieldsOf r

/-- A record of n bytes with the signature over its bits below `len`, r in the 384 bits from there and s in the next 384. -/
def signedRecord (s : State) (body len n : Nat) : Bytes × State :=
  let k := s.ctl.free
  let sig := Config.signature k (leVal (sha384 (leOf (len / 8) body)))
  (leOf n (body + sig.1 % 2 ^ 384 * 2 ^ len + sig.2 % 2 ^ 384 * 2 ^ (len + 384)), s.setCtl { s.ctl with free := k + 1 })

/-! ## Snapshots (14 R213, R214) -/

/-- SNAP (14 R213). -/
def execSnap (s : State) : Out :=
  match s.ctl.ev with
  | some (.snap fn did nonce addr) =>
    .next (command s fn (ownsDom s fn did)
      [(notIn s did [.closed, .live, .draining, .killing, .stopped], 1), (decide (addr % 64 ≠ 0 ∨ 2 ^ 128 ≤ nonce), 3),
       (!(s.dom did).snaps.isEmpty, 6)] fun s => cutSnap s fn did nonce addr false)
  | _ => .next s

/-- The bits of a snapshot record that its signature covers. -/
def snapBody (s : State) (did : Nat) (x : Snap) : Nat :=
  let d := s.dom did
  fieldsOf ([(0, 8, 1), (8, 8, did), (16, 6, d.part), (32, 1, if x.final then 1 else 0), (64, 64, x.pieces.getD 17 0),
    (128, 128, x.nonce), (256, 128, Config.bootId s.sys.resets), (384, 64, d.dgen), (448, 64, x.pieces.getD 16 0),
    (1536, 384, Config.deviceId), (1920, 384, Config.firmware s.sys.resets)] ++
    (upTo 16).map fun i => (512 + 64 * i, 64, x.pieces.getD i 0))

/-- SNAPSHOT_COMPLETE (14 R214): the oldest snapshot of the domain is written, and its function receives SNAPDONE. -/
def execSnapshotComplete (s : State) : Out :=
  match s.ctl.ev with
  | some (.snapshotComplete did) => .next (whenUp s fun s =>
      match (s.dom did).snaps with
      | [] => s
      | x :: r =>
        let b := signedRecord s (snapBody s did x) 3072 512
        if hostPutHolds s x.addr b.1.length then s
        else interrupt (hostPut (b.2.modDom did fun d => { d with snaps := r }) x.addr b.1) x.fn iSNAPDONE)
  | _ => .next s

/-- COUNTER_FLUSH (14 R212, R220): the increments of a core, and the cycles kept for the domain's virtual clock. -/
def execCounterFlush (s : State) : Out :=
  match s.ctl.ev with
  | some (.counterFlush core did) => .next (whenUp s fun s => (flushCore s core did).modDom did fun d => d.sendClock s.sys.clk)
  | _ => .next s

/-! ## Barometers (14 R218, R219) -/

/-- The quantile of a selection: count(0..b) reaches ⌈N f⌉ at it. -/
def quantileNeed (n sel : Nat) : Nat :=
  if sel = 0 then (n + 1) / 2 else if sel = 1 then (99 * n + 99) / 100 else (999 * n + 999) / 1000

/-- The first bucket at which the counts up to it reach a number. -/
def bucketReaching (h : List Nat) (need : Nat) : Nat := ((upTo 32).find? fun b => decide (need ≤ (h.take (b + 1)).sum)).getD 31

/-- A window ends with a histogram that breaches the bound. -/
def breaches (barb : Nat) (h : List Nat) : Bool :=
  barb.testBit 63 && decide (bits barb 50 32 ≤ h.sum) && decide (bits barb 60 56 < bucketReaching h (quantileNeed h.sum (bits barb 62 61)))

/-- The fabric cycles of a barometer's window (14 R218). -/
def windowLen (p : Part) (b : Nat) : Nat := 2 ^ (bits (p.barb.getD b 0#64).toNat 55 51 + 10)

/-- BAROMETER_WINDOW_END (14 R219): no window ends before its fabric cycles have passed; when the next begins is DEDUCED (log 77). -/
def execBarometerWindowEnd (s : State) : Out :=
  match s.ctl.ev with
  | some (.barometerWindowEnd part b) => .next (whenUp s fun s =>
      let p := s.part part
      if !p.committed ∨ 3 ≤ b ∨ s.sys.fab < p.winAt.getD b 0 + windowLen p b then s
      else
        let h := p.hist.getD b []
        let s1 := s.modPart part fun p =>
          { p with histLast := setAt p.histLast b h, hist := setAt p.hist b (List.replicate 32 0),
                   winAt := setAt p.winAt b (p.winAt.getD b 0 + windowLen p b) }
        if breaches (p.barb.getD b 0#64).toNat h then
          interrupt (interrupt (s1.modPart part fun p => { p with barstat := p.barstat ||| 2 ^ b }) (part + 1) iBAROMETER) 0 iBAROMETER
        else s1)
  | _ => .next s

/-! ## The end of a grid -/

/-- A grid is gone, with its teams: its queue counts it no more, and a draining domain without another is CLOSED (02 R35, 01 R22). -/
def closeGrid (s : State) (id : Nat) (g : Grid) : State :=
  let mine := (s.work.teams.filter (·.2.grid == id)).map (·.1)
  let s1 := s.setWork { s.work with grids := tdel s.work.grids id, teams := s.work.teams.filter (·.2.grid != id),
                                    groups := s.work.groups.filter fun e => !mine.contains e.2.team }
  if g.done then s1
  else
    let s2 := s1.modQueue g.did g.queue fun x => { x with outst := if x.kind then x.outst - 1 else x.outst }
    if (s2.dom g.did).st = .draining ∧ !gridOpen s2 g.did then closeDom s2 g.did else s2

/-- The groups of a grid's teams. -/
def gridGroups (s : State) (id : Nat) : List (Nat × Group) :=
  s.work.groups.filter fun e => ((s.team e.2.team).map (·.grid)) == some id

/-- A write of a grid is still out, so that the release of its arrival waits. -/
def writesOut (s : State) (id : Nat) : Bool := s.fly.reqs.any fun q => !q.2.op.free && (gridGroups s id).any fun e => e.1 == q.2.grp

/-- The latest timestamp that a grid's arrival covers. -/
def gridRel (s : State) (id : Nat) (g : Grid) : Ts := (gridGroups s id).foldl (fun t e => t.maxAt e.2.gts (newEpoch s)) g.rel

/-- The arrival on DONEPH: a release at system scope that covers every write of the grid. The phaser's refusal sets ARRF; an arrival that
must wait leaves the grid due to make it (02 R34, 11 R180). -/
def gridArrive (s : State) (id : Nat) (g : Grid) : State :=
  if !g.launch.dn ∨ g.status ≠ 0 then closeGrid s id g
  else if writesOut s id then s.modGrid id fun g => { g with stage := 3 }
  else match translateDie0 s g.did g.launch.doneph 10 with
    | .failed r l s1 =>
      (pendFail s1 0 g.did (g.launch.doneph / 2 ^ 14) r 10 l 255 id).modGrid id fun g => { g with stage := 3 }
    | .busy s1 => (s.keepAsked s1).modGrid id fun g => { g with stage := 3 }
    | .alien o s1 => closeGrid (logDomain s1 g.did 4 o 255) id g
    | .ok e pa s1 =>
      if !phaserPage e then closeGrid s1 id g
      else match touchLineFor s1 pa (pteKey e.pte) g.launch.doneph ((gridRel s id g).maxAt s1.sys.distTs (newEpoch s1)) with
        | .wait s2 => (s.keepAsked s2).modGrid id fun g => { g with stage := 3 }
        | .denied c _ info o s2 => closeGrid (if c = cDOMAIN then logDomain s2 g.did info o 255 else s2) id g
        | .line lk s2 =>
          let t := (gridRel s id g).maxAt s2.sys.distTs (newEpoch s2)
          let r := operateLine s2 lk pa (pteKey e.pte) t { pend := -1, ts := some t }
          settleAll (closeGrid (if r.2.isSome then r.1.modDom g.did fun d => { d with arrf := true } else r.1) id g)

/-- The record is due where the domain has a ring; else the arrival is. -/
def recordDue (s : State) (id : Nat) (g : Grid) : State :=
  if (s.dom g.did).provV then s.modGrid id fun x => { x with stage := 2, status := g.status } else gridArrive s id g

/-- DONEPH is translated and checked: it may wait for the host, or be refused, so that no arrival is made (02 R34). -/
def checkDoneph (s : State) (id : Nat) (g : Grid) : State :=
  if !g.launch.dn then recordDue s id g
  else match translateDie0 s g.did g.launch.doneph 10 with
    | .failed r l s1 => (pendFail s1 0 g.did (g.launch.doneph / 2 ^ 14) r 10 l 255 id).modGrid id fun g => { g with stage := 1 }
    | .busy s1 => (s.keepAsked s1).modGrid id fun g => { g with stage := 1 }
    | .alien o s1 => recordDue (logDomain s1 g.did 4 o 255) id { g with status := 2 }
    | .ok e pa s1 =>
      if !phaserPage e then recordDue s1 id { g with status := 2 }
      else if keyAt s1 pa ≠ pteKey e.pte then recordDue (logDomain s1 g.did 4 (keyAt s1 pa) 255) id { g with status := 2 }
      else recordDue s1 id g

/-- The last team of a grid has retired, and its last command has finished. -/
def gridFinished (s : State) (id : Nat) (g : Grid) : Bool :=
  decide (g.launch.nteams ≤ g.next ∧ g.launch.nteams ≤ g.retired) &&
    !s.fly.cmds.any fun e => match s.team e.2.team with | some t => t.grid == id | none => false

/-- A grid completes: the watchdog's count returns to 0 (05 R74), and its record and arrival come due. A grid whose DONEPH or arrival
waited goes on. -/
def gridComplete (s : State) (id : Nat) : State :=
  match s.grid id with
  | none => s
  | some g =>
    if g.done ∨ (s.dom g.did).st = .killing ∨ s.sys.fatal.isSome ∨ pageWaits s id then s
    else if g.stage = 0 then
      if gridFinished s id g then
        let d := s.dom g.did
        let g1 := { g with vend := d.vclk }
        checkDoneph ((s.setDom g.did { d with wcount := 0 }).modGrid id fun _ => g1) id g1
      else s
    else if g.stage = 1 then checkDoneph s id g
    else if g.stage = 3 then gridArrive s id g
    else s

/-- GRID_COMPLETE (02 R34). -/
def execGridComplete (s : State) : Out :=
  match s.ctl.ev with
  | some (.gridComplete id) => .next (whenUp s fun s => gridComplete s id)
  | _ => .next s

/-- The bits of a provenance record that its signature covers (14 R216, R217). -/
def provBody (s : State) (g : Grid) : Nat :=
  let d := s.dom g.did
  let maskFor := fun (l : List Nat) => (l.eraseDups.map fun n => 2 ^ n).sum
  fieldsOf ([(0, 8, 1), (8, 8, g.did), (16, 6, d.part), (22, 2, g.status), (32, 8, maskFor (g.links.map (·.1))),
    (48, 16, maskFor g.used), (64, 64, g.launch.jobtag), (128, 64, d.pseq + 1), (192, 64, d.dgen), (256, 128, Config.bootId s.sys.resets),
    (384, 384, Config.deviceId), (768, 384, Config.firmware s.sys.resets), (1152, 384, g.hash), (1536, 64, g.start), (1600, 64, g.vend)] ++
    g.links.map fun e => (1728 + 384 * e.1, 384, e.2))

/-- The distributor writes bytes for a domain, 256 B at a time: whether all are written, and nothing else otherwise. -/
def distWrite (s : State) (did waiter : Nat) : Nat → Nat → Bytes → Except State State
  | 0, _, _ => .ok s
  | fuel + 1, va, bs =>
    if bs.isEmpty then .ok s
    else match translateDie0 s did va 10 with
      | .busy s1 => .error s1
      | .failed r l s1 => .error (pendFail s1 0 did (va / 2 ^ 14) r 10 l 255 waiter)
      | .alien o s1 => distWrite (logDomain s1 did 4 o 255) did waiter fuel (va + 256) (bs.drop 256)
      | .ok e pa s1 =>
        match unitAccess s1 e pa va 256 s1.sys.distTs (some (bs.take 256)) with
        | .wait s2 => .error s2
        | .denied c _ info o s2 =>
          distWrite (if c = cDOMAIN then logDomain s2 did info o 255 else s2) did waiter fuel (va + 256) (bs.drop 256)
        | .done _ t s2 =>
          distWrite (s2.setSys { s2.sys with distTs := s2.sys.distTs.maxAt t (newEpoch s2) }) did waiter fuel (va + 256) (bs.drop 256)

/-- The record of a grid is written where its ring has room, and its arrival follows. -/
def writeProv (s : State) (id : Nat) (g : Grid) : State :=
  let d := s.dom g.did
  if !d.provV then gridArrive s id g
  else if (d.provTail + 2 ^ 32 - d.provHead) % 2 ^ 32 ≥ 2 ^ (d.provOrder + 4) then s
  else
    let b := signedRecord s (provBody s g) 4800 1024
    match distWrite b.2 g.did id 4 (d.provBase + 1024 * (d.provTail % 2 ^ (d.provOrder + 4))) b.1 with
    | .error s1 => s.keepAsked s1
    | .ok s1 =>
      let s2 := s1.modDom g.did fun d => { d with provTail := (d.provTail + 1) % 2 ^ 32, pseq := d.pseq + 1 }
      gridArrive (interrupt s2 (d.part + 1) iPROVENANCE) id g

/-- PROVENANCE_RECORD_WRITE (14 R216). -/
def execProvenanceRecordWrite (s : State) : Out :=
  match s.ctl.ev with
  | some (.provenanceRecordWrite id) => .next (whenUp s fun s =>
      match s.grid id with
      | some g =>
        if s.sys.fatal.isSome ∨ pageWaits s id then s
        else if g.stage = 2 then if (s.dom g.did).st = .killing ∧ !g.done then s else writeProv s id g
        else if g.stage = 4 then closeGrid s id g
        else s
      | none => s)
  | _ => .next s

/-! ## The end of KILLING (01 R22, 14 R216) -/

/-- What KILLING leaves of a grid: one in progress is killed, and its record comes due; one that had completed keeps its end, and makes no
arrival: a grid of a KILLed domain never arrives (02 R34). -/
def Grid.killed (g : Grid) (clk : Nat) : Grid :=
  if g.stage = 0 then { g with stage := 2, status := 1, vend := clk, done := true }
  else if g.stage < 3 then { g with stage := 2, status := if g.launch.dn ∧ g.status = 0 then 2 else g.status, done := true }
  else { g with stage := 4, done := true }

/-- The record of a killed grid is written; one whose record stands is gone. -/
def buryGrid (s : State) (id : Nat) : State :=
  match s.grid id with
  | some g => if !g.done then s else if g.stage = 2 then writeProv s id g else closeGrid s id g
  | none => s

/-- KILLING ends: the domain is CLOSED, and the record of each of its grids is written, with STATUS 1 where it had not completed. -/
def killDone (s : State) (did : Nat) : State :=
  if (s.dom did).st ≠ .killing ∨ (s.work.groups.any fun e => s.didOf e.2 == did && e.2.st != .exited && e.2.st != .empty) ∨
      (s.fly.cmds.any fun e => e.2.did == did) ∨ (s.fly.scrubs.any fun e => ((s.team e.2.team).map (·.did)).getD 0 == did) then s
  else
    let s1 := ((s.work.teams.filter fun e => e.2.did == did).map (·.1)).foldl removeTeam s
    let clk := (s.dom did).vclk
    let mine := fun (g : Grid) => g.did == did && !g.done
    let ids := (s1.work.grids.filter fun e => mine e.2).map (·.1)
    let s2 := s1.setWork { s1.work with grids := s1.work.grids.map fun e => (e.1, if mine e.2 then e.2.killed clk else e.2) }
    ids.foldl buryGrid (closeDom s2 did)

/-- KILL_COMPLETE (01 R22). -/
def execKillComplete (s : State) : Out :=
  match s.ctl.ev with
  | some (.killComplete did) => .next (whenUp s fun s => if s.sys.fatal.isSome then s else killDone s did)
  | _ => .next s

end Sys2Proof.Machine
end

