-- ==== Sys2Proof/Machine/Faithful.lean ====
section
/-! DEFINITION. The faithfully rounded functions of 17 R274: 2^x, log2 x, sin x, cos x and tanh x. Each exact value is
bracketed by fixed-point arithmetic with 800 binary places, far below the distance of any value of these functions at an
FP32 operand to an FP32 number; the device's choice between the two FP32 neighbours is a free value. -/

namespace Sys2Proof.Machine

/-- The number of binary places of the fixed-point values. -/
def fxP : Nat := 800

/-- The fixed-point product. -/
def fxMul (x y : Nat) : Nat := x * y / 2 ^ fxP

/-- The sum of the power series whose next term is term * z * num(k) / den(k), for n terms: 1 + z/1! + z^2/2! + … -/
def expSeries (z : Nat) : Nat → Nat → Nat → Nat
  | 0, _, _ => 0
  | n + 1, k, term => term + expSeries z n (k + 1) (fxMul term z / (k + 1))

/-- e^z for a fixed-point z below 1. -/
def fxExp (z : Nat) : Nat := expSeries z 180 0 (2 ^ fxP)

/-- The odd series z + z^3/3 + z^5/5 + …, of which the term z^(2k+1) is given. -/
def atanhSeries (z2 : Nat) : Nat → Nat → Nat → Nat
  | 0, _, _ => 0
  | n + 1, k, pw => pw / (2 * k + 1) + atanhSeries z2 n (k + 1) (fxMul pw z2)

/-- The inverse hyperbolic tangent of a fixed-point z of at most 1/3. -/
def fxAtanh (z : Nat) : Nat := atanhSeries (fxMul z z) 260 0 z

/-- The natural logarithm of 2. -/
def fxLn2 : Nat := 2 * fxAtanh (2 ^ fxP / 3)

/-- The alternating series 1/q - 1/(3 q^3) + 1/(5 q^5) - …, for the arc tangent of 1/q. -/
def atanSeries (q2 : Nat) : Nat → Nat → Bool → Nat → Int
  | 0, _, _, _ => 0
  | n + 1, k, neg, pw =>
    let t : Int := ((pw / (2 * k + 1) : Nat) : Int)
    (if neg then -t else t) + atanSeries q2 n (k + 1) (!neg) (pw / q2)

/-- pi with 1000 binary places, by Machin's formula. -/
def piBig : Nat :=
  (16 * atanSeries 25 220 0 false (2 ^ 1000 / 5) - 4 * atanSeries 57121 70 0 false (2 ^ 1000 / 239)).toNat

/-- The sine series of a fixed-point z: z - z^3/3! + z^5/5! - …, from the term of z^k/k!. -/
def sinSeries (z2 : Nat) : Nat → Nat → Bool → Nat → Int
  | 0, _, _, _ => 0
  | n + 1, k, neg, term =>
    (if neg then -(term : Int) else (term : Int)) + sinSeries z2 n (k + 2) (!neg) (fxMul term z2 / ((k + 1) * (k + 2)))

/-- A magnitude n/d in fixed point, rounded down. -/
def fxOf (n d : Nat) : Nat := n * 2 ^ fxP / d

/-- The exact value of a function at a finite nonzero FP32 operand: an FP32 value, a value that is no FP32 value (given by a
close approximation that lies between the same neighbours), or a special result with its flags. -/
inductive FVal where
  | exact (x : FltNum)
  | between (x : FltNum)
  | special (code : Nat) (fl : LaneFlags)
  deriving DecidableEq, Repr

/-- 2^x for x = (-1)^neg n/d. -/
def exp2Val (neg : Bool) (n d : Nat) : FVal :=
  let q := n / d
  if !neg && decide (128 ≤ q) then .special 0x7F800000 (fOVERFLOW ||| fINEXACT)
  else if n % d = 0 ∧ (!neg || decide (q ≤ 149)) then .exact (pow2N false 1 (if neg then -(q : Int) else q))
  else if neg && decide (400 ≤ q) then .between (pow2N false 1 (-400))
  else
    let k : Int := if neg then -(q : Int) - (if n % d = 0 then 0 else 1) else q
    let r := if neg then (if n % d = 0 then 0 else d - n % d) else n % d
    .between (pow2N false (fxExp (fxMul (fxOf r d) fxLn2)) (k - fxP))

/-- log2 x for x = n/d above 0. -/
def log2Val (n d : Nat) : FVal :=
  let e := log2Q n d
  let md := if 0 ≤ e then (n, d * 2 ^ e.toNat) else (n * 2 ^ (-e).toNat, d)
  if md.1 = md.2 then .exact (.ofInt e)
  else
    let l := 2 * fxAtanh (fxOf (md.1 - md.2) (md.1 + md.2)) * 2 ^ fxP / fxLn2
    let t : Int := e * 2 ^ fxP + l
    .between (.fin (decide (t < 0)) t.natAbs (2 ^ fxP))

/-- The sine of the fixed-point angle that stands q quarter turns and r on, r below a quarter turn. -/
def quarterSin (q : Nat) (r quarter : Nat) : Int :=
  let z := if q % 2 = 0 then r else quarter - r
  let v := sinSeries (fxMul z z) 100 1 false z
  if q % 4 < 2 then v else -v

/-- sin or cos of x = (-1)^neg n/d, reduced exactly modulo a quarter turn. -/
def sinCosVal (isCos neg : Bool) (n d : Nat) : FVal :=
  let big := n * 2 ^ 1000 / d
  let quarterBig := piBig / 2
  let q := big / quarterBig
  let r := big % quarterBig / 2 ^ (1000 - fxP)
  let v := quarterSin (if isCos then q + 1 else q) r (quarterBig / 2 ^ (1000 - fxP))
  let t := if neg && !isCos then -v else v
  .between (.fin (decide (t < 0)) t.natAbs (2 ^ fxP))

/-- tanh of x = (-1)^neg n/d: (e^(2x) - 1)/(e^(2x) + 1), with |x| limited to 100. -/
def tanhVal (neg : Bool) (n d : Nat) : FVal :=
  let x := min (fxOf n d) (100 * 2 ^ fxP)
  let y := 2 * x * 2 ^ fxP / fxLn2
  let k := y / 2 ^ fxP
  let e := fxExp (fxMul (y % 2 ^ fxP) fxLn2) * 2 ^ k
  .between (.fin neg (e - 2 ^ fxP) (e + 2 ^ fxP))

/-- The lesser neighbour of a value between two FP32 values, or the greater one, as the device chooses (17 R274). -/
def faithful (op : Nat) (a : Word) (v : FVal) : LaneRes :=
  match v with
  | .exact x => resNum fp32 .rne x
  | .special c fl => (BitVec.ofNat 64 c, fl)
  | .between x =>
    let up := Config.faithfulUp op a
    let c := (round fp32 (if up then .ru else .rd) x).1
    let tiny := match x with
      | .fin _ n d => decide (n * 2 ^ 126 < d)
      | _ => false
    (BitVec.ofNat 64 c, fINEXACT ||| flagIf tiny fUNDERFLOW)

/-- FEX2. -/
def fltEx2 (a : Word) : LaneRes :=
  match f32 a with
  | .nan s => (nan32, flagIf s fINVALID)
  | .inf neg => if neg then (0#64, 0#8) else (0x7F800000#64, 0#8)
  | .fin neg n d => if n = 0 then (0x3F800000#64, 0#8) else faithful 0x3C a (exp2Val neg n d)

/-- FLG2. -/
def fltLg2 (a : Word) : LaneRes :=
  match f32 a with
  | .nan s => (nan32, flagIf s fINVALID)
  | .inf neg => if neg then (nan32, fINVALID) else (0x7F800000#64, 0#8)
  | .fin neg n d =>
    if n = 0 then (0xFF800000#64, fDIVZERO)
    else if neg then (nan32, fINVALID) else faithful 0x3D a (log2Val n d)

/-- FSIN. -/
def fltSin (a : Word) : LaneRes :=
  match f32 a with
  | .nan s => (nan32, flagIf s fINVALID)
  | .inf _ => (nan32, fINVALID)
  | .fin neg n d => if n = 0 then (a.zeroExtend 64, 0#8) else faithful 0x3E a (sinCosVal false neg n d)

/-- FCOS. -/
def fltCos (a : Word) : LaneRes :=
  match f32 a with
  | .nan s => (nan32, flagIf s fINVALID)
  | .inf _ => (nan32, fINVALID)
  | .fin neg n d => if n = 0 then (0x3F800000#64, 0#8) else faithful 0x3F a (sinCosVal true neg n d)

/-- FTANH. -/
def fltTanh (a : Word) : LaneRes :=
  match f32 a with
  | .nan s => (nan32, flagIf s fINVALID)
  | .inf neg => (if neg then 0xBF800000#64 else 0x3F800000#64, 0#8)
  | .fin neg n d => if n = 0 then (a.zeroExtend 64, 0#8) else faithful 0x40 a (tanhVal neg n d)

end Sys2Proof.Machine
end

