-- ==== Sys2Proof/Machine/FloatFam.lean ====
section
/-! DEFINITION. The float instructions, opcodes 0x30 to 0x4E (17 R270 to R277). -/

namespace Sys2Proof.Machine

/-- FADD (17 R271). -/
def execFadd (w : RWord) (s : State) : Out :=
  floatWord w 0x30 9 false (fun a b _ => fltAdd fp32 w.m.toNat (f32 a) (f32 b)) s

/-- FSUB (17 R271). -/
def execFsub (w : RWord) (s : State) : Out :=
  floatWord w 0x31 9 false (fun a b _ => fltSub fp32 w.m.toNat (f32 a) (f32 b)) s

/-- FMUL (17 R271). -/
def execFmul (w : RWord) (s : State) : Out :=
  floatWord w 0x32 9 false (fun a b _ => fltMul fp32 w.m.toNat (f32 a) (f32 b)) s

/-- FFMA (17 R271). -/
def execFfma (w : RWord) (s : State) : Out :=
  floatWord w 0x33 9 false (fun a b c => fltFma fp32 w.m.toNat (f32 a) (f32 b) (f32 c)) s

/-- FMIN (17 R272). -/
def execFmin (w : RWord) (s : State) : Out := floatWord w 0x34 9 false (fun a b _ => fltMinMax false a b) s

/-- FMAX (17 R272). -/
def execFmax (w : RWord) (s : State) : Out := floatWord w 0x35 9 false (fun a b _ => fltMinMax true a b) s

/-- FABS (17 R272). -/
def execFabs (w : RWord) (s : State) : Out := floatWord w 0x36 9 false (fun a _ _ => fltAbs a) s

/-- FNEG (17 R272). -/
def execFneg (w : RWord) (s : State) : Out := floatWord w 0x37 9 false (fun a _ _ => fltNeg a) s

/-- FRCP, variable-latency (17 R273). -/
def execFrcp (w : RWord) (s : State) : Out := floatWord w 0x38 9 true (fun a _ _ => fltRcp w.m.toNat a) s

/-- FRSQ, variable-latency (17 R273). -/
def execFrsq (w : RWord) (s : State) : Out := floatWord w 0x39 9 true (fun a _ _ => fltRsq w.m.toNat a) s

/-- FSQRT, variable-latency (17 R273). -/
def execFsqrt (w : RWord) (s : State) : Out := floatWord w 0x3A 9 true (fun a _ _ => fltSqrt fp32 w.m.toNat (f32 a)) s

/-- FDIV, variable-latency (17 R273). -/
def execFdiv (w : RWord) (s : State) : Out :=
  floatWord w 0x3B 9 true (fun a b _ => fltDiv fp32 w.m.toNat (f32 a) (f32 b)) s

/-- FEX2, variable-latency and faithfully rounded (17 R274). -/
def execFex2 (w : RWord) (s : State) : Out := floatWord w 0x3C 9 true (fun a _ _ => fltEx2 a) s

/-- FLG2, variable-latency and faithfully rounded (17 R274). -/
def execFlg2 (w : RWord) (s : State) : Out := floatWord w 0x3D 9 true (fun a _ _ => fltLg2 a) s

/-- FSIN, variable-latency and faithfully rounded (17 R274). -/
def execFsin (w : RWord) (s : State) : Out := floatWord w 0x3E 9 true (fun a _ _ => fltSin a) s

/-- FCOS, variable-latency and faithfully rounded (17 R274). -/
def execFcos (w : RWord) (s : State) : Out := floatWord w 0x3F 9 true (fun a _ _ => fltCos a) s

/-- FTANH, variable-latency and faithfully rounded (17 R274). -/
def execFtanh (w : RWord) (s : State) : Out := floatWord w 0x40 9 true (fun a _ _ => fltTanh a) s

/-- FRND (17 R275). -/
def execFrnd (w : RWord) (s : State) : Out := floatWord w 0x41 9 false (fun a _ _ => fltRnd w.m.toNat a) s

/-- FCLASS: M[2] takes a wide FP64 operand (17 R270, R275). -/
def execFclass (w : RWord) (s : State) : Out :=

  let k := if w.m.toNat / 4 % 2 = 1 then 2 else 1
  laneWord w 0x42 9 false false ⟨1, k, 1, 1⟩
    (fun _ _ a _ _ => if k = 2 then fltClass fp64 a.toNat else fltClass fp32 (lo32 a).toNat) s

/-- FSCALE (17 R275). -/
def execFscale (w : RWord) (s : State) : Out := floatWord w 0x43 9 false (fun a b _ => fltScale w.m.toNat a b) s

/-- DADD on wide operands (17 R271). -/
def execDadd (w : RWord) (s : State) : Out :=
  laneWord w 0x44 8 false false ⟨2, 2, 2, 2⟩ (fun _ _ a b _ => fltAdd fp64 w.m.toNat (f64 a) (f64 b)) s

/-- DMUL on wide operands (17 R271). -/
def execDmul (w : RWord) (s : State) : Out :=
  laneWord w 0x45 8 false false ⟨2, 2, 2, 2⟩ (fun _ _ a b _ => fltMul fp64 w.m.toNat (f64 a) (f64 b)) s

/-- DFMA on wide operands (17 R271). -/
def execDfma (w : RWord) (s : State) : Out :=
  laneWord w 0x46 8 false false ⟨2, 2, 2, 2⟩ (fun _ _ a b c => fltFma fp64 w.m.toNat (f64 a) (f64 b) (f64 c)) s

/-- DDIV on wide operands (17 R273). -/
def execDdiv (w : RWord) (s : State) : Out :=
  laneWord w 0x47 8 false true ⟨2, 2, 2, 2⟩ (fun _ _ a b _ => fltDiv fp64 w.m.toNat (f64 a) (f64 b)) s

/-- DSQRT on wide operands (17 R273). -/
def execDsqrt (w : RWord) (s : State) : Out :=
  laneWord w 0x48 8 false true ⟨2, 2, 2, 2⟩ (fun _ _ a _ _ => fltSqrt fp64 w.m.toNat (f64 a)) s

/-- HFMA2 (17 R276). -/
def execHfma2 (w : RWord) (s : State) : Out := floatWord w 0x49 10 false (fun a b c => fltHfma2 w.m.toNat a b c) s

/-- HADD2 (17 R276). -/
def execHadd2 (w : RWord) (s : State) : Out := floatWord w 0x4A 10 false (fun a b _ => fltHadd2 w.m.toNat a b) s

/-- HMUL2 (17 R276). -/
def execHmul2 (w : RWord) (s : State) : Out := floatWord w 0x4B 10 false (fun a b _ => fltHmul2 w.m.toNat a b) s

/-- FDOT2 (17 R276). -/
def execFdot2 (w : RWord) (s : State) : Out := floatWord w 0x4C 10 false (fun a b c => fltDot2 w.m.toNat a b c) s

/-- FDOT4Z under format slot M[2:0] (17 R277). -/
def execFdot4z (w : RWord) (s : State) : Out :=
  laneWord w 0x4D 10 false false {} (fun c _ x y z => fltDot4z (slotWord s c.g (w.m.toNat % 8)) (lo32 x) (lo32 y) (lo32 z)) s

/-- FMED3 (17 R272). -/
def execFmed3 (w : RWord) (s : State) : Out := floatWord w 0x4E 9 false (fun a b c => fltMed3 a b c) s


end Sys2Proof.Machine
end

