-- ==== Sys2Proof/Machine/Frost.lean ====
section
/-! DEFINITION. Frost and thaw (05 R75 to R83): FROST and its team images, the loading of a frame, a thaw in place, and the thaw of a
team that has been evicted. -/

namespace Sys2Proof.Machine

/-! ## Names of teams (05 R75) -/

/-- The live teams that a command names: every team of the domain, or the team of the oldest matching grid that has not completed. -/
def namedTeams (s : State) (did : Nat) (tgt : TeamSel) : List Nat :=
  let live := s.work.teams.filter fun e => e.2.did == did && !e.2.retired
  match tgt with
  | .all => live.map (·.1)
  | .one q idx id =>
    let gs := s.work.grids.filter fun e => e.2.did == did && !e.2.done && e.2.stage == 0 && e.2.queue == q && e.2.index == idx
    match leastBy (fun (e : Nat × Grid) => e.2.order) gs with
    | some g => (live.filter fun e => e.2.grid == g.1 && e.2.id == id).map (·.1)
    | none => []

/-! ## FROST -/

/-- The lowest address of a domain's save area at which an image fits (05 R76). -/
def imagePlace (s : State) (did size : Nat) : Option Nat :=
  let d := s.dom did
  let lo := bits d.save0.toNat 56 12 * 4096
  let used := s.work.teams.filterMap fun e =>
    if e.2.did = did ∧ !e.2.retired then e.2.image.map fun im => (im.addr, im.size) else none
  if d.save0.getLsbD 63 then findBase lo (lo + bits d.save1.toNat 31 0 * 4096) 4096 size used fun _ => true else none

/-- A team's image is reserved; nothing where the area has no room. -/
def reserveImage (s : State) (k : Nat) : Option State :=
  match s.team k with
  | none => none
  | some t =>
    if t.image.isSome then some s
    else match imagePlace s t.did (imageSize s t) with
      | none => none
      | some a =>
        let im : Image :=
          { addr := a, size := imageSize s t, rows := [], bad := [], sram := [], tags := [], replies := [], evRows := [],
            evSram := [], evSregs := [], pending := [] }
        some (s.modTeam k fun t => { t with image := some im })

/-- The images of several teams. -/
def reserveAll (s : State) : List Nat → Option State
  | [] => some s
  | k :: ks => match reserveImage s k with
    | some s1 => reserveAll s1 ks
    | none => none

/-- A team in HELD is frozen at once, its frames recording the initial state (05 R75, 04 R52). -/
def freezeHeld (s : State) (t : Team) (g : Group) : Group :=
  match s.grid t.grid with
  | none => g
  | some r =>
    let gts := r.gts.maxAt (s.dom t.did).cur.gfloor (newEpoch s)
    let g1 := { g with gts := gts }
    let ps := [Path.new (if g.isSeq then r.launch.mentry else r.launch.entry) 0 g.live]
    { g1 with st := .frozen, frame := frameBits g1 ps 0, rbcAt := rbcOf s gts.ep }

/-- PREEMPT is raised for the groups of a team that is to freeze. -/
def freezeTeam (s : State) (fn did k : Nat) : State :=
  match s.team k with
  | none => s
  | some t =>
    let s1 := (s.modTeam k fun t => { t with freezing := true, thawing := false }).modDom did fun d => { d with freezing := d.freezing ++ [(fn, k)] }
    let one := fun (_ : Nat) (g : Group) =>
      if g.team ≠ k ∨ g.st.still then g
      else if g.st = .held then freezeHeld s1 t g
      else match g.handler with
        | some h => if h.trap.cause = cPREEMPT then g else { g with preempt := true }
        | none => { g with preempt := true }
    s1.mapGroups one

/-- FROST on a domain that takes it: an image for each team that is not frozen, or NO_SAVE and nothing; DONE once each is frozen. -/
def frostTeams (s : State) (fn did : Nat) (ks : List Nat) : State :=
  let todo := ks.filter fun k => match s.team k with | some t => !t.frozen | none => false
  match reserveAll s todo with
  | none => setFrost s fn 5
  | some s1 =>
    let s2 := s1.setSys { s1.sys with status := tdel s1.sys.status fn, frost := tdel s1.sys.frost fn }
    let s3 := todo.foldl (fun s k => freezeTeam s fn did k) (if todo.isEmpty then setFrost s2 fn 0 else s2)
    settleAll (todo.foldl noteFrozen s3)

/-- FROST (05 R75). -/
def execFrost (s : State) : Out :=
  match s.ctl.ev with
  | some (.frost fn did tgt) =>
    .next (commandWith s fn (ownsDom s fn did)
      [(notIn s did [.live, .draining], 1), ((namedTeams s did tgt).isEmpty, 3)] fun s => frostTeams s fn did (namedTeams s did tgt))
  | _ => .next s

/-! ## Loading a frame (05 R82) -/

/-- The paths that a frame holds, each ready at its PC, with the accesses that its release fences still await; at REGROUP where the
frame's RDV is 1. -/
def thawPaths (s : State) (g : Group) (f : Nat) : List Path :=
  let left := fun (m : Mask) => stillOut s ((g.fences.filter fun e => e.1 &&& m != 0#32).flatMap fun e => e.2)
  (framePaths f g.live).map fun p => { p with fence := left p.mask, rdv := if f.testBit 3019 then some p.pc else none }

/-- The GTS of a frame, rebased once for each unit by which RBC has risen since (07 R116). -/
def frameTs (s : State) (g : Group) (f : Nat) : Ts :=
  let n := if g.rbcAt = (s.sys.rbc + 1) % 2 ^ 16 then 0 else (s.sys.rbc + 2 ^ 16 - g.rbcAt) % 2 ^ 16
  ⟨bits f 2983 2944 - n * 2 ^ 38, g.gts.ep != (n % 2 == 1)⟩

/-- A frozen group takes up its frame: its timestamp raised to GFLOOR, its drift reference now, its level the base (05 R82). -/
def loadFrame (s : State) (k : Nat) (g : Group) : State :=
  let f := if g.isSeq then g.frame else readFrame s g
  let ps := thawPaths s g f
  let raised := { g with gts := frameTs s g f }.raise (s.dom (s.didOf g)).cur.gfloor (newEpoch s)
  let s1 := s.setGroup k
    { g with st := if g.owed.isEmpty then restState ps else .blocked, paths := ps, gts := raised.gts, drift := s.sys.clk, level := g.base, wait := 0,
             preds := framePreds g f g.live, flags := frameFlags g f g.live,
             depth := lanes32.map fun l => bits f (2307 + 4 * l) (2304 + 4 * l),
             phreg := bits f 3015 2984, frame := 0, fences := [], preempt := false }
  seeGroup (payOwed s1 k) k

/-- Bytes of a team's image: those of memory, under the writes that memory has not taken yet; nothing where they cannot be read. -/
def imageRead (s : State) (k : Nat) (t : Team) (im : Image) (off n : Nat) : State × Option (Option Bytes) :=
  let r := spillRead s t.core t.did k (im.addr + off) n
  let owed := fun (i : Nat) => im.pending.reverse.findSome? fun w => if w.1 ≤ off + i then w.2[off + i - w.1]? else none
  (r.1, r.2.map fun o => o.map fun bs => (upTo n).map fun i => (owed i).getD (bs.getD i 0#8))

/-- The replies kept for a group reach its reply buffer from its reply block (05 R81). -/
def giveReplies (s : State) (k : Nat) (t : Team) : State :=
  match t.image with
  | none => s
  | some im => (im.replies.filter fun r => r.1 == k).foldl (fun s r =>
      let bs := (upTo ((r.2.2.length + 127) / 128)).flatMap fun i =>
        match imageRead s (k / 64) t im (imageOff s t 4 + 256 * (k % 64) + 128 * i) (min 128 (r.2.2.length - 128 * i)) with
        | (_, some (some bs)) => bs
        | _ => (r.2.2.drop (128 * i)).take 128
      padPut s t r.2.1 bs) s

/-- A group in its handler for PREEMPT. -/
def inPreempt (g : Group) : Bool := match g.handler with | some h => h.trap.cause == cPREEMPT | none => false

/-- The frozen groups of a team thaw where the team stands, its resources in place; a group still in its PREEMPT handler thaws later.
A team in HELD waits for its launch again (05 R82, R83). What came due meanwhile, a marked team's MSG_OVERFLOW among it, is taken before
the first run (10 R164). -/
def thawFrames (s : State) (k : Nat) : State :=
  match s.team k with
  | none => s
  | some t =>
    let ms := (membersOf s k).filter fun e => e.2.st == .frozen || e.2.st == .evicted
    let late := (membersOf s k).any fun e => inPreempt e.2
    let one := fun (s : State) (e : Nat × Group) =>
      if t.held then s.modGroup e.1 fun g => { g with st := .held, frame := 0 }
      else match s.group e.1 with
        | some g => loadFrame (giveReplies s e.1 t) e.1 g
        | none => s
    let s1 := ms.foldl one s
    let s2 := s1.modTeam k fun t =>
      { t with frozen := false, freezing := false, thawing := late,
               resumed := if (t.frozen ∨ t.freezing) ∧ (!ms.isEmpty ∨ late) then (t.resumed + 1) % 2 ^ 32 else t.resumed,
               image := if late then t.image.map fun im => { im with replies := [] } else none }
    settleAll (ms.foldl (fun s e => takeAtRest s e.1) (deliverBound s2 k))

/-! ## THAW (05 R75, R82) -/

/-- A named team thaws in place, waits for room, or stops freezing. -/
def thawTeam (s : State) (did k : Nat) : State :=
  match s.team k with
  | none => s
  | some t =>
    if t.frozen then
      if t.evicted then s.modTeam k fun t => { t with thawing := true }
      else thawFrames s k
    else if t.freezing then
      let s1 := (s.mapGroups fun _ g => if g.team = k then { g with preempt := false } else g).modDom did fun d =>
        { d with freezing := d.freezing.filter (·.2 != k) }
      let fns := (((s.dom did).freezing.filter (·.2 == k)).map (·.1)).eraseDups
      let left := fun (s : State) (fn : Nat) => (s.dom did).freezing.any (·.1 == fn)
      fns.foldl (fun s fn => if left s fn then s else setFrost s fn 0) (thawFrames s1 k)
    else s

/-- THAW (05 R75). -/
def execThaw (s : State) : Out :=
  match s.ctl.ev with
  | some (.thaw fn did tgt) =>
    .next (command s fn (ownsDom s fn did)
      [(notIn s did [.live, .draining], 1), ((namedTeams s did tgt).isEmpty, 3)] fun s => (namedTeams s did tgt).foldl (fun s k => thawTeam s did k) s)
  | _ => .next s

/-! ## TEAM_THAW (05 R82) -/

/-- What a team holds, from which it is placed again: its register rows and which of them are poisoned, its scratchpad rows and their
tags, and its evicted scalar files. -/
structure Contents where
  rows : List (Nat × List Word)
  bad : List Nat
  pads : List (Nat × Bytes × SRow)
  files : List (Nat × List Word)
  deriving DecidableEq, Repr

/-- One evicted resource after another is read back from a team's image; nothing where one cannot be read. -/
def readEach {α : Type} (f : State → Nat → State × Option α) (s : State) : List Nat → State × Option (List α)
  | [] => (s, some [])
  | j :: js => match f s j with
    | (s1, none) => (s1, none)
    | (s1, some x) => match readEach f s1 js with
      | (s2, none) => (s2, none)
      | (s2, some xs) => (s2, some (x :: xs))

/-- Little-endian words. -/
def wordsOf (n : Nat) (bs : Bytes) : List Word := (upTo n).map fun i => BitVec.ofNat 32 (leVal ((bs.drop (4 * i)).take 4))

/-- An evicted register row and whether it is poisoned. -/
def recallRow (k : Nat) (t : Team) (im : Image) (s : State) (j : Nat) : State × Option (Nat × List Word × Bool) :=
  match imageRead s k t im (imageOff s t 0 + 128 * j) 128 with
  | (s1, none) => (s1, none)
  | (s1, some none) => (s1, some (j, List.replicate 32 0#32, true))
  | (s1, some (some bs)) => (s1, some (j, wordsOf 32 bs, im.bad.contains j))

/-- Two reads of 128 B each. -/
def recall256 (k : Nat) (t : Team) (im : Image) (s : State) (off : Nat) : State × Option (Option Bytes) :=
  match imageRead s k t im off 128 with
  | (s1, none) => (s1, none)
  | (s1, some a) => match imageRead s1 k t im (off + 128) 128 with
    | (s2, none) => (s2, none)
    | (s2, some b) => (s2, some (a.bind fun x => b.map (x ++ ·)))

/-- An evicted scratchpad row with its tag. -/
def recallPad (k : Nat) (t : Team) (im : Image) (s : State) (j : Nat) : State × Option (Nat × Bytes × SRow) :=
  match recall256 k t im s (imageOff s t 2 + 256 * j) with
  | (s1, none) => (s1, none)
  | (s1, some bs) => match imageRead s1 k t im (imageOff s t 3 + j) 1 with
    | (s2, none) => (s2, none)
    | (s2, some p) =>
      let old := ((im.tags.find? (·.1 == j)).map (·.2)).getD ⟨0, false, none, false⟩
      let tag := match p with
        | some p => { old with pend := (p.getD 0 0#8).toNat % 16, scrub := (p.getD 0 0#8).toNat.testBit 4 }
        | none => old
      (s2, some (j, bs.getD (List.replicate 256 0#8), { tag with poison := old.poison || bs.isNone }))

/-- An evicted scalar file, by %gid. -/
def recallFile (k : Nat) (t : Team) (im : Image) (s : State) (g : Nat) : State × Option (Nat × List Word) :=
  let i := if g = 32 then ((s.launchOf t).map Launch.groups).getD 0 else g
  match recall256 k t im s (imageOff s t 1 + 256 * i) with
  | (s1, none) => (s1, none)
  | (s1, some bs) => (s1, some (g, wordsOf 64 (bs.getD [])))

/-- All that a team holds: what stands in place, and what has been evicted, read back under the domain check (05 R82, 01 R18). -/
def readBack (s : State) (k : Nat) (t : Team) (im : Image) : State × Option Contents :=
  let mx := ((s.launchOf t).map (·.mx)).getD false
  match readEach (recallRow k t im) s im.evRows with
  | (s1, none) => (s1, none)
  | (s1, some rs) => match readEach (recallPad k t im) s1 im.evSram with
    | (s2, none) => (s2, none)
    | (s2, some ps) => match readEach (recallFile k t im) s2 (im.evSregs.filter fun g => g != 32 || mx) with
      | (s3, none) => (s3, none)
      | (s3, some fs) =>
        let rows := (upTo t.rowCnt).filter fun j => !im.evRows.contains j
        let pads := (upTo t.sramCnt).filter fun j => !im.evSram.contains j
        (s3, some {
          rows := rows.map (fun j => (j, s.row t.core (t.rowBase + j))) ++ rs.map (fun x => (x.1, x.2.1)),
          bad := rows.filter (fun j => (s.rowTag t.core (t.rowBase + j)).poison) ++ (rs.filter (·.2.2)).map (·.1),
          pads := pads.map (fun j => (j, padBytes s t (256 * j) 256, s.srow t j)) ++ ps,
          files := fs })

/-- A team's resources stand in its new room. -/
def restore (s : State) (k : Nat) (t : Team) (c : Contents) : State :=
  let row (s : State) (e : Nat × List Word) : State :=
    let s1 := s.setRow t.core (t.rowBase + e.1) e.2
    s1.setCore { s1.core with rowTags := tset s1.core.rowTags (t.core * 6144 + t.rowBase + e.1) ⟨some t.did, c.bad.contains e.1⟩ }
  let pad (s : State) (e : Nat × Bytes × SRow) : State :=
    (s.setCore { s.core with sram := memPut s.core.sram (padKey t (256 * e.1)) e.2.1 }).modSrow t e.1 fun _ => { e.2.2 with owner := some t.did }
  let file (s : State) (e : Nat × List Word) : State :=
    (upTo 64).foldl (fun s n => s.setSreg (k * 64 + e.1) n (e.2.getD n 0#32)) s
  c.files.foldl file (c.pads.foldl pad (c.rows.foldl row s))

/-- The files of a team that moves: those that stayed with it leave what they hold in their slots; each file that its new slots have takes
its domain. -/
def moveFiles (s : State) (k : Nat) (t t1 : Team) (mx : Bool) : State :=
  let stay := (t.files mx).filter fun e => !t.awayFiles.contains e.1
  let s1 := stay.foldl (fun s e => copyFile s (k * 64 + e.1) (slotFile t.core e.2)) s
  (t1.files mx).foldl (fun s e => s.setCore
    { s.core with sregs := s.core.sregs.filter (fun x => x.1 / 64 != slotFile t1.core e.2),
                  fileTags := tset s.core.fileTags (t1.core * 80 + e.2) t1.did }) s1

/-- A team that waits moves into room on a core; false where a claim fails, or its image cannot be read. -/
def moveTeam (s : State) (k core : Nat) : State × Bool :=
  match s.team k with
  | none => (s, false)
  | some t => match t.image, s.launchOf t with
    | some im, some r =>
      match fitRoom s core t.part r k with
      | none => (s, false)
      | some room =>
        match readBack s k t im with
        | (s0, none) => (s0, false)
        | (s0, some all) =>
          let c := claim s0 core t.part k r room
          if !c.2 then c
          else
            let t1 : Team :=
              { t with core := core, slot := room.slot, slots := room.slots, rowBase := room.rowBase, sramBase := room.sramBase,
                       image := some { im with evRows := [], evSram := [], evSregs := [] } }
            let s1 := moveFiles (c.1.setTeam k t1) k t t1 r.mx
            let s2 := s1.mapGroups fun _ g => if g.team = k ∧ g.gid < 32 then { g with slot := room.slots.getD g.gid 0 } else g
            let s3 := moveUpds (restore s2 k t1 all) fun a =>
              let j := (a - padKey t 0) / 256
              if awayKey k ≤ a ∧ a < awayKey k + 256 * t.sramCnt then a - awayKey k + padKey t1 0
              else if padKey t 0 ≤ a ∧ a < padKey t (256 * t.sramCnt) ∧ !im.evSram.contains j then a - padKey t 0 + padKey t1 0
              else a
            (s3, true)
    | _, _ => (s, false)

/-- Room has come for a team that waits, or for its cluster: each takes its core and thaws. -/
def thawMove (s : State) (l : List (Nat × Nat)) : State :=
  let r := l.foldl (fun (a : State × Bool) e => if a.2 then moveTeam a.1 e.1 e.2 else a) (s, true)
  if !r.2 then s.keepAsked r.1
  else l.foldl (fun s e => thawFrames s e.1) r.1

/-- TEAM_THAW: a team that waits for room takes it; a group that froze after its team's THAW thaws in place (05 R82, R83). -/
def execTeamThaw (s : State) : Out :=
  match s.ctl.ev with
  | some (.teamThaw k) => .next (whenUp s fun s =>
      match s.team k with
      | some t =>
        if !t.thawing ∨ t.retired ∨ notIn s t.did [.live, .draining] then s
        else if t.waitsRoom then
          match if mayPlace s then thawCores s k t else none with
          | some l => thawMove s l
          | none => s
        else if (membersOf s k).any fun e => inPreempt e.2 then s
        else thawFrames s k
      | none => s)
  | _ => .next s

end Sys2Proof.Machine
end

