-- ==== Sys2Proof/Machine/MemEvents.lean ====
section
/-! DEFINITION. The events of the memory pipeline: injection (05 R73), the crossbar (10 R157), the ordering points (07 R108 to
R113, 18 R311 to R317) and replies (07 R106, R108). -/

namespace Sys2Proof.Machine

/-! ## Injection -/

/-- A request is injected: it leaves its queue, and a release takes its floor as it is sent (08 R129, 06 R103). -/
def injectReq (s : State) (core part i : Nat) (q : Req) : State :=
  let s1 := s.modCore core fun c => { c with inj := tset c.inj part ((injQueue s core part).filter (· != i)) }
  if q.op.isRange then pumpOne (s1.setReq i { q with stage := .inject, paid := q.beats }) i
  else
    let (n, s2) := s1.fresh
    let floor := match s2.group q.grp with
      | some g => if q.held || q.sc then q.gts.maxAt g.gts g.gts.ep else q.gts
      | none => q.gts
    s2.setReq i { q with stage := .net, hops := requestRoute s2 core q.point, enq := n, t0 := s2.sys.fab, gts := floor }

/-- A message is injected. -/
def injectMsg (s : State) (core part i : Nat) (m : Msg) : State :=
  let s1 := s.modCore core fun c => { c with inj := tset c.inj part ((injQueue s core part).filter (· != i)) }
  let (n, s2) := s1.fresh
  s2.setFly { s2.fly with msgs := tset s2.fly.msgs i { m with sent := true, hops := msgRoute s2 m, enq := n, t0 := s2.sys.fab } }

/-- A lease renewal waits on no bucket: it passes a head that waits for a token, but no request of its group to its ordering point
(05 R73, 08 R123). -/
def passRenewal (s : State) (core part : Nat) : State :=
  let l := injQueue s core part
  let of := fun (j : Nat) => (s.req j).map fun q => (q.grp, q.point)
  match l.find? fun i => (s.req i).any (·.renew.isSome) && (l.takeWhile (· != i)).all fun j => of j != of i with
  | some i => match s.req i with
    | some q => injectReq s core part i q
    | none => s
  | none => s

/-- The head of a partition's injection queue on a core is injected once its buckets have given the tokens of each of its beats
(05 R73). -/
def grantTokens (s : State) (core part : Nat) : State :=
  match injQueue s core part with
  | [] => s
  | i :: _ =>
    match s.req i, tget s.fly.msgs i with
    | some q, _ =>
      let n := beatsHeld s core part q.beatCost (q.beats - q.paid)
      if n = q.beats - q.paid then injectReq (spendTokens s core part (tokensOf q)) core part i q
      else if n = 0 then passRenewal s core part
      else passRenewal ((spendTokens s core part (costOf q.beatCost n)).setReq i { q with paid := q.paid + n }) core part
    | none, some m =>
      let n := beatsHeld s core part m.beatCost (m.beats - m.paid)
      if n = m.beats - m.paid then injectMsg (spendTokens s core part (msgTokens m)) core part i m
      else if n = 0 then passRenewal s core part
      else
        let s1 := spendTokens s core part (costOf m.beatCost n)
        passRenewal (s1.setFly { s1.fly with msgs := tset s1.fly.msgs i { m with paid := m.paid + n } }) core part
    | none, none => s.modCore core fun c => { c with inj := tset c.inj part ((injQueue s core part).filter (· != i)) }

/-- BEAT_TOKEN_GRANT (05 R73): the head of the injection queue; where nothing waits there, the operations of words on device phasers that
wait for a token are tried. -/
def execBeatTokenGrant (s : State) : Out :=
  match s.ctl.ev with
  | some (.beatTokenGrant core part) => .next (whenUp s fun s =>
      if (injQueue s core part).isEmpty then settleAll s else grantTokens s core part)
  | _ => .next s

/-! ## The crossbar -/

/-- A packet that stands before a crossbar: a request, or a message. -/
structure Packet where
  msg : Bool
  id : Nat
  inp : Nat
  enq : Nat
  deriving DecidableEq, Repr

/-- The packets that stand before the inputs of a die's crossbar, with the output that each wants. -/
def packetsAt (s : State) (d : Nat) (resp : Bool) : List (Nat × Packet) :=
  let want := fun (h : Option Hop) => h.bind fun h => if h.die = d ∧ h.resp = resp then some (h.out, h.inp) else none
  (s.fly.reqs.filterMap fun e => if e.2.stage = .net ∨ e.2.stage = .back then
      (want e.2.hops.head?).map fun x => (x.1, ⟨false, e.1, x.2, e.2.enq⟩) else none) ++
  (s.fly.msgs.filterMap fun e => (want e.2.hops.head?).map fun x => (x.1, ⟨true, e.1, x.2, e.2.enq⟩))

/-- The packets offered to an output: each input offers one, the oldest that it holds (10 R156). -/
def packetsFor (s : State) (d : Nat) (resp : Bool) (out : Nat) : List Packet :=
  let all := packetsAt s d resp
  (all.filter fun p => p.1 == out && all.all fun q => q.2.inp != p.2.inp || decide (p.2.enq ≤ q.2.enq)).map (·.2)

/-- The ranks of a column; at reset rank(i, j) = N - 1 - i (10 R157). -/
def ranksOf (s : State) (d : Nat) (resp : Bool) (out : Nat) : List Nat :=
  let n := if resp then 48 else 64
  (tget (s.die d).ranks ((if resp then 64 else 0) + out)).getD ((upTo n).map fun i => n - 1 - i)

/-- The ranks after input w is granted: each below it rises by one and its own becomes 0 (10 R157). -/
def ranksAfter (r : List Nat) (w : Nat) : List Nat :=
  (upTo r.length).map fun i =>
    if i = w then 0 else if r.getD i 0 < r.getD w 0 then r.getD i 0 + 1 else r.getD i 0

/-- The partition of the sender of a message. -/
def msgPart (s : State) (m : Msg) : Nat := ((s.team (m.grp / 64)).map (·.part)).getD (s.dom m.did).part

/-- A granted packet leaves its input: it enters the queue of its next crossing, or it has arrived. -/
def advance (s : State) (p : Packet) : State :=
  let (n, s1) := s.fresh
  if p.msg then
    match tget s1.fly.msgs p.id with
    | none => s1
    | some m =>
      let first := m.hops.length == (msgRoute s1 m).length
      let s2 := if first then (upTo m.beats).foldl (fun s _ => sampleBaro s (msgPart s1 m) 0 (s1.sys.fab - m.t0)) s1 else s1
      s2.setFly { s2.fly with msgs := tset s2.fly.msgs p.id { m with hops := m.hops.tail, enq := n } }
  else
    match s1.req p.id with
    | none => s1
    | some q =>
      let first := q.stage == .net && q.hops.length == (requestRoute s1 q.core q.point).length
      let s2 := if first then (upTo q.beats).foldl (fun s _ => sampleBaro s q.part 0 (s1.sys.fab - q.t0)) s1 else s1
      s2.setReq p.id
        { q with hops := q.hops.tail, enq := n,
                 stage := if q.stage = .net ∧ q.hops.tail = [] then .point else q.stage,
                 t0 := if q.stage = .net ∧ q.hops.tail = [] then s1.sys.fab else q.t0 }

/-- An output grants, of the packets offered to it, that of the input with the highest rank (10 R156, R157). -/
def grantPacket (s : State) (d : Nat) (resp : Bool) (out : Nat) : State :=
  let r := ranksOf s d resp out
  match (packetsFor s d resp out).foldl (fun (b : Option Packet) p => match b with
      | none => some p
      | some c => if r.getD c.inp 0 < r.getD p.inp 0 then some p else some c) none with
  | none => s
  | some w =>
    advance (s.modDie d fun x =>
      { x with ranks := tset x.ranks ((if resp then 64 else 0) + out) (ranksAfter r w.inp) }) w

/-- PACKET_GRANT (10 R157). -/
def execPacketGrant (s : State) : Out :=
  match s.ctl.ev with
  | some (.packetGrant d resp out) => .next (whenUp s fun s => grantPacket s d resp out)
  | _ => .next s

/-! ## Ordering points -/

/-- The request has been performed or refused, and its reply sets out. -/
def sendReply (s : State) (i : Nat) (f : Req → Req) : State :=
  match s.req i with
  | none => s
  | some q =>
    let s0 := if q.point < 128 then sampleBaro s q.part 1 (s.sys.fab - q.t0) else if q.point < 136 then sampleBaro s q.part 2 (s.sys.fab - q.t0) else s
    let (n, s1) := s0.fresh
    s1.setReq i { f q with stage := .back, hops := replyRoute s1 q.point q.core, enq := n }

/-- A boundary trap of the group that issued a request. -/
def Req.trap (q : Req) (cause sub info owner : Nat) : Trap :=
  { cause := cause, sub := sub, info := info, pc := q.pc, depth := 0, mask := q.mask, word := false, owner := owner }

/-- The physical address of the first lane. -/
def Req.pa (q : Req) : Nat := (q.lanes.head?.map (·.pa)).getD 0

/-- The sectors of its line that a request touches. -/
def Req.sectors (q : Req) : List Nat :=
  [0, 1].filter fun i => q.lanes.any fun a => decide (a.pa % 256 < 128 * (i + 1) ∧ 128 * i < a.pa % 256 + a.size)

/-- The request reads data; a store and a PROBE do not (13 R207, 18 R314). -/
def ReqOp.reads (o : ReqOp) : Bool :=
  match o with
  | .store | .mst _ | .probe => false
  | _ => true

/-- The request writes every one of n bytes from an address. -/
def Req.covers (q : Req) (pa n : Nat) : Bool := (upTo n).all fun b => q.lanes.any fun a => decide (a.pa ≤ pa + b ∧ pa + b < a.pa + a.size)

/-- An access refused by check code 4, or a read that meets poison: it replies without being performed (01 R19, 13 R207). -/
def refuse (s : State) (i lk : Nat) (q : Req) : Option State :=
  match keyMismatch s lk q.sectors q.key with
  | some o => some (sendReply (logDomain s q.did 4 o q.core) i fun q => { q with fail := some (q.trap cDOMAIN 0 4 o) })
  | none =>
    if linePoisoned s lk q.sectors && q.op.reads then
      some (sendReply s i fun q => { q with fail := some (q.trap cECC (eccSub s lk q.sectors) (q.va / 128 * 128) 0) })
    else none

/-- The requests that stand at an ordering point before another of their group do so in issue order (08 R123): the request is the
first of its group there. -/
def firstAt (s : State) (i : Nat) (q : Req) : Bool :=
  s.fly.reqs.all fun e => decide (i ≤ e.1) || e.2.grp != q.grp || e.2.point != q.point ||
    !(e.2.stage == .point || e.2.stage == .bisnp)

/-- The request stands at an ordering point of these numbers, the first of its group. -/
def standsAt (s : State) (i lo hi : Nat) : Option Req :=
  match s.req i with
  | none => none
  | some q =>
    if (q.stage = .point ∨ q.stage = .bisnp) ∧ lo ≤ q.point ∧ q.point ≤ hi ∧ firstAt s i q then some q else none

/-- A load, prefetch or probe at the home slice or at the bridge (07 R108, R119, 18 R308, R314). -/
def performLoad (s : State) (i : Nat) (q : Req) : State :=
  match getLine s q.point q.pa with
  | .wait s1 => s1
  | .line lk s1 =>
    match refuse s1 i lk q with
    | some s2 => s2
    | none =>
      match s1.line lk with
      | none => s
      | some l =>
        let gts := s1.tsAt q.gts l.ep
        let bytes := (l.data.drop (bits q.pa 7 7 * 128)).take 128
        if q.op = .probe then
          sendReply s1 i fun q =>
            { q with ts := some (l.wts, l.rts, l.ep),
                     back := q.lanes.map fun a => (a.lane, l.wts + (if l.ep then 2 ^ 40 else 0)) }
        else if q.op = .prefetch true then sendReply s1 i id
        else if tsHolds (max l.wts gts + leaseLen 7) then s
        else
          let r := leaseLoad s1 lk gts q.renew
          match r.2.line lk with
          | none => s
          | some l1 =>
            sendReply r.2 i fun q =>
              { q with ts := some (l1.wts, l1.rts, l1.ep), bytes := bytes,
                       back := q.lanes.map fun a => (a.lane, loadValue a.size q.sx (bytes.drop (a.pa % 128))) }

/-- L2_LOAD (07 R108). -/
def execL2Load (s : State) : Out :=
  match s.ctl.ev with
  | some (.l2Load i) => .next (whenUp s fun s =>
      match standsAt s i 0 136 with
      | some q =>
        if q.point < 128 ∨ q.point = 136 then
          match q.op with
          | .load | .prefetch _ | .probe => performLoad s i q
          | _ => s
        else s
      | none => s)
  | _ => .next s

/-- A write to a line the host may hold first sends BISnp and waits; a write at the bridge needs its host lines in E or M
(07 R118, R119). The line may be written where this answers nothing. -/
def writeWaits (s : State) (i lk : Nat) (q : Req) : Option State :=
  match s.line lk with
  | none => some s
  | some l =>
    if bridgeBase ≤ lk then
      if q.lanes.all fun a => decide (2 ≤ l.mesi.getD (a.pa % 256 / 64) 0) then none else some s
    else if l.h then
      some ((if awaitsBirsp s l.pa then s else sendBisnp s l.pa true).modReq i fun q => { q with stage := .bisnp })
    else none

/-- A bridge line whose written host lines are M. -/
def ownHost (s : State) (lk : Nat) (q : Req) : State :=
  if lk < bridgeBase then s
  else match s.line lk with
    | none => s
    | some l =>
      s.setLine lk { l with mesi := (upTo 4).map fun j =>
        if (q.lanes.any fun a => decide (a.pa % 256 / 64 = j)) then 3 else l.mesi.getD j 0 }

/-- A write of a request that holds its line: the new bytes, the sectors it marks dirty and those it writes whole, and the values it
returns (07 R109, R110). -/
def performWrite (s : State) (i : Nat) (q : Req) (f : Bytes → Bytes × List (Nat × Nat)) (marks : Bytes → Bytes → Nat) : State :=
  match getLine s q.point q.pa with
  | .wait s1 => s1
  | .line lk s1 =>
    match refuse s1 i lk q with
    | some s2 => s2
    | none =>
      match writeWaits s1 i lk q with
      | some s2 => s2
      | none =>
        let s2 := adoptKey s1 lk q.key
        match s2.line lk with
        | none => s
        | some l =>
          let gts := s2.tsAt q.gts l.ep
          if tsHolds (writeTs s2 l gts) then s
          else
            let r := f l.data
            let cover := fun (j : Nat) => q.covers (l.pa * 256 + 128 * j + (if bridgeBase ≤ lk then 2 ^ 51 else 0)) 128
            let whole := (if cover 0 then 1 else 0) + (if cover 1 then 2 else 0)
            let w := leaseWrite s2 q.point lk gts r.1 (marks l.data r.1) (if q.op.reads then 0 else whole)
            sendReply (ownHost w.2 lk q) i fun q => { q with ts := some (w.1, w.1, l.ep), back := r.2 }

/-- The bytes of a store's lanes placed in a line, the highest-numbered lane's last (18 R306). -/
def storeLanes (q : Req) (data : Bytes) : Bytes :=
  q.lanes.foldl (fun d a => overlay d (a.pa % 256) (leOf a.size a.data)) data

/-- L2_STORE (07 R109, R102 for each copy's part of an MST). -/
def execL2Store (s : State) : Out :=
  match s.ctl.ev with
  | some (.l2Store i) => .next (whenUp s fun s =>
      match standsAt s i 0 136 with
      | some q =>
        if q.point < 128 ∨ q.point = 136 then
          match q.op with
          | .store | .mst _ =>
            performWrite s i q (fun d => (storeLanes q d, [])) fun _ _ =>
              q.sectors.foldl (fun m j => m ||| (1 <<< j)) 0
          | _ => s
        else s
      | none => s)
  | _ => .next s

/-- One lane of an atomic on a run of bytes: the bytes after it and the old value (18 R311, R312). -/
def atomicLane (o : ReqOp) (base : Nat) (d : Bytes) (a : LaneAcc) : Bytes × Nat :=
  let off := a.pa - base
  let v := leVal ((d.drop off).take a.size)
  let x := match o with
    | .atomic op | .red op => atomicValue op a.size v a.data
    | .cas => if v = a.data then a.data2 else v
    | _ => v
  (overlay d off (leOf a.size x), v)

/-- All lanes of an atomic request. -/
def atomicLanes (q : Req) (base : Nat) (d : Bytes) : Bytes × List (Nat × Nat) :=
  q.lanes.foldl (fun (r : Bytes × List (Nat × Nat)) a =>
    let x := atomicLane q.op base r.1 a
    (x.1, r.2 ++ [(a.lane, x.2)])) (d, [])

/-! ### Queue lines (18 R315 to R317) -/

/-- The header of a queue line is valid. -/
def queueValid (h : Nat) : Bool :=
  let cap := bits h 37 32
  decide (1 ≤ cap ∧ cap ≤ 60) && bits h 127 39 == 0 && decide ((bits h 31 16 + 65536 - bits h 15 0) % 65536 ≤ cap)

/-- FPUSH of values on a queue line: all of them, or OVF and none (18 R316). -/
def queuePush (d : Bytes) (vs : List Nat) : Bytes :=
  let h := leVal (d.take 16)
  let cap := bits h 37 32
  let tail := bits h 31 16
  let n := (tail + 65536 - bits h 15 0) % 65536
  if !queueValid h then d
  else if cap < n + vs.length then overlay d 0 (leOf 16 (setBits h 38 38 1))
  else
    let d1 := (upTo vs.length).foldl (fun d j => overlay d (16 + 4 * ((tail + j) % cap)) (leOf 4 (vs.getD j 0))) d
    overlay d1 0 (leOf 16 (setBits h 31 16 (tail + vs.length)))

/-- FPOP for a number of lanes: the line after it, and the results in lane order (18 R316). -/
def queuePop (d : Bytes) (k : Nat) : Bytes × List Nat :=
  let h := leVal (d.take 16)
  let cap := bits h 37 32
  let head := bits h 15 0
  let n := (bits h 31 16 + 65536 - head) % 65536
  let m := if queueValid h then min n k else 0
  (if queueValid h then overlay d 0 (leOf 16 (setBits h 15 0 (head + m))) else d,
   (upTo k).map fun j => if j < m then leVal ((d.drop (16 + 4 * ((head + j) % cap))).take 4) + 2 ^ 32 else 0)

/-- L2_ATOMIC (07 R110, 18 R311, R312, R316). -/
def execL2Atomic (s : State) : Out :=
  match s.ctl.ev with
  | some (.l2Atomic i) => .next (whenUp s fun s =>
      match standsAt s i 0 136 with
      | some q =>
        if q.point < 128 ∨ q.point = 136 then
          match q.op with
          | .atomic _ | .red _ | .cas => performWrite s i q (atomicLanes q (q.pa / 256 * 256)) changedSectors
          | .push => performWrite s i q (fun d => (queuePush d (q.lanes.map (·.data)), [])) changedSectors
          | .pop =>
            performWrite s i q (fun d =>
              let r := queuePop d q.lanes.length
              (r.1, (q.lanes.map (·.lane)).zip r.2)) changedSectors
          | _ => s
        else s
      | none => s)
  | _ => .next s

/-! ### Stack engines (07 R113) -/

/-- The 64 B lines an access touches that the bridge's snoop filter records (07 R118). -/
def snooped64 (s : State) (q : Req) : List Nat :=
  s.mem.bridge.snoop.filter fun n => q.lanes.any fun a => decide (a.pa < 64 * (n + 1) ∧ 64 * n < a.pa + a.size)

/-- The bytes of a stack's DRAM over an access's lanes, from its first sector on. -/
def engineBytes (s : State) (q : Req) : Bytes :=
  sectorPlain s (q.pa / 256 * 2) ++ sectorPlain s (q.pa / 256 * 2 + 1)

/-- An access to an MS page at its stack engine. -/
def performMs (s : State) (i : Nat) (q : Req) : State :=
  let secs := q.sectors.map fun j => q.pa / 256 * 2 + j
  match secs.find? fun n => (s.sector n).key != q.key with
  | some n =>
    sendReply (logDomain s q.did 4 (s.sector n).key q.core) i fun q => { q with fail := some (q.trap cDOMAIN 0 4 0) }
  | none =>
    if secs.any (fun n => (s.sector n).poison) && q.op.reads then
      sendReply s i fun q => { q with fail := some (q.trap cECC 1 (q.va / 128 * 128) 0) }
    else
      let hits := snooped64 s q
      if q.op.writes && !hits.isEmpty then
        let b := s.mem.bridge
        (s.setMem { s.mem with bridge := { b with bisnp := b.bisnp ++
          (hits.filter fun n => !b.bisnp.any (·.1 == n)).map fun n => (n, true) } }).modReq i fun q => { q with stage := .bisnp }
      else
        let st := q.point - 128
        let gts := s.tsAt q.gts (s.engineClock st).ep
        if tsHolds (max ((s.engineClock st).v + 1) gts) then s
        else
          let t := engineTick s st gts q.op.writes
          let d := engineBytes s q
          let put := fun (s : State) (new : Bytes) =>
            q.sectors.foldl (fun s j => engineWrite s (q.pa / 256 * 256 + 128 * j) ((new.drop (128 * j)).take 128)
              (!q.op.reads && q.covers (q.pa / 256 * 256 + 128 * j) 128)) s
          let ep := (s.engineClock st).ep
          match q.op with
          | .load =>
            sendReply t.2 i fun q =>
              { q with ts := some (t.1, t.1, ep),
                       back := q.lanes.map fun a => (a.lane, loadValue a.size q.sx (d.drop (a.pa % 256))) }
          | .probe =>
            sendReply t.2 i fun q =>
              { q with ts := some (t.1, t.1, ep), back := q.lanes.map fun a => (a.lane, t.1 + (if ep then 2 ^ 40 else 0)) }
          | .store | .mst _ => sendReply (put t.2 (storeLanes q d)) i fun q => { q with ts := some (t.1, t.1, ep) }
          | .atomic _ | .red _ | .cas =>
            let r := atomicLanes q (q.pa / 256 * 256) d
            sendReply (put t.2 r.1) i fun q => { q with ts := some (t.1, t.1, ep), back := r.2 }
          | _ => sendReply s i id

/-- MS_ACCESS (07 R113). -/
def execMsAccess (s : State) : Out :=
  match s.ctl.ev with
  | some (.msAccess i) => .next (whenUp s fun s =>
      match standsAt s i 128 135 with
      | some q => performMs s i q
      | none => s)
  | _ => .next s

/-! ## Replies -/

/-- A sector filled into the L1 from a reply (07 R108). -/
def fillFrom (s : State) (q : Req) : State :=
  match q.ts with
  | some (wts, rts, ep) =>
    if q.bytes.isEmpty ∨ q.na then s
    else
      let (n, s1) := s.fresh
      s1.modCore q.core fun c =>
        l1Fill c q.part { way := 0, pa := q.pa / 128, did := q.did, wts := wts, rts := rts, ep := ep, rbc := rbcOf s ep, data := q.bytes, used := n }
  | none => s

/-- A LINK trap of a remote access that ended unperformed: the link in [2:0] and the reason in [15:8] (18 R307). -/
def linkTrap (q : Req) (reason : Nat) : Trap := q.trap cLINK 0 (q.rmt.getD 0 + reason * 256) 0

/-- A reply reaches the core: the group's timestamp rises, an L1 sector is filled, values go to their result, and requests that
waited for it may go (07 R106, R108, 08 R129). A PREF leaves %gts as it is (18 R308), a remote reply carries no timestamp
(18 R307). -/
def receiveReply (s : State) (i : Nat) (q : Req) : State :=
  let s1 := match q.ts with
    | some (wts, _, ep) => if q.op = .prefetch false ∨ q.op = .prefetch true then s else raiseAll s q.grp ⟨wts, ep⟩
    | none => s
  let s2 := fillFrom s1 q
  let s3 := match q.fail with
    | some t => if q.op = .prefetch false ∨ q.op = .prefetch true then s2 else addBoundaryTrap s2 q.grp t
    | none => match q.res with
      | some rid => deliver s2 q.grp rid q.back
      | none => s2
  settleAll (seeGroup (endReq s3 i) q.grp)

/-- What a peer device answers to a remote access that stands at its link (18 R307). -/
def receivePeer (s : State) (i : Nat) (q : Req) (a : PeerReply) : State :=
  match a with
  | .none => s
  | .done old => receiveReply s i { q with ts := none, back := (q.lanes.map (·.lane)).zip old }
  | .failed r => receiveReply s i { q with ts := none, fail := some (linkTrap q r) }

/-- REPLY_RECEIVED (07 R106). -/
def execReplyReceived (s : State) : Out :=
  match s.ctl.ev with
  | some (.replyReceived i peer) => .next (whenUp s fun s =>
      match s.req i with
      | some q =>
        if q.stage = .back ∧ q.hops = [] then receiveReply s i q
        else if q.stage = .point ∧ 137 ≤ q.point ∧ q.point < 145 then receivePeer s i q peer
        else s
      | none => s)
  | _ => .next s

/-! ## Messages and updates that arrive -/

/-- A message that has crossed reaches its destination after those of its sender that set out before it. -/
def messageArrives (s : State) (i : Nat) : State :=
  match tget s.fly.msgs i with
  | some m =>
    let first := !s.fly.msgs.any fun e => decide (e.1 < i) && e.2.core == m.core && e.2.steam == m.steam && e.2.did == m.did &&
      e.2.dteam == m.dteam && e.2.link == m.link
    if m.sent && m.hops.isEmpty && first then settleAll (takeMsg s i m) else s
  | none => s

/-- MESSAGE_ARRIVAL (10 R163). -/
def execMessageArrival (s : State) : Out :=
  match s.ctl.ev with
  | some (.messageArrival i) => .next (whenUp s fun s => messageArrives s i)
  | _ => .next s

/-- PEER_ARRIVAL (10 R166). -/
def execPeerArrival (s : State) : Out :=
  match s.ctl.ev with
  | some (.peerArrival a) => .next (whenUp s fun s => settleAll (peerArrival s a))
  | _ => .next s

/-- ENGINE_PHASER_UPDATE (11 R179). -/
def execEnginePhaserUpdate (s : State) : Out :=
  match s.ctl.ev with
  | some (.enginePhaserUpdate i) => .next (whenUp s fun s =>
      match tget s.fly.upds i with
      | some u => if u.held || u.parked || u.order != 0 then s else settleAll (arriveUpd s i u)
      | none => s)
  | _ => .next s

end Sys2Proof.Machine
end

