-- ==== Sys2Proof/Machine/Paging.lean ====
section
/-! DEFINITION. Walks, page requests and their answers, invalidation (09 R148 to R154), the replay of catalogued accesses (13 R205, R206), and
uncorrectable errors (13 R207). -/

namespace Sys2Proof.Machine

/-! ## Walks (09 R148) -/

/-- A request whose walk has ended with a leaf: it proceeds where the leaf permits it. -/
def walkedLeaf (s : State) (i : Nat) (e : TlbEntry) (page : Nat) : State :=
  match s.req i with
  | none => s
  | some q =>
    if allowed e.pte q.op.access then useLeaf s i q e
    else match q.op with
      | .prefetch _ => dropPref s i
      | _ => faultAtRest (failAccess s i page rPerm e.lvl q.op.access) q.grp

/-- A request whose walk has failed: a PREF is dropped; any other is catalogued, and a group that waits for it is fault-parked. -/
def walkedFail (s : State) (i page reason lvl : Nat) : State :=
  match s.req i with
  | none => s
  | some q => match q.op with
    | .prefetch _ => dropPref s i
    | _ => faultAtRest (failAccess s i page reason lvl q.op.access) q.grp

/-- A request whose walk has met a leaf of another key (09 R144): a DOMAIN fault, before the run where it is a fetch. -/
def walkedAlien (s : State) (i owner : Nat) : State :=
  match s.req i with
  | none => s
  | some q => match q.op with
    | .prefetch _ => dropPref s i
    | .fetch =>
      let s1 := endReq s i
      if (s.group q.grp).any (·.handler.isSome) then stopDomain (logDomain s1 q.did 4 owner q.core) q.did 2 cDOMAIN q.core 4
      else takeAtRest (domainFault s1 q.grp q.did q.core 4 owner q.pc q.mask 0) q.grp
    | _ => takeAtRest (endReq (domainFault s q.grp q.did q.core 4 owner q.pc q.mask 0) i) q.grp

/-- The requests of a die that wait for the walk of a page, in order of issue. -/
def walkers (s : State) (die did page : Nat) : List (Nat × Req) :=
  s.fly.reqs.filter fun e => e.2.stage == .walk && e.2.core / 48 == die && e.2.did == did && e.2.page == page

/-- A range of pages of a TLBINV meets the pages of an entry. -/
def rangeMeets (r : PageRange) (page n : Nat) : Bool :=
  match r with
  | .whole => true
  | .pages va count => runsMeet (va / 2 ^ 14) count page n

/-- The pages that a TLB entry maps. -/
def TlbEntry.pages (e : TlbEntry) : Nat := 2 ^ (11 * e.lvl)

/-- Every TLB and walk cache entry of a domain that overlaps a range is dropped (09 R150). -/
def dropRange (s : State) (did : Nat) (r : PageRange) : State :=
  let keep := fun (e : TlbEntry) => e.did != did || !rangeMeets r e.page e.pages
  let keepW := fun (w : Nat × Nat × Nat × Nat) => w.1 != did || !rangeMeets r (w.2.2.1 * 2 ^ (11 * w.2.1)) (2 ^ (11 * w.2.1))
  let s1 := s.setMem { s.mem with dies := s.mem.dies.map fun e =>
    (e.1, { e.2 with tlb := e.2.tlb.filter keep, wcache := e.2.wcache.filter keepW }) }
  s1.setCore { s1.core with cores := s1.core.cores.map fun e => (e.1, { e.2 with tlb := e.2.tlb.filter keep }) }

/-- A walk that a TLBINV awaits has ended: what it inserted is dropped, and the accesses that it served are awaited (09 R150). -/
def noteWalk (s : State) (die did page : Nat) (ids : List Nat) : State :=
  let l := (s.dom did).tlbinv
  let hit := fun (x : Inval) => x.walks.contains (die, page)
  let s1 := (l.filter hit).foldl (fun s x => dropRange s did x.range) s
  let note := fun (x : Inval) =>
    if hit x then { x with walks := x.walks.filter (· != (die, page)), reqs := x.reqs ++ ids } else x
  if l.any hit then s1.modDom did fun d => { d with tlbinv := d.tlbinv.map note } else s1

/-- A walk ends: its leaf fills the TLBs of the die and of the cores whose accesses it permits, the accesses that wait proceed or fail,
and its walker goes to a walk that waits for one. -/
def walkEnds (s : State) (die did page : Nat) : State :=
  let ws := walkers s die did page
  let s0 := s.modDie die fun d => { d with walks := d.walks.filter (· != (did, page)) }
  let w := walk s0 die did (page * 2 ^ 14)
  let sm := sampleWalk s0 did w.2
  grantWalkers (match w with
    | (.leaf e, ptrs) =>
      let ok := ws.filter fun w => allowed e.pte w.2.op.access
      let s1 := if ok.isEmpty then sm else tlbFill sm die (ok.map (·.2.core)).eraseDups e ptrs
      noteWalk (ws.foldl (fun s w => walkedLeaf s w.1 e page) s1) die did page (ok.map (·.1))
    | (.failed r l, _) => noteWalk (ws.foldl (fun s w => walkedFail s w.1 page r l) sm) die did page []
    | (.alien o, _) => noteWalk (ws.foldl (fun s w => walkedAlien s w.1 o) sm) die did page []) die

/-- PAGE_WALK_COMPLETE (09 R148). -/
def execPageWalkComplete (s : State) : Out :=
  match s.ctl.ev with
  | some (.pageWalkComplete die did page) => .next (whenUp s fun s =>
      if (s.die die).walks.contains (did, page) then settleAll (walkEnds s die did page) else s)
  | _ => .next s

/-! ## Invalidation (09 R150) -/

/-- A range breaks its limits. -/
def rangeBad (r : PageRange) : Bool :=
  match r with
  | .whole => false
  | .pages va n => decide (va % 2 ^ 14 ≠ 0 ∨ 2 ^ 57 ≤ va ∨ n < 1 ∨ 2 ^ 32 < n)

/-- An access that has been translated and has not been performed. -/
def inFlight (q : Req) : Bool :=
  match q.stage with
  | .inject | .queued | .net | .point | .bisnp => true
  | .walk | .catalogued | .back => false

/-- A request was translated through a leaf that overlaps a range, as every lane of it was through that of its page (09 R150). -/
def throughRange (r : PageRange) (q : Req) : Bool :=
  q.lanes.any fun a => rangeMeets r (a.va / pageBytes q.lvl * pageBytes q.lvl / 2 ^ 14) (2 ^ (11 * q.lvl))

/-- TLBINV (09 R150). -/
def execTlbinv (s : State) : Out :=
  match s.ctl.ev with
  | some (.tlbinv fn did range) =>
    .next (commandWith s fn (ownsDom s fn did) [(decide (255 < did), 3), (rangeBad range, 3)] fun s =>
      let mine := s.fly.reqs.filter fun e => e.2.did == did && e.2.pte.isSome && inFlight e.2 && throughRange range e.2
      let ws := (upTo 4).flatMap fun d => ((s.die d).walks.filter (·.1 == did)).map fun w => (d, w.2)
      let s1 := dropRange s did range
      (s1.setSys { s1.sys with status := tdel s1.sys.status fn }).modDom did fun d =>
        { d with tlbinv := d.tlbinv ++ [{ fn := fn, range := range, reqs := mine.map (·.1), walks := ws }] })
  | _ => .next s

/-- What a TLBINV awaits has happened. -/
def invalDone (s : State) (x : Inval) : Bool :=
  x.walks.isEmpty && x.reqs.all fun i => match s.req i with | some q => !inFlight q | none => true

/-- TLBINV_DONE (09 R150). -/
def execTlbinvDone (s : State) : Out :=
  match s.ctl.ev with
  | some (.tlbinvDone did) => .next (whenUp s fun s =>
      let l := (s.dom did).tlbinv
      (l.filter (invalDone s)).foldl (fun s x => setStatus s x.fn 0) (if l.any (invalDone s) then
        s.modDom did fun d => { d with tlbinv := d.tlbinv.filter fun x => !invalDone s x } else s))
  | _ => .next s

/-! ## The pending table and the request rings (09 R151, R152) -/

/-- PENDING_ENTRY_FREE: the failure that has waited longest joins an entry, or takes the one that is free. -/
def execPendingEntryFree (s : State) : Out :=
  match s.ctl.ev with
  | some (.pendingEntryFree die) => .next (whenUp s fun s => s.modDie die fun x =>
      match x.pendWait with
      | [] => x
      | p :: r =>
        let same := fun (e : PendEntry) => e.did == p.did && e.page == p.page && e.reason == p.reason
        if x.pend.any same then
          { x with pendWait := r, pend := x.pend.map fun e => if same e then { e with waiters := e.waiters ++ p.waiters } else e }
        else if x.pend.length < 256 then
          let id := freeReqid x
          { x with pendWait := r, pend := x.pend ++ [{ p with id := id }], reqid := (id + 1) % 65536 }
        else x)
  | _ => .next s

/-- A page request record (09 R152). -/
def requestRecord (die : Nat) (p : PendEntry) : Bytes :=
  leOf 32 (fieldsOf [(0, 8, p.did), (8, 4, p.reason), (12, 4, p.access), (16, 2, p.level), (18, 2, die), (20, 8, p.core), (32, 16, p.id),
    (64, 57, p.page * 2 ^ 14)])

/-- PAGE_REQUEST_WRITE: the record of an entry is written into the ring of the domain's function, or, as a copy, into that of the PF, where
the ring has room (09 R152). -/
def writeRequest (s : State) (die : Nat) (p : PendEntry) (fn : Nat) : State :=
  let r := s.prq fn
  if (fn ≠ 0 ∧ fn ≠ (s.dom p.did).part + 1) ∨ p.written.contains fn ∨ (r.tail + 2 ^ 32 - r.head) % 2 ^ 32 ≥ 2 ^ (r.order + 4) ∨
      hostPutHolds s (r.base + 32 * (r.tail % 2 ^ (r.order + 4))) 32 then s
  else
    let s1 := hostPut s (r.base + 32 * (r.tail % 2 ^ (r.order + 4))) (requestRecord die p)
    let s2 := s1.setSys { s1.sys with prq := tset s1.sys.prq fn { r with tail := (r.tail + 1) % 2 ^ 32 } }
    interrupt (s2.modDie die fun x => { x with pend := x.pend.map fun e => if e.id = p.id then { e with written := fn :: e.written } else e })
      fn iPAGE

/-- PAGE_REQUEST_WRITE (09 R152). -/
def execPageRequestWrite (s : State) : Out :=
  match s.ctl.ev with
  | some (.pageRequestWrite die reqid fn) => .next (whenUp s fun s =>
      match (s.die die).pend.find? (·.id == reqid) with
      | some p => writeRequest s die p fn
      | none => s)
  | _ => .next s

/-! ## Replay (13 R206) -/

/-- A catalogued request is re-issued: false where it fails again and stays, or waits for a walk of its page. -/
def replayReq (s : State) (i : Nat) (q : Req) : State × Bool :=
  if q.op.isRange then (s.modReq i fun q => { q with stage := .inject }, true)
  else match translateNow s q.core q.did q.va q.op.access with
    | .ok e _ s1 =>
      let s2 := useLeaf s1 i q e
      (if q.op = .fetch then freeEntries s2 q.core i else s2, true)
    | .busy s1 => (s.keepAsked s1, false)
    | .failed r l s1 => (pendFail s1 (q.core / 48) q.did q.page r q.op.access l q.core i, false)
    | .alien o s1 => (walkedAlien s1 i o, true)

/-- A fault-parked operation is tried again: false where it is parked again. -/
def replayOne (s : State) (i : Nat) : State × Bool :=
  match s.req i with
  | some q => if q.stage = .catalogued then replayReq s i q else (s, true)
  | none => match s.post i with
    | some p =>
      if !p.parked then (s, true)
      else
        let s1 := pumpPost (freeEntries (s.setPost i { p with parked := false }) p.core i) i
        (s1, !(s1.post i).any (·.parked))
    | none => match s.cmd i with
      | some c =>
        if !c.parked then (s, true)
        else
          let s1 := pumpCmd (freeEntries (s.modCmd i fun c => { c with parked := false }) c.core i) i
          (s1, !(s1.cmd i).any (·.parked))
      | none => (s, true)

/-- A group's entries are re-issued in the order of their issue, up to one that fails again (13 R206). -/
def replayGroup (s : State) (k : Nat) : State :=
  match s.group k with
  | none => s
  | some g =>
    ((sortBy (fun a b => decide (a ≤ b)) g.parked).foldl (fun (a : State × Bool) i => if a.2 then replayOne a.1 i else a) (s, true)).1

/-- The group of a fault-parked operation. -/
def parkedGroup (s : State) (i : Nat) : Option Nat :=
  match s.req i with
  | some q => some q.grp
  | none => match s.post i with
    | some p => some p.grp
    | none => match s.cmd i with
      | some c => if c.phase = 0 then some c.grp else none
      | none => none

/-- What a waiter of an answered entry does after RETRY (09 R153). -/
def retryWaiter (s : State) (i : Nat) : State :=
  match parkedGroup s i with
  | some k => replayGroup s k
  | none =>
    s.setFly { s.fly with cmds := tmod s.fly.cmds i fun c => { c with parked := false },
                          upds := tmod s.fly.upds i fun u => { u with parked := false },
                          remotes := tmod s.fly.remotes i fun r => { r with parked := false } }

/-- A group leaves FAULT (04 R67), once every result of its run is written (04 R57): past the boundary of its run, to its handler, or to
READY or BLOCKED. -/
def leaveFault (s : State) (k : Nat) : State :=
  match s.group k with
  | none => s
  | some g =>
    if g.st ≠ .fault then s
    else
      let s1 := s.modGroup k fun g => { g with parked := [] }
      if g.run.isSome then
        let s2 := resultsStep (s1.modGroup k fun g => { g with st := if g.handler.isSome then .trap else .results }) k
        if (s2.group k).any fun x => x.run.isSome && x.st != .blocked && !(x.results.any fun r => !r.done && r.held) then s else s2
      else if g.handler.isSome then s1.modGroup k fun g => { g with st := .trap }
      else
        takeAtRest (seeGroup (s1.modGroup k fun g => { g with st := if g.owed.isEmpty then restState g.paths else .blocked }) k) k

/-- Every operation of the group that was fault-parked has completed. -/
def replayed (s : State) (g : Group) : Bool :=
  g.parked.all fun i => (s.req i).isNone && (s.post i).isNone && match s.cmd i with | some c => c.phase != 0 || !c.parked | none => true

/-- REPLAY_COMPLETE (13 R206). A replay that waited for a walk goes on. -/
def execReplayComplete (s : State) : Out :=
  match s.ctl.ev with
  | some (.replayComplete k) => .next (whenUp s fun s =>
      match s.group k with
      | some g =>
        if replayed s g then leaveFault s k
        else if g.st = .fault ∧ !g.parked.any (pageWaits s) then settleAll (replayGroup s k)
        else s
      | none => s)
  | _ => .next s

/-! ## The answer ERROR (09 R153) -/

/-- Nothing waits under these numbers any more. -/
def dropWaiters (s : State) (ids : List Nat) : State :=
  let one := fun (p : PendEntry) => { p with waiters := p.waiters.filter fun i => !ids.contains i }
  s.setMem { s.mem with dies := s.mem.dies.map fun e => (e.1, { e.2 with pend := e.2.pend.map one, pendWait := e.2.pendWait.map one }) }

/-- A fault-parked operation is dropped: its result is complete without a value. -/
def dropParked (s : State) (i : Nat) : State :=
  match s.req i with
  | some q => if q.stage = .catalogued then endReq s i else s
  | none => match s.post i with
    | some p =>
      let gone := fun (x : Wait) => match x with | .post j => j == i | _ => false
      if p.parked then
        (answerLanes (freeEntries (s.delPost i) p.core i) p []).modGroup p.grp fun g => (g.dropWaits gone).wakened
      else s
    | none => match s.cmd i with
      | some c =>
        let f := fun (r : Result) => if r.src = c.res ∧ c.res.isSome then { r with done := true } else r
        if c.parked ∧ c.phase = 0 then
          (freeEntries (s.delCmd i) c.core i).modGroup c.grp fun g => { g with results := g.results.map f }
        else s
      | none => s

/-- The address that a fault-parked operation named in a page. -/
def parkedVa (s : State) (i page : Nat) : Nat :=
  let pick := fun (l : List Nat) => (l.find? fun a => a / 2 ^ 14 == page).getD (page * 2 ^ 14)
  match s.req i with
  | some q => pick (q.lanes.map (·.va))
  | none => match s.post i with
    | some p => pick p.args
    | none => match s.cmd i with
      | some c => pick [c.blkAt]
      | none => page * 2 ^ 14

/-- A group's catalogued accesses are dropped, and it takes PAGE; a page fault in a handler stops the domain (09 R153, 13 R202). -/
def errorGroup (s : State) (k i : Nat) (e : PendEntry) : State :=
  match s.group k with
  | none => s
  | some g =>
    let info := parkedVa s i e.page % 2 ^ 57 + e.reason * 2 ^ 60
    let mask := match s.req i with
      | some q => q.mask
      | none => match s.post i with | some p => p.act | none => (s.cmd i).elim 0#32 (·.mask)
    let s1 := g.parked.foldl dropParked (dropWaiters s g.parked)
    if g.handler.isSome then stopDomain s1 (s.didOf g) 2 cPAGE (s.coreOf g) info
    else
      leaveFault (addBoundaryTrap s1 k
        { cause := cPAGE, sub := 0, info := info, pc := 0, depth := 0, mask := mask, word := false, owner := 0 }) k

/-- A grid whose DONEPH, record or arrival waited for the page goes on without it (02 R34). -/
def errorGrid (s : State) (id : Nat) : State :=
  match s.grid id with
  | none => s
  | some g =>
    if g.stage = 1 then recordDue s id { g with status := 2 }
    else if g.stage = 2 then gridArrive s id g
    else closeGrid s id g

/-- What a waiter of an answered entry does after ERROR. A remote access ends with REMOTE_PAGE (18 R307); a team that waits for its image
goes on waiting, and asks again (log 75). -/
def errorWaiter (s : State) (e : PendEntry) (i : Nat) : State :=
  match parkedGroup s i with
  | some k => errorGroup s k i e
  | none =>
    if 2 ^ 62 ≤ i then s
    else if 2 ^ 60 ≤ i then
      let q := i - 2 ^ 60
      if (s.queue (q / 16) (q % 16)).st = .waiting ∨ (s.queue (q / 16) (q % 16)).st = .ready then queueError s (q / 16) (q % 16) 7 else s
    else match s.cmd i with
      | some _ => (failCmd s i 5).modCmd i fun c => { c with parked := false }
      | none => match tget s.fly.upds i with
        | some u => failCmd (s.setFly { s.fly with upds := tdel s.fly.upds i }) u.cmd 5
        | none => match tget s.fly.remotes i with
          | some r => endRemote s i r.acc (.failed 2)
          | none => errorGrid s i

/-- PGRESP: ignored where it names no pending entry, or a domain outside the function; refused where its code is neither RETRY nor
ERROR (09 R153). -/
def pgresp (s : State) (fn die reqid code : Nat) : State :=
  if 64 < fn ∨ !s.sys.up then s
  else match (s.die die).pend.find? (·.id == reqid) with
    | none => s
    | some e =>
      if !ownsDom s fn e.did then s
      else if !takesCommands s then setStatus s fn 1
      else if 1 < code then setStatus s fn 3
      else
        let s1 := s.modDie die fun x => { x with pend := x.pend.filter (·.id != reqid) }
        let s2 := e.waiters.foldl (fun s i => if code = 0 then retryWaiter s i else errorWaiter s e i) s1
        setStatus (settleAll s2) fn 0

/-- PGRESP with CODE 0, RETRY (09 R153). -/
def execPgrespRetry (s : State) : Out :=
  match s.ctl.ev with
  | some (.pgrespRetry fn die reqid) => .next (pgresp s fn die reqid 0)
  | _ => .next s

/-- PGRESP with another CODE: 1 is ERROR (09 R153). -/
def execPgrespError (s : State) : Out :=
  match s.ctl.ev with
  | some (.pgrespError fn die reqid code) => .next (pgresp s fn die reqid code)
  | _ => .next s

/-- CATALOGUE_ENTRY_FREE: the accesses that wait for entries take those that they may (13 R205). -/
def execCatalogueEntryFree (s : State) : Out :=
  match s.ctl.ev with
  | some (.catalogueEntryFree core) => .next (whenUp s fun s => s.modCore core fun c => takeWaiting c c.catWait.length)
  | _ => .next s

/-! ## Uncorrectable errors (13 R207) -/

/-- A sector of device memory is poisoned, with the clean copy of it that its line holds; the PF and the domain's VF hear of it. -/
def poisonSector (s : State) (pa : Nat) : State :=
  let n := pa / 128
  let c := s.sector n
  let s1 := s.setMem { s.mem with sectors := tset s.mem.sectors n { c with poison := true } }
  let s2 := match findLine s1 (homeSlice s1 pa) pa with
    | some lk => match s1.line lk with
      | some l => if l.dirty.testBit (n % 2) then s1 else s1.setLine lk { l with poison := l.poison ||| (1 <<< (n % 2)) }
      | none => s1
    | none => s1
  let s3 := interrupt s2 0 iECC
  if c.key < 256 then interrupt s3 ((s3.dom c.key).part + 1) iECC else s3

/-- ECC_UNCORRECTABLE (13 R207). -/
def execEccUncorrectable (s : State) : Out :=
  match s.ctl.ev with
  | some (.eccUncorrectable loc persists) => .next (whenUp s fun s =>
      match loc with
      | .dram pa => if persists ∧ isDevice pa then poisonSector s pa else s
      | .l2 pa =>
        match findLine s (homeSlice s pa) pa with
        | none => s
        | some lk => match s.line lk with
          | some l =>
            if l.dirty.testBit (bits pa 7 7) then s.setLine lk { l with poison := l.poison ||| (1 <<< bits pa 7 7) }
            else if persists then poisonSector s pa else s
          | none => s
      | .row core r =>
        s.setCore
          { s.core with rowTags := tset s.core.rowTags (core * 6144 + r % 6144) { s.rowTag core (r % 6144) with poison := true } }
      | .scratch core r =>
        let k := core * 4096 + r % 4096
        let t := (tget s.core.sramTags k).getD ⟨0, false, none, false⟩
        s.setCore { s.core with sramTags := tset s.core.sramTags k { t with poison := true } })
  | _ => .next s

end Sys2Proof.Machine
end

