-- ==== Sys2Proof/Machine/HostMem.lean ====
section
/-! DEFINITION. The host at device and host memory (07 R117 to R119): reads and writes over CXL.mem, snoops, back-invalidation, bridge lines;
the table windows (09 R143) and the frame key table (01 R382). -/

namespace Sys2Proof.Machine

/-! ## Which unit orders a host access -/

/-- Some leaf in the tree of a table of a level maps an address as a memory-side page (06 R99). -/
def mapsMs (s : State) (pa table : Nat) : Nat → Bool
  | 0 => (upTo 2048).any fun i =>
      let e := leVal (peek s (table + 8 * i) 8)
      pteV e && !pteBad s 0 e && pteMs e && decide (ptePa e ≤ pa ∧ pa < ptePa e + pageBytes 0)
  | l + 1 => (upTo (if l = 2 then 1024 else 2048)).any fun i =>
      let e := leVal (peek s (table + 8 * i) 8)
      pteV e && !pteBad s (l + 1) e &&
        (if pteL e then pteMs e && decide (ptePa e ≤ pa ∧ pa < ptePa e + pageBytes (l + 1))
         else inTables s (ptePa e) && mapsMs s pa (ptePa e) l)

/-- The host reaches an address at its stack engine: a page of some domain maps it with MS = 1. -/
def hostMs (s : State) (pa : Nat) : Bool :=
  s.adm.doms.any fun e => e.2.st != .free && inTables s e.2.root && mapsMs s pa e.2.root 3

/-- How a host access of a line ends: it must wait, or it is performed with the bytes read. -/
inductive HostAcc where
  | wait (s : State)
  | done (bs : Bytes) (s : State)

/-- The host clock in an epoch. -/
def htsAt (s : State) (ep : Bool) : Nat := s.tsAt ⟨s.mem.bridge.hts, s.mem.bridge.ep⟩ ep

/-- The host clock raised to a timestamp. -/
def raiseHtsTo (s : State) (t : Ts) : State := raiseHts s (s.tsAt t s.mem.bridge.ep)

/-- The bridge holds an operation that would set the host clock to this timestamp (07 R106). -/
def htsHolds (s : State) (t : Ts) : Bool := tsHolds (s.tsAt t s.mem.bridge.ep)

/-- A device write of a 256 B line has sent BISnp and is not yet performed (07 R118): that of a group; or that of another unit, whose line
keeps the mark until the write, while such a unit has work. -/
def writeAwaits (s : State) (line : Nat) : Bool :=
  (s.fly.reqs.any fun e => e.2.stage == .bisnp && e.2.lanes.any fun a => a.pa / 256 == line) ||
  (!(s.fly.cmds.isEmpty && s.fly.posts.isEmpty && s.fly.upds.isEmpty && s.fly.remotes.isEmpty &&
      !(s.work.grids.any fun e => e.2.stage != 0)) &&
    match findLine s (homeSlice s (256 * line)) (256 * line) with
    | some lk => (s.line lk).any (·.snooped)
    | none => false)

/-- A host read at a stack engine, recorded in the snoop filter; a full filter frees its oldest entry first, and a read that meets a
back-invalidation is taken after the write that sent it (07 R118, R120). -/
def hostReadMs (s : State) (pa n : Nat) : HostAcc :=
  let b := s.mem.bridge
  let lines := ((upTo 4).map (pa / 256 * 4 + ·)).filter fun l => decide (pa < 64 * (l + 1) ∧ 64 * l < pa + n)
  let rest := b.snoop.filter fun l => !lines.contains l
  let ep := (s.engineClock (stackOf pa)).ep
  if (lines.any fun l => b.bisnp.any (·.1 == l)) || writeAwaits s (pa / 256) || htsHolds s ⟨max (s.engineClock (stackOf pa)).v (htsAt s ep), ep⟩ then .wait s
  else if 16384 < rest.length + lines.length then
    .wait (snoopLines s (rest.take (rest.length + lines.length - 16384)))
  else
    let t := engineTick s (stackOf pa) (htsAt s ep) false
    let secs := (sectorsOf pa n).map (pa / 256 * 2 + ·)
    let data := if secs.any fun x => (s.sector x).poison then [] else
      ((secs.flatMap (sectorPlain s)).drop (pa - (secs.headD 0) * 128)).take n
    let s1 := t.2.setMem { t.2.mem with bridge := { t.2.mem.bridge with snoop := rest ++ lines } }
    .done data (raiseHtsTo s1 ⟨t.1, ep⟩)

/-- A host read at the home slice: a load with gts = hts that sets H; one that meets a back-invalidation is taken after the write that
sent it (07 R118, R120). -/
def hostReadLine (s : State) (pa n : Nat) : HostAcc :=
  match getLine s (homeSlice s pa) pa with
  | .wait s1 => .wait s1
  | .line lk s1 =>
    match s1.line lk with
    | none => .wait s1
    | some l =>
      if awaitsBirsp s1 l.pa || writeAwaits s1 l.pa || tsHolds (max l.wts (htsAt s1 l.ep) + leaseLen 7) || htsHolds s1 ⟨l.wts, l.ep⟩ then .wait s1
      else
        let r := (leaseLoad s1 lk (htsAt s1 l.ep) none).2
        match r.line lk with
        | none => .wait r
        | some l1 =>
          let data := if linePoisoned r lk (sectorsOf pa n) then [] else (l1.data.drop (pa % 256)).take n
          .done data (raiseHtsTo (r.setLine lk { l1 with h := true }) ⟨l1.wts, l1.ep⟩)

/-- A host write at a stack engine under a key index (07 R118, 01 R382). -/
def hostWriteMs (s : State) (pa key : Nat) (bs : Bytes) : HostAcc :=
  let ep := (s.engineClock (stackOf pa)).ep
  let at' : Ts := ⟨max ((s.engineClock (stackOf pa)).v + 1) (htsAt s ep), ep⟩
  let t := engineTick s (stackOf pa) (htsAt s ep) true
  let put (s : State) (i : Nat) : State :=
    let n := pa / 256 * 2 + i
    let old := sectorPlain s n
    let new := (upTo 128).map fun j =>
      let a := n * 128 + j
      if pa ≤ a ∧ a < pa + bs.length then bs.getD (a - pa) 0#8 else old.getD j 0#8
    let whole := decide (pa ≤ n * 128 ∧ n * 128 + 128 ≤ pa + bs.length)
    writeSector s n key new ((s.sector n).poison && !whole)
  if tsHolds at'.v || htsHolds s at' then .wait s else .done [] (raiseHtsTo ((sectorsOf pa bs.length).foldl put t.2) ⟨t.1, ep⟩)

/-- A host write at the home slice under a key index: a store with gts = hts that clears H (07 R118, 01 R382). -/
def hostWriteLine (s : State) (pa key : Nat) (bs : Bytes) : HostAcc :=
  match getLine s (homeSlice s pa) pa with
  | .wait s1 => .wait s1
  | .line lk s1 =>
    let s2 := adoptKey s1 lk key
    match s2.line lk with
    | none => .wait s1
    | some l =>
      let n := bs.length
      let at' : Ts := ⟨writeTs s2 l (htsAt s2 l.ep), l.ep⟩
      if tsHolds at'.v || htsHolds s2 at' then .wait s
      else
      let marks := (sectorsOf pa n).foldl (fun m j => m ||| (1 <<< j)) 0
      let whole := (if pa % 256 = 0 ∧ 128 ≤ n then 1 else 0) + (if pa % 256 ≤ 128 ∧ 256 ≤ pa % 256 + n then 2 else 0)
      let w := leaseWrite (s2.setLine lk { l with h := false }) (homeSlice s pa) lk (htsAt s2 l.ep) (overlay l.data (pa % 256) bs) marks whole
      .done [] (raiseHtsTo w.2 ⟨w.1, l.ep⟩)

/-- The words of text that a host write changes under a grid in progress of a domain that may fetch them (the frame's own; for host memory
any) stay known as they stood: a fetch may find
the old word or the new one (03 R46). Where no such grid runs, the new ones alone stand. -/
def noteText (s : State) (pa : Nat) (mine : Nat → Bool) (n : Nat) : State :=
  let runs := s.work.grids.any fun e => mine e.2.did && e.2.stage == 0 && !e.2.done
  let ws := ((upTo (n / 8 + 2)).map (pa / 8 + ·)).filter fun w => decide (8 * w < pa + n)
  let one := fun (t : Tab Nat) (w : Nat) =>
    if runs then (if (tget t w).isSome then t else tset t w (leVal (peek s (8 * w) 8))) else tdel t w
  s.setMem { s.mem with oldText := ws.foldl one s.mem.oldText }

/-- What a waiting host access has asked of the host stays asked; nothing else does. -/
def hostWaits (s s1 : State) : State := s.setMem { s.mem with bridge := { s.mem.bridge with bisnp := s1.mem.bridge.bisnp } }

/-- A host read of a run of bytes, line by line. -/
def hostReadRun (s : State) : Nat → Nat → Nat → HostAcc
  | 0, _, _ => .done [] s
  | fuel + 1, pa, n =>
    if n = 0 then .done [] s
    else
      let k := min n (256 - pa % 256)
      match (if hostMs s pa then hostReadMs s pa k else hostReadLine s pa k) with
      | .wait s1 => .wait s1
      | .done bs s1 =>
        match hostReadRun s1 fuel (pa + k) (n - k) with
        | .wait s2 => .wait s2
        | .done r s2 => .done (bs ++ r) s2

/-- HOST_READ: bytes of device memory outside the table region (07 R118). -/
def execHostRead (s : State) : Out :=
  match s.ctl.ev with
  | some (.hostRead pa n) => .next (whenUp s fun s =>
      if 2 ^ 39 < pa + n ∨ (pa < s.sys.tbase + s.sys.tsize ∧ s.sys.tbase < pa + n) then s
      else match hostReadRun s (n / 256 + 2) pa n with
        | .wait s1 => hostWaits s s1
        | .done bs s1 => s1.setSys { s1.sys with hostRead := bs })
  | _ => .next s

/-- An entry of the PF status. -/
def logPf (s : State) (pa : Nat) : State := s.setSys { s.sys with pfLog := s.sys.pfLog ++ [pa] }

/-- The key index under which the host writes a frame, where its entry is valid (01 R382). -/
def hostKey (s : State) (pa : Nat) : Option Nat :=
  if inTables s pa then none
  else match tget s.sys.frameKeys (pa / 2 ^ 14) with
    | some (true, k) => some k
    | _ => none

/-- A host write of a run of bytes, line by line; what falls in a frame without an entry is dropped and logged. -/
def hostWriteRun (s : State) : Nat → Nat → Bytes → HostAcc
  | 0, _, _ => .done [] s
  | fuel + 1, pa, bs =>
    if bs.isEmpty then .done [] s
    else
      let k := min bs.length (256 - pa % 256)
      let r := match hostKey s pa with
        | none => HostAcc.done [] (logPf s pa)
        | some key =>
          let s0 := noteText s pa (· == key) k
          if hostMs s pa then hostWriteMs s0 pa key (bs.take k) else hostWriteLine s0 pa key (bs.take k)
      match r with
      | .wait s1 => .wait s1
      | .done _ s1 => hostWriteRun s1 fuel (pa + k) (bs.drop k)

/-- HOST_WRITE (07 R118, 01 R382). -/
def execHostWrite (s : State) : Out :=
  match s.ctl.ev with
  | some (.hostWrite pa bs) => .next (whenUp s fun s =>
      if 2 ^ 39 < pa + bs.length then s
      else match hostWriteRun s (bs.length / 256 + 2) pa bs with
        | .wait s1 => hostWaits s s1
        | .done _ s1 => settleAll s1)
  | _ => .next s

/-- HOST_SNOOP: the host takes its lines of host memory from the bridge and writes bytes there; none where it only snoops (07 R119). One
that would take the host clock past the last timestamp waits for the rebase (07 R106). -/
def execHostSnoop (s : State) : Out :=
  match s.ctl.ev with
  | some (.hostSnoop ha bs) => .next (whenUp s fun s =>
      if bridgeHolds s (bridgeBase + ha / 256) ∨ hostPutHolds s ha bs.length then s
      else
        let s1 := dropBridge (noteText s (2 ^ 51 + ha) (fun _ => true) bs.length) (bridgeBase + ha / 256)
        if bs.isEmpty then s1 else hostPut s1 ha bs)
  | _ => .next s

/-- BIRsp for the 64 B line of an address: with the last of a line's, H is clear, and the write that sent BISnp takes a timestamp above
hts (07 R118). -/
def birsp (s : State) (n : Nat) : State :=
  let b := s.mem.bridge
  match b.bisnp.find? (·.1 == n) with
  | none => s
  | some e =>
    let s1 := s.setMem { s.mem with bridge := { b with bisnp := b.bisnp.filter (·.1 != n), snoop := b.snoop.filter (· != n) } }
    if awaitsBirsp s1 (n / 4) then s1
    else match findLine s1 (homeSlice s1 (64 * n)) (64 * n) with
      | some lk => match s1.line lk with
        | some l => if l.h then s1.setLine lk { l with h := false, snooped := l.snooped || e.2 } else s1
        | none => s1
      | none => s1

/-- The bridge or the home of a line still stands in the old epoch of a rebase (07 R115, R120). -/
def homeWaits (s : State) (pa : Nat) : Bool :=
  s.mem.bridge.ep != newEpoch s || (s.slice (homeSlice s pa)).ep != newEpoch s || (s.engineClock (stackOf pa)).ep != newEpoch s

/-- BIRSP_RECEIVED (07 R118): one that comes while phase 2 of a rebase runs is taken once the bridge and the home have rebased, so that
the store completes under the new epoch (07 R120). -/
def execBirspReceived (s : State) : Out :=
  match s.ctl.ev with
  | some (.birspReceived pa) => .next (whenUp s fun s => if isDevice pa ∧ !homeWaits s pa then birsp s (pa / 64) else s)
  | _ => .next s

/-- The 64 B lines of a host line that the writes which stand at the bridge need. -/
def ownNeeds (s : State) (ha : Nat) : List Nat :=
  (upTo 4).filter fun j => s.fly.reqs.any fun e =>
    e.2.point == pBridge && (e.2.stage == .point) && e.2.op.writes &&
      e.2.lanes.any fun a => decide (a.pa - 2 ^ 51 < ha / 256 * 256 + 64 * (j + 1) ∧ ha / 256 * 256 + 64 * j < a.pa - 2 ^ 51 + a.size)

/-- BRIDGE_LINE_FETCH: the bridge fetches a host line that a request at the bridge waits for (07 R119). -/
def execBridgeLineFetch (s : State) : Out :=
  match s.ctl.ev with
  | some (.bridgeLineFetch ha) => .next (whenUp s fun s =>
      let waited := s.fly.reqs.any fun e =>
        e.2.point == pBridge && e.2.stage == .point && e.2.lanes.any fun a => (a.pa - 2 ^ 51) / 256 == ha / 256
      if waited ∧ ha < 2 ^ 51 then fetchBridge s (2 ^ 51 + ha) (ownNeeds s ha) else s)
  | _ => .next s

/-! ## Table windows (09 R143) -/

/-- A function may write a table page: the PF any, a VF those assigned to its domains. -/
def ownsTable (s : State) (fn pa : Nat) : Bool :=
  fn == 0 || match tget s.sys.tablePages (pa / 2 ^ 14) with
    | some d => (s.dom d).st != .free && fn == (s.dom d).part + 1
    | none => false

/-- TABLE_WINDOW_WRITE (09 R143). -/
def execTableWindowWrite (s : State) : Out :=
  match s.ctl.ev with
  | some (.tableWindowWrite fn pa v) => .next (whenUp s fun s =>
      if !inTables s pa ∨ pa % 8 ≠ 0 ∨ !ownsTable s fn pa then logPf s pa
      else match hostWriteLine s pa tableKey (leOf 8 v.toNat) with
        | .wait s1 => hostWaits s s1
        | .done _ s1 => s1)
  | _ => .next s

/-! ## FKEY (01 R382) -/

/-- Frames of the table region are named. -/
def framesBad (s : State) (first n : Nat) : Bool :=
  decide (2 ^ 25 < first + n) || decide (0 < n ∧ first * 2 ^ 14 < s.sys.tbase + s.sys.tsize ∧ s.sys.tbase < (first + n) * 2 ^ 14)

/-- The lines of L2 that lie in frames. -/
def frameLines (s : State) (first n : Nat) : List Nat :=
  (s.mem.lines.filter fun e => e.2.v && decide (first ≤ e.2.pa / 64 ∧ e.2.pa / 64 < first + n)).map (·.1)

/-- FKEY: entries of the frame key table; with Z = 1 the frames are then zeroed. -/
def execFkey (s : State) : Out :=
  match s.ctl.ev with
  | some (.fkey fn first n key v z) =>
    if s.sys.fkey.isSome then .next s
    else
      .next (commandWith s fn (fn == 0) [(decide (255 < key) || framesBad s first n, 3)] fun s =>
        let s1 := s.setSys { s.sys with frameKeys := (upTo n).foldl (fun t i => tset t (first + i) (v, key)) s.sys.frameKeys }
        if z then s1.setSys { s1.sys with fkey := some (first, n), status := tdel s1.sys.status fn } else setStatus s1 fn 0)
  | _ => .next s

/-- The frames are zeroed: a line that the host holds is back-invalidated first; then every line is dropped, and zeros are written under
the new key index. -/
def zeroFrames (s : State) (first n : Nat) : State :=
  let ls := frameLines s first n
  let held := ls.filter fun lk => match s.line lk with | some l => l.h | none => false
  if !held.isEmpty then held.foldl (fun s lk => match s.line lk with | some l => sendBisnp s l.pa true | none => s) s
  else
    let s1 := ls.foldl dropLine s
    let frame := fun (s : State) (f : Nat) =>
      let key := match tget s.sys.frameKeys f with | some e => e.2 | none => noKey
      (upTo 128).foldl (fun s j => writeSector s (f * 128 + j) key (List.replicate 128 0#8) false) s
    let s2 := ((upTo n).map (first + ·)).foldl frame
      (s1.setMem { s1.mem with oldText := s1.mem.oldText.filter fun e => !(decide (first ≤ e.1 / 2048 ∧ e.1 / 2048 < first + n)) })
    setStatus (s2.setSys { s2.sys with fkey := none }) 0 0

/-- FKEY_ZERO_DONE (01 R382). -/
def execFkeyZeroDone (s : State) : Out :=
  match s.ctl.ev with
  | some .fkeyZeroDone => .next (whenUp s fun s =>
      match s.sys.fkey with
      | some (first, n) => if s.sys.fatal.isSome then s else zeroFrames s first n
      | none => s)
  | _ => .next s

end Sys2Proof.Machine
end

