-- ==== Sys2Proof/Machine/Links.lean ====
section
/-! DEFINITION. Peer links (10 R166 to R168) and the remote accesses that arrive over them (18 R307). -/

namespace Sys2Proof.Machine

/-- Link states (10 R167). -/
def lDOWN : Nat := 0
/-- TRAINING. -/
def lTRAINING : Nat := 1
/-- UP. -/
def lUP : Nat := 2
/-- DEGRADED. -/
def lDEGRADED : Nat := 3
/-- FAULT. -/
def lFAULT : Nat := 4

/-- A peer link; DOWN where bring-up has not made it. -/
def State.link (s : State) (n : Nat) : Link := (s.sys.links[n]?).getD ⟨0, 0, 0, 0⟩
/-- The state with a link changed; the grids in progress see a link that carries traffic (14 R217). -/
def modLink (s : State) (n : Nat) (f : Link → Link) : State :=
  noteLinks (s.setSys { s.sys with links := setAt s.sys.links n (f (s.link n)) })

/-- What is outstanding on a link ends with LINK_DOWN: the status of a message, sent or still held for its release, says so, a remote
access writes no destination, and the issuing group takes a LINK trap (10 R168, 18 R307). -/
def endTraffic (s : State) (n : Nat) : State :=
  let ms := s.fly.msgs.filter fun e => e.2.link == some n
  let ps := s.fly.posts.filter fun e => e.2.opc == 0xB0 && bits (e.2.arg 1) 3 0 == n + 1
  let qs := s.fly.reqs.filter fun e => e.2.rmt == some n
  let down := fun (s : State) (grp : Nat) (res : Option Nat) =>
    let mask := ((s.group grp).map (·.live)).getD 0#32
    let s1 := addBoundaryTrap s grp
      { cause := cLINK, sub := 0, info := n, pc := 0, depth := 0, mask := mask, word := false, owner := 0 }
    match res with
    | some r => takeAtRest (finishResult s1 grp r 4) grp
    | none => takeAtRest s1 grp
  let lose := fun (s : State) (e : Nat × Msg) => down (s.setFly { s.fly with msgs := tdel s.fly.msgs e.1 }) e.2.grp e.2.res
  let drop := fun (s : State) (e : Nat × Post) => down (s.delPost e.1) e.2.grp e.2.res
  let finish := fun (s : State) (e : Nat × Req) =>
    takeAtRest (receiveReply s e.1 { e.2 with ts := none, fail := some (linkTrap e.2 0) }) e.2.grp
  settleAll (qs.foldl finish (ps.foldl drop (ms.foldl lose s)))

/-- A command of the PF on a link in one of some states. -/
def linkCommand (s : State) (fn n : Nat) (from' : List Nat) (f : State → State) : State :=
  command s fn (fn == 0) [(decide (n < 8) && !from'.contains (s.link n).st, 1), (decide (7 < n), 3)] f

/-- LINK_ENABLE (10 R167). -/
def execLinkEnable (s : State) : Out :=
  match s.ctl.ev with
  | some (.linkEnable fn n) => .next (linkCommand s fn n [lDOWN] fun s => modLink s n fun l => { l with st := lTRAINING, lanes := 0 })
  | _ => .next s

/-- LINK_DISABLE (10 R167): the outstanding traffic of a link that carried some ends. -/
def execLinkDisable (s : State) : Out :=
  match s.ctl.ev with
  | some (.linkDisable fn n) =>
    .next (linkCommand s fn n [lUP, lDEGRADED, lFAULT] fun s => endTraffic (modLink s n fun l => { l with st := lDOWN, lanes := 0 }) n)
  | _ => .next s

/-- LINK_TRAINED (10 R167): UP with four lanes, DEGRADED on two with two or three. -/
def execLinkTrained (s : State) : Out :=
  match s.ctl.ev with
  | some (.linkTrained n lanes hash) => .next (whenUp s fun s =>
      if (s.link n).st ≠ lTRAINING ∨ lanes < 2 ∨ 4 < lanes then s
      else
        modLink s n fun l =>
          { l with st := if lanes = 4 then lUP else lDEGRADED, lanes := if lanes = 4 then 4 else 2, hash := hash % 2 ^ 384 })
  | _ => .next s

/-- LINK_TRAINING_FAIL (10 R167). -/
def execLinkTrainingFail (s : State) : Out :=
  match s.ctl.ev with
  | some (.linkTrainingFail n) => .next (whenUp s fun s =>
      if (s.link n).st = lTRAINING then interrupt (modLink s n fun l => { l with st := lFAULT, lanes := 0 }) 0 iLINK else s)
  | _ => .next s

/-- LANE_FAIL (10 R167): a link in UP goes on with two lanes. -/
def execLaneFail (s : State) : Out :=
  match s.ctl.ev with
  | some (.laneFail n) => .next (whenUp s fun s =>
      if (s.link n).st = lUP then modLink s n fun l => { l with st := lDEGRADED, lanes := 2 } else s)
  | _ => .next s

/-- LINK_RETRAIN_UP (10 R167). -/
def execLinkRetrainUp (s : State) : Out :=
  match s.ctl.ev with
  | some (.linkRetrainUp n) => .next (whenUp s fun s =>
      if (s.link n).st = lDEGRADED then modLink s n fun l => { l with st := lUP, lanes := 4 } else s)
  | _ => .next s

/-- LINK_FAULT (10 R167, R168). -/
def execLinkFault (s : State) : Out :=
  match s.ctl.ev with
  | some (.linkFault n) => .next (whenUp s fun s =>
      if (s.link n).st = lDEGRADED then endTraffic (modLink s n fun l => { l with st := lFAULT, lanes := 0 }) n else s)
  | _ => .next s

/-! ## Remote accesses that arrive (18 R307) -/

/-- REMOTE_ACCESS (18 R307). -/
def execRemoteAccess (s : State) : Out :=
  match s.ctl.ev with
  | some (.remoteAccess a) => .next (whenUp s fun s => settleAll (acceptRemote s a))
  | _ => .next s

end Sys2Proof.Machine
end

