-- ==== Sys2Proof/Machine/Inspect.lean ====
section
/-! DEFINITION. The inspection window (13 R208, R384, R385): IWSEL selects an object, each read of IWDATA returns its next word.
13 R208 names the objects of classes 3, 4, 6, 8, 9 and 10, and other rules lay out what they hold; by which INDEX an object of these is
selected, in which order its words follow, and how a field without a layout is coded, is the model's (DESIGN CHOICE, log 47). A word past
an object's last is a free value. -/

namespace Sys2Proof.Machine

/-- CLASS of IWSEL. -/
def iwClass (x : Nat) : Nat := bits x 63 59
/-- DID of IWSEL. -/
def iwDid (x : Nat) : Nat := bits x 58 51
/-- UNIT of IWSEL. -/
def iwUnit (x : Nat) : Nat := bits x 50 43
/-- INDEX of IWSEL. -/
def iwIndex (x : Nat) : Nat := bits x 42 16
/-- WORD of IWSEL. -/
def iwWord (x : Nat) : Nat := bits x 15 0

/-- A flag as a bit. -/
def bit1 (b : Bool) : Nat := if b then 1 else 0

/-- STATE of a domain descriptor (13 R384). -/
def dstateCode : DState → Nat
  | .free => 0 | .closed => 1 | .live => 2 | .draining => 3 | .killing => 4 | .stopped => 5 | .retiring => 6

/-- The words of class 1, for a reader that sees owners or not (13 R384). -/
def domWords (s : State) (did : Nat) (pf : Bool) : List Nat :=
  let d := s.dom did
  let log := (s.part d.part).log.toNat
  [ fieldsOf [(60, 4, dstateCode d.st), (59, 1, bit1 d.ffrost), (58, 1, bit1 d.arrf), (54, 4, d.stop), (46, 8, d.scause),
      (38, 8, d.score), (16, 8, d.slot), (8, 6, d.part), (0, 8, did)],
    d.stinfo, d.root, d.vector, d.gates, d.gateCnt, fieldsOf [(24, 40, d.wcount), (0, 16, d.wlimit)], d.save0.toNat, d.save1.toNat,
    if pf then log else setBits log 49 42 0,
    fieldsOf [(63, 1, bit1 d.provV), (12, 45, d.provBase / 4096), (0, 4, d.provOrder)],
    fieldsOf [(32, 32, d.provTail), (0, 32, d.provHead)] ]

/-- The words of class 2: a queue's descriptor (02 R27). -/
def queueWords (q : Queue) : List Nat :=
  [ fieldsOf [(63, 1, bit1 (q.st != .off)), (62, 1, bit1 q.kind), (58, 4, q.qpri), (0, 57, q.base)],
    fieldsOf [(60, 4, q.order), (40, 16, q.quota), (32, 8, q.errc), (16, 16, q.head), (0, 16, q.tail)] ]

/-- The words of class 5: a slice tag entry, of a line that a tile fetch pins or not (07 R107). -/
def tagWords (pin : Bool) (l : Option Line) : List Nat :=
  match l with
  | none => [0, 0, 0]
  | some l =>
    [ fieldsOf [(24, 40, l.wts), (16, 8, l.key), (13, 3, l.cls), (12, 1, bit1 l.h), (11, 1, bit1 l.ep), (10, 1, bit1 pin),
        (8, 2, l.dirty), (7, 1, bit1 l.v)],
      fieldsOf [(24, 40, l.rts)], fieldsOf [(20, 44, l.pa)] ]

/-- The operands that a catalogue entry keeps (13 R204). -/
def entryData (o : ReqOp) (a : LaneAcc) : Nat := if o = .cas then a.data % 2 ^ 64 + a.data2 % 2 ^ 64 * 2 ^ 64 else a.data

/-- The width code of a request: the ranges of 18 R310 and the queue words of 18 R316 move 32-bit registers. -/
def widthCode (q : Req) (a : LaneAcc) : Nat :=
  match q.op with
  | .clean | .inval | .flush | .push | .pop => 2
  | _ => Nat.log2 a.size

/-- The group slot of a group. -/
def slotOfGroup (s : State) (k : Nat) : Nat := ((s.group k).map (·.slot)).getD 0

/-- The register of a group to which a result goes. -/
def destReg (s : State) (g : Group) (d : Dest) : Nat :=
  match d with
  | .none => 0
  | .rows l =>
    let t := (s.teamOf g).getD (oneTeam 0)
    l.headD 0 - g.gid * sliceRows (((s.launchOf t).map (·.vregs)).getD 0)
  | .sregs n _ => n

/-- The register, or none, that waits for a result of a group. -/
def owedReg (s : State) (k : Nat) (rid : Option Nat) : Option Nat :=
  (s.group k).bind fun g => ((g.results ++ g.owed).find? fun r => r.src == rid && rid.isSome).map fun r => destReg s g r.dest

/-- The page that an operation waits for. -/
def waitedPage (s : State) (i : Nat) : Option Nat :=
  s.mem.dies.findSome? fun e => ((e.2.pend ++ e.2.pendWait).find? fun p => p.waiters.contains i).map (·.page)

/-- The entry of a word that is no lane access: of a device phaser, a LAUNCH or a job with a card in global memory. -/
def wordEntry (s : State) (e : CatEntry) (k opc dest seq pc : Nat) (dv : Bool) (args : List Nat) : Nat :=
  let va := match waitedPage s e.req with
    | some p => (args.find? fun a => a / 2 ^ 14 == p).getD (p * 2 ^ 14)
    | none => args.headD 0
  fieldsOf
    [ (0, 57, va), (57, 6, slotOfGroup s k), (63, 1, 1), (64, 8, opc), (84, 5, e.lane), (89, 8, dest), (97, 1, bit1 dv), (98, 8, e.did),
      (112, 16, seq), (128, 128, args.getD 1 0), (256, 57, pc) ]

/-- A catalogue entry, 384 bits (13 R204). -/
def entryBits (s : State) (e : CatEntry) : Nat :=
  match s.req e.req with
  | some q =>
    (match q.lanes.find? fun a => a.lane == e.lane with
    | none => 0
    | some a => fieldsOf
      [ (0, 57, a.va), (57, 6, slotOfGroup s q.grp), (63, 1, 1), (64, 8, q.opc), (72, 3, widthCode q a),
        (75, 2, orderCode q.order), (77, 3, scopeCode q.scope), (80, 4, q.hint), (84, 5, a.lane), (89, 8, q.dreg.getD 0),
        (97, 1, bit1 q.dreg.isSome), (98, 8, e.did), (112, 16, q.iseq), (128, 128, entryData q.op a), (256, 57, q.pc) ])
  | none => match s.post e.req with
    | some p =>
      let r := owedReg s p.grp p.res
      wordEntry s e p.grp p.opc (r.getD 0) p.iseq p.pc r.isSome p.args
    | none => match s.cmd e.req with
      | some c =>
        let r := owedReg s c.grp c.res
        wordEntry s e c.grp c.kind (r.getD 0) c.iseq c.pc r.isSome [c.blkAt]
      | none => 0

/-- A number as 64-bit words, the low one first. -/
def words64 (x n : Nat) : List Nat := (upTo n).map fun i => x / 2 ^ (64 * i) % 2 ^ 64

/-- The words of class 12 (12 R197). -/
def curatorWords (c : Curator) : List Nat :=
  [ fieldsOf [(63, 1, bit1 c.v), (12, 45, c.basePage), (0, 4, c.order)], fieldsOf [(32, 32, c.tail), (0, 32, c.head)],
    fieldsOf [(32, 32, c.ripe)], fieldsOf [(32, 32, c.next), (0, 32, c.doneTk)],
    fieldsOf [(24, 40, c.gfloor.v), (23, 1, bit1 c.gfloor.ep)] ]

/-- The team in a team slot of a core. -/
def teamInSlot (s : State) (core slot : Nat) : Option (Nat × Team) :=
  s.work.teams.find? fun e => e.2.core == core && e.2.slot == slot && !e.2.retired && e.2.rowsHere

/-- A domain that a function may see in class 13. -/
def seesDom (s : State) (fn sel did : Nat) : Bool := fn == 0 || (sel == did && ownsDom s fn did)

/-- The words of class 13: a team phaser or a ring frame; what is not there reads as zeros (13 R385). -/
def phaserWords (s : State) (fn did core idx : Nat) : List Nat :=
  if idx.testBit 26 then
    let part := ((tget (s.coreAt core).dpreg (bits idx 14 11)).map fun w => bits w.1.toNat 55 50).getD 64
    let f := bits idx 10 0
    match s.work.teams.find? fun e => e.2.core == core && e.2.part == part && e.2.frames.contains f with
    | some e =>
      if seesDom s fn did e.2.did && bits idx 25 15 == 0 then words64 (leVal (memBytes s.core.sram (frameKey s e.2 f) 512)) 64
      else List.replicate 64 0
    | none => List.replicate 64 0
  else
    match teamInSlot s core (bits idx 7 4) with
    | some e =>
      if seesDom s fn did e.2.did && bits idx 25 8 == 0 && decide (bits idx 3 0 < teamPhasers s e.2) then
        words64 (leVal (memBytes s.core.sram (phaserKey s e.2 (bits idx 3 0)) 16)) 2
      else [0, 0]
    | none => [0, 0]

/-- The codes of the states of a group. -/
def gstateCode : GState → Nat
  | .held => 0 | .ready => 1 | .issuing => 2 | .results => 3 | .blocked => 4 | .fault => 5 | .trap => 6 | .rendezvous => 7 | .frozen => 8
  | .evicted => 9 | .exited => 10 | .empty => 11 | .stopped => 12

/-- The group of a domain in a group slot of a core, 0 to 63, or the sequencer of the team in a team slot, from 64. -/
def groupInSlot (s : State) (core did i : Nat) : Option (Nat × Group) :=
  s.work.groups.find? fun e => match s.teamOf e.2 with
    | some t => t.core == core && t.did == did && !t.retired && (if i < 64 then !e.2.isSeq && e.2.slot == i else e.2.isSeq && t.slot == i - 64)
    | none => false

/-- The paths of a group: that which is running, the others, and those that a handler holds. -/
def Group.allPaths (g : Group) : List Path :=
  (match g.run with
    | some r => [{ Path.new r.pc r.depth r.gang with waits := r.waits.map fun w => w.2 }]
    | none => []) ++ g.paths ++ (match g.handler with | some h => h.held | none => [])

/-- Two words of a path. -/
def pathWords (p : Path) : List Nat :=
  [ fieldsOf [(63, 1, 1), (57, 6, p.depth), (0, 57, p.pc)],
    fieldsOf [(0, 32, p.mask.toNat), (32, 16, p.timer), (48, 1, bit1 p.due), (49, 1, bit1 (!p.waits.isEmpty)), (50, 1, bit1 p.rdv.isSome)] ]

/-- The trap record in k3 of lanes 0 to 5 (13 R201). -/
def trapWords (s : State) (g : Group) : List Nat := words64 (packFields 32 (((frameRow s g 3).take 6).map (·.toNat))) 3

/-- The words of class 3: state, timestamp, the three views (06 R88), the trap record (13 R201) and registers, predicates, flags, depths,
phaser registrations, and 32 paths. -/
def groupWords (s : State) (g : Group) (t : Team) : List Nat :=
  let r := (s.launchOf t).getD oneLaunch
  [ fieldsOf [(0, 32, g.live.toNat), (32, 6, g.gid), (38, 4, gstateCode g.st), (42, 4, g.level), (46, 4, g.base), (50, 1, bit1 g.preempt)],
    fieldsOf [(24, 40, g.gts.v), (23, 1, bit1 g.gts.ep)] ] ++
  [0x020, 0x021, 0x022].map (fun i => specialReg s g t r i 0) ++ trapWords s g ++ [g.trapcause, g.trapinfo] ++
  words64 (packFields 32 (g.preds.map (·.toNat))) 4 ++ words64 (packFields 8 (g.flags.map fun f => f.toNat % 128)) 4 ++
  words64 (packFields 4 g.depth) 2 ++ [g.phreg] ++
  (upTo 32).flatMap fun j => (g.allPaths[j]?.map pathWords).getD [0, 0]

/-- The words of class 4: the save frame of a group (05 R78). -/
def frameWords (s : State) (g : Group) : List Nat := words64 (if g.isSeq then g.frame else readFrame s g) 64

/-- The words of class 4: the address and size of a team's image, and the image as memory holds it (05 R76). -/
def imageWords (s : State) (t : Team) (im : Image) : List Nat :=
  [im.addr, im.size] ++ (upTo (im.size / 8)).map fun j =>
    match walk s (t.core / 48) t.did (im.addr + 8 * j) with
    | (.leaf e, _) => leVal (peek s (physOf e (t.core / 48) (im.addr + 8 * j)) 8)
    | _ => 0

/-- The words of class 6: a TLB entry (09 R147). -/
def tlbWords (e : Option TlbEntry) : List Nat :=
  match e with
  | some e => [e.pte, fieldsOf [(63, 1, 1), (56, 8, e.did), (48, 2, e.lvl), (0, 43, e.page)]]
  | none => [0, 0]

/-- The words of class 6: a walk cache entry. -/
def pointerWords (e : Option (Nat × Nat × Nat × Nat)) : List Nat :=
  match e with
  | some (did, lvl, n, pa) => [pa, fieldsOf [(63, 1, 1), (56, 8, did), (48, 2, lvl), (0, 43, n)]]
  | none => [0, 0]

/-- The words of class 8: the ranks of an output of the request network, or, from 64, of the response network; the slice table of the
die's quarter; its enabled slices and their bytes (10 R157, R160, 00 R3). -/
def fabricWords (s : State) (die i : Nat) : Option (List Nat) :=
  if i < 48 then some (ranksOf s die false i)
  else if 64 ≤ i ∧ i < 128 then some (ranksOf s die true (i - 64))
  else if i = 128 then some ((upTo 256).map (sliceEntry s die))
  else if i = 129 then some [(enabledSlices s die).length, (enabledSlices s die).length * 2 ^ 21]
  else none

/-- The words of an object, or none where there is none. -/
def objectWords (s : State) (fn x : Nat) : Option (List Nat) :=
  let did := iwDid x
  let u := iwUnit x
  let i := iwIndex x
  match iwClass x with
  | 0 => if u < 192 ∧ i < 16 then some (((tget (s.coreAt u).dpreg i).map fun w => [w.1.toNat, w.2.toNat]).getD [0, 0]) else none
  | 1 => some (domWords s did (fn == 0))
  | 2 => if i < 16 then some (queueWords (s.queue did i)) else none
  | 3 => (groupInSlot s u did i).bind fun e => (s.teamOf e.2).map (groupWords s e.2)
  | 4 =>
    if i < 128 then (groupInSlot s u did i).map fun e => frameWords s e.2
    else (s.work.teams.find? fun e => e.2.core == u && e.2.did == did && !e.2.retired && e.2.slot == i - 128).bind fun e =>
      e.2.image.map (imageWords s e.2)
  | 5 =>
    if u < 128 ∧ i < 8192 then some (tagWords (s.pinned (u * 8192 + i)) (s.line (u * 8192 + i)))
    else if u < 128 ∧ i = 8192 then some [(s.slice u).seq] else none
  | 6 =>
    if i < 128 then some (tlbWords (s.coreAt u).tlb[i]?)
    else if i < 128 + 8192 then some (tlbWords (s.die (u / 48)).tlb[i - 128]?)
    else some (pointerWords (s.die (u / 48)).wcache[i - 8320]?)
  | 7 => if u < 192 ∧ i < 256 then some (words64 (((s.coreAt u).catalogue[i]?.map (entryBits s)).getD 0) 6) else none
  | 8 => if u < 4 then fabricWords s u i else none
  | 9 => if u < 64 ∧ i < 3 then some ((s.part u).hist.getD i [] ++ (s.part u).histLast.getD i []) else none
  | 10 => if i < 16 then some [counterRead (s.dom did) i] else (s.dom did).snaps[i - 16]?.map fun x => words64 (snapBody s did x) 64
  | 11 =>
    if u < 8 then
      some [fieldsOf [(61, 3, (s.link u).st), (58, 3, (s.link u).lanes), (0, 32, (s.link u).retry)]]
    else none
  | 12 => some (curatorWords (s.dom did).cur)
  | 13 => some (phaserWords s fn did u i)
  | _ => none

/-- Classes whose objects a DID selects. -/
def didClass (c : Nat) : Bool := [1, 2, 3, 4, 10, 12, 13].contains c

/-- A VF reads zeros: for a DID outside its partition, for a class without a DID but class 0, and for another's DPREG (13 R208). -/
def readsZero (s : State) (fn x : Nat) : Bool :=
  fn != 0 &&
  (if iwClass x = 0 then
    (match tget (s.coreAt (iwUnit x)).dpreg (iwIndex x) with
      | some w => bits w.1.toNat 55 50 + 1 != fn
      | none => true)
  else if didClass (iwClass x) then !ownsDom s fn (iwDid x) else true)

/-- The word that a read of IWDATA returns. -/
def inspect (s : State) (fn x : Nat) : Bits64 :=
  if readsZero s fn x then 0#64
  else match objectWords s fn x with
    | some l =>
      (match l[iwWord x]? with
        | some w => BitVec.ofNat 64 w
        | none => if iwClass x = 1 then 0#64 else Config.inspectWord s.ctl.free)
    | none => Config.inspectWord s.ctl.free

/-- IWSEL of a function. -/
def State.iwsel (s : State) (fn : Nat) : Bits64 := (tget s.sys.iwsel fn).getD 0#64

/-- IWSEL_WRITE (13 R208). -/
def execIwselWrite (s : State) : Out :=
  match s.ctl.ev with
  | some (.iwselWrite fn v) => .next (whenUp s fun s =>
      if fn ≤ 64 then s.setSys { s.sys with iwsel := tset s.sys.iwsel fn v } else s)
  | _ => .next s

/-- IWDATA_READ: the selected object's next word, and WORD advances by 1 (13 R208). -/
def execIwdataRead (s : State) : Out :=
  match s.ctl.ev with
  | some (.iwdataRead fn) => .next (whenUp s fun s =>
      if fn ≤ 64 then
        let x := (s.iwsel fn).toNat
        let s1 := s.setSys { s.sys with iwdata := inspect s fn x,
                                        iwsel := tset s.sys.iwsel fn (BitVec.ofNat 64 (setBits x 15 0 (iwWord x + 1))) }
        s1.setCtl { s1.ctl with free := s1.ctl.free + 1 }
      else s)
  | _ => .next s

end Sys2Proof.Machine
end

