-- ==== Sys2Proof/Machine/Integer.lean ====
section
/-! DEFINITION. The integer instructions, opcodes 0x10 to 0x2F (17 R264 to R269). -/

namespace Sys2Proof.Machine

/-- IADD (17 R265). -/
def execIadd (w : RWord) (s : State) : Out :=
  let k := if (w.m.toNat % 2 == 1) then 2 else 1
  laneWord w 0x10 12 true false ⟨k, k, k, 1⟩ (fun _ _ a b _ => aluAdd (w.m.toNat % 2 == 1) a b) s

/-- ISUB (17 R265). -/
def execIsub (w : RWord) (s : State) : Out :=
  let k := if (w.m.toNat % 2 == 1) then 2 else 1
  laneWord w 0x11 12 true false ⟨k, k, k, 1⟩ (fun _ _ a b _ => aluSub (w.m.toNat % 2 == 1) a b) s

/-- IMUL (17 R265). -/
def execImul (w : RWord) (s : State) : Out := intWord w 0x12 (fun a b _ => aluMul a b) s

/-- IMULH (17 R265). -/
def execImulh (w : RWord) (s : State) : Out := intWord w 0x13 (fun a b _ => aluMulh (w.m.toNat % 2 == 1) a b) s

/-- IMAD (17 R265). -/
def execImad (w : RWord) (s : State) : Out := intWord w 0x14 (fun a b c => aluMad a b c) s

/-- IMIN (17 R265). -/
def execImin (w : RWord) (s : State) : Out := intWord w 0x15 (fun a b _ => aluMin (w.m.toNat % 2 == 1) a b) s

/-- IMAX (17 R265). -/
def execImax (w : RWord) (s : State) : Out := intWord w 0x16 (fun a b _ => aluMax (w.m.toNat % 2 == 1) a b) s

/-- IABS (17 R265). -/
def execIabs (w : RWord) (s : State) : Out := intWord w 0x17 (fun a _ _ => aluAbs (w.m.toNat % 2 == 1) a) s

/-- INEG (17 R265). -/
def execIneg (w : RWord) (s : State) : Out := intWord w 0x18 (fun a _ _ => aluNeg (w.m.toNat % 2 == 1) a) s

/-- AND (17 R266). -/
def execAndw (w : RWord) (s : State) : Out := intWord w 0x19 (fun a b _ => aluAnd a b) s

/-- OR (17 R266). -/
def execOrw (w : RWord) (s : State) : Out := intWord w 0x1A (fun a b _ => aluOr a b) s

/-- XOR (17 R266). -/
def execXorw (w : RWord) (s : State) : Out := intWord w 0x1B (fun a b _ => aluXor a b) s

/-- ANDN (17 R266). -/
def execAndn (w : RWord) (s : State) : Out := intWord w 0x1C (fun a b _ => aluAndn a b) s

/-- SHL (17 R266). -/
def execShl (w : RWord) (s : State) : Out := intWord w 0x1D (fun a b _ => aluShl a b) s

/-- SHR (17 R266). -/
def execShr (w : RWord) (s : State) : Out := intWord w 0x1E (fun a b _ => aluShr a b) s

/-- SAR (17 R266). -/
def execSar (w : RWord) (s : State) : Out := intWord w 0x1F (fun a b _ => aluSar a b) s

/-- ROTL (17 R266). -/
def execRotl (w : RWord) (s : State) : Out := intWord w 0x20 (fun a b _ => aluRotl a b) s

/-- BFX (17 R267). -/
def execBfx (w : RWord) (s : State) : Out := intWord w 0x21 (fun a b _ => aluBfx (w.m.toNat % 2 == 1) a b) s

/-- BFI (17 R267). -/
def execBfi (w : RWord) (s : State) : Out := intWord w 0x22 (fun a b c => aluBfi a b c) s

/-- POPC (17 R267). -/
def execPopc (w : RWord) (s : State) : Out := intWord w 0x23 (fun a _ _ => aluPopc a) s

/-- CLZ (17 R267). -/
def execClz (w : RWord) (s : State) : Out := intWord w 0x24 (fun a _ _ => aluClz a) s

/-- CTZ (17 R267). -/
def execCtz (w : RWord) (s : State) : Out := intWord w 0x25 (fun a _ _ => aluCtz a) s

/-- BREV (17 R267). -/
def execBrev (w : RWord) (s : State) : Out := intWord w 0x26 (fun a _ _ => aluBrev a) s

/-- SEL: the predicate is read in the lane (17 R268), or in the lowest active lane for an s-register (17 R261). -/
def execSel (w : RWord) (s : State) : Out :=
  laneWord w 0x27 12 true false {} (fun c l a b _ => aluSel (c.g.pred (opdPred w.c) l) (lo32 a) (lo32 b)) s

/-- MOV, wide with `.64` (17 R268). -/
def execMov (w : RWord) (s : State) : Out :=
  let k := if (w.m.toNat % 2 == 1) then 2 else 1
  laneWord w 0x28 12 true false ⟨k, k, 1, 1⟩ (fun _ _ a _ _ => (a, 0#8)) s

/-- MOVI (17 R268). -/
def execMovi (w : IWord) (s : State) : Out :=
  laneWord (asR w) 0x29 12 true false {} (fun _ _ _ _ _ => res32 (immMovi (w.m.toNat % 2 == 1) w.imm)) s

/-- MOVH (17 R268). -/
def execMovh (w : IWord) (s : State) : Out :=
  laneWord (asR w) 0x2A 12 true false {} (fun _ _ a _ _ => aluMovh w.imm (lo32 a)) s

/-- LEA (17 R265). -/
def execLea (w : RWord) (s : State) : Out := intWord w 0x2B (fun a b _ => aluLea (w.m.toNat % 8) a b) s

/-- The carry-in and carry-out predicates of IADDC: C[2:0] and C[5:3], 0 for none (17 R264). -/
def carryOf (o : Opd) : Nat × Nat :=
  match o with
  | .imm n => (n % 8, n / 8)
  | _ => (0, 0)

/-- IADDC: the carry-in is read in each lane, or in the lowest active lane for an s-register; the carry-out goes to every
active lane (17 R261, R265). -/
def iaddcBody (w : RWord) (c : Ctx) (s : State) : Except Trap State :=
  let ci := (carryOf w.c).1
  let co := (carryOf w.c).2
  let sum (c : Ctx) (l : Nat) (a b : Bits64) := aluAddc (lo32 a) (lo32 b) (ci != 0 && c.g.pred ci l)
  match laneBody w 0x2C true false {} (fun c l a b _ => res32 (sum c l a b).1) c s with
  | .error t => .error t
  | .ok s1 =>
    if co = 0 ∨ (poisonedRow s c (readsR w {})).isSome then .ok s1
    else
      let a := opdVals s c w.a w.pa w.k.toNat 1
      let b := opdVals s c w.b w.pb w.k.toNat 1
      let one : Nat → Nat := fun l => if w.d.isS then lowLane c.act else l
      let m := maskOf fun l => (sum c (one l) (a.getD (one l) 0#64) (b.getD (one l) 0#64)).2
      .ok (s1.modGroup c.k fun g => g.setPred co c.act m)

/-- IADDC (17 R264, R265). -/
def execIaddc (w : RWord) (s : State) : Out :=
  issueWord w.h (lanewiseR w || (carryOf w.c).2 != 0) 12 (iaddcBody w) s

/-- IDIV, variable-latency (17 R269). -/
def execIdiv (w : RWord) (s : State) : Out :=
  laneWord w 0x2D 12 true true {} (fun _ _ a b _ => aluDiv (w.m.toNat % 2 == 1) (lo32 a) (lo32 b)) s

/-- IREM, variable-latency (17 R269). -/
def execIrem (w : RWord) (s : State) : Out :=
  laneWord w 0x2E 12 true true {} (fun _ _ a b _ => aluRem (w.m.toNat % 2 == 1) (lo32 a) (lo32 b)) s

/-- ISAD (17 R265). -/
def execIsad (w : RWord) (s : State) : Out := intWord w 0x2F (fun a b c => aluSad (w.m.toNat % 2 == 1) a b c) s


end Sys2Proof.Machine
end

