-- ==== Sys2Proof/Machine/Package.lean ====
section
/-! DEFINITION. The package: fatal errors (10 R158, 23 R379), the arithmetic clock (23 R378, R379), the rails, and reset with its bring-up
(23 R377, R380). -/

namespace Sys2Proof.Machine

/-- A fatal device error: the PF hears of it, and every domain in LIVE, DRAINING or KILLING is STOPPED (01 R22). -/
def fatalError (s : State) (reason kind : Nat) : State :=
  if s.sys.fatal.isSome then s
  else
    let hit := (s.adm.doms.filter fun e => e.2.st == .live || e.2.st == .draining || e.2.st == .killing).map (·.1)
    hit.foldl (fun s d => stopDomain s d reason 0 0 0) (interrupt (s.setSys { s.sys with fatal := some reason }) 0 kind)

/-- FABRIC_ERROR: a block of a crossbar fails in service (10 R158). -/
def execFabricError (s : State) : Out :=
  match s.ctl.ev with
  | some .fabricError => .next (whenUp s fun s => fatalError s 4 iFABRIC)
  | _ => .next s

/-- THERMAL_STOP: a die reaches 105 °C (23 R379). -/
def execThermalStop (s : State) : Out :=
  match s.ctl.ev with
  | some .thermalStop => .next (whenUp s fun s => fatalError s 5 iTHERMAL)
  | _ => .next s

/-- The arithmetic clock a step of 50 MHz lower, down to 500 MHz. -/
def clockDown (s : State) : State := s.setSys { s.sys with mhz := max 500 (s.sys.mhz - 50) }

/-- THERMAL_CLOCK_STEP: a millisecond at 95 °C or above lowers the clock and bars its rise; ten milliseconds below 90 °C end the bar
(23 R379). -/
def execThermalClockStep (s : State) : Out :=
  match s.ctl.ev with
  | some (.thermalClockStep hot) => .next (whenUp s fun s =>
      if hot then (fun (x : State) => x.setSys { x.sys with throttle := true }) (clockDown s)
      else s.setSys { s.sys with throttle := false })
  | _ => .next s

/-- POWER_CLOCK_STEP: the clock falls above the power limit, and rises below it where the thermal rule allows (23 R378). -/
def execPowerClockStep (s : State) : Out :=
  match s.ctl.ev with
  | some (.powerClockStep up) => .next (whenUp s fun s =>
      if !up then clockDown s
      else if s.sys.throttle then s else s.setSys { s.sys with mhz := min 1000 (s.sys.mhz + 50) })
  | _ => .next s

/-! ## Reset (23 R377, R380) -/

/-- The device held in reset: what its memories hold and what the model keeps for itself stand; everything else is as at reset. -/
def heldInReset (s : State) : State :=
  { State.reset with
    sys := { Sys.reset with resets := s.sys.resets }
    mem := { MemSys.reset with dram := s.mem.dram, host := s.mem.host, sectors := s.mem.sectors }
    ctl := s.ctl }

/-- RAIL_FAULT: a rail outside its tolerance holds the device in reset (23 R377). -/
def execRailFault (s : State) : Out :=
  match s.ctl.ev with
  | some .railFault =>
    let s1 := heldInReset s
    .next (s1.setSys { s1.sys with rail := true })
  | _ => .next s

/-- The condition of R158 on the bypassed blocks of a die: at most two, each with a relay whose two blocks work. A relay's output and
input are those of its network (10 R155). -/
def bypassLegal (b : BringUp) : Bool :=
  let works := fun (d : Nat) (resp : Bool) (i j : Nat) => !b.bypass.contains (d, resp, i, j)
  (upTo 4).all (fun d => decide ((b.bypass.filter fun x => x.1 == d).length ≤ 2)) &&
  b.bypass.all fun x =>
    decide (x.1 < 4) && (if x.2.1 then [(55, 43), (59, 47)] else [(43, 55), (47, 59)] : List (Nat × Nat)).any fun r =>
      works x.1 x.2.1 x.2.2.1 (r.1 / 4) && works x.1 x.2.1 (r.2 / 4) x.2.2.2

/-- Bring-up completes: the link trains to x16 or x8, every die has an enabled slice, the bypasses can be routed around, and the table
region is whole pages of device memory. -/
def bringUpLegal (b : BringUp) : Bool :=
  (b.hostLanes == 16 || b.hostLanes == 8) && bypassLegal b &&
  ((upTo 4).all fun d => (upTo 32).any fun n => !b.harvest.contains (d, n)) &&
  decide (b.tbase % 2 ^ 14 = 0 ∧ b.tsize % 2 ^ 14 = 0 ∧ b.tbase + b.tsize ≤ 2 ^ 39)

/-- DEVICE_RESET: the device is reset and, where bring-up completes, comes up with every domain FREE, every partition uncommitted, every
frame entry invalid and every link DOWN; the keys of device memory are gone (23 R380, 01 R22, R382). -/
def deviceReset (s : State) (b : BringUp) : State :=
  let s1 := heldInReset s
  let x := s1.sys
  s1.setSys
    { x with up := bringUpLegal b, resets := x.resets + 1, links := List.replicate 8 ⟨0, 0, 0, 0⟩, harvest := b.harvest, bypass := b.bypass,
             hostLanes := b.hostLanes, tbase := b.tbase, tsize := b.tsize }

/-- DEVICE_RESET (23 R380). -/
def execDeviceReset (s : State) : Out :=
  match s.ctl.ev with
  | some (.deviceReset b) => .next (deviceReset s b)
  | _ => .next s

end Sys2Proof.Machine
end

