-- ==== Sys2Proof/Machine/Packed.lean ====
section
/-! DEFINITION. The packed instructions, opcodes 0x60 to 0x6E (17 R282 to R286). -/

namespace Sys2Proof.Machine

/-- A packed word: fixed-latency, not for the matrix sequencer (17 R263), counted under VOP_INT (14 R209). -/
def packedWord (w : RWord) (op : Nat) (f : Word → Word → Word → LaneRes) (s : State) : Out :=
  laneWord w op 12 false false {} (fun _ _ a b c => f (lo32 a) (lo32 b) (lo32 c)) s

/-- PMAC2 (17 R283). -/
def execPmac2 (w : RWord) (s : State) : Out := packedWord w 0x60 (fun a b c => aluPmac2 a b c) s

/-- PMUL2 (17 R283). -/
def execPmul2 (w : RWord) (s : State) : Out := packedWord w 0x61 (fun a b _ => aluPmul2 (w.m.toNat % 4) a b) s

/-- PADD2 (17 R283). -/
def execPadd2 (w : RWord) (s : State) : Out := packedWord w 0x62 (fun a b _ => aluPadd2 w.m.toNat a b) s

/-- PSUB2 (17 R283). -/
def execPsub2 (w : RWord) (s : State) : Out := packedWord w 0x63 (fun a b _ => aluPsub2 w.m.toNat a b) s

/-- SATADD (17 R284). -/
def execSatadd (w : RWord) (s : State) : Out := packedWord w 0x64 (fun a b _ => aluSatadd (w.m.toNat % 2 == 1) a b) s

/-- SATSUB (17 R284). -/
def execSatsub (w : RWord) (s : State) : Out := packedWord w 0x65 (fun a b _ => aluSatsub (w.m.toNat % 2 == 1) a b) s

/-- SHRR (17 R284). -/
def execShrr (w : RWord) (s : State) : Out := packedWord w 0x66 (fun a b _ => aluShrr (w.m.toNat % 4) a b) s

/-- PACKS (17 R284). -/
def execPacks (w : RWord) (s : State) : Out := packedWord w 0x67 (fun a b _ => aluPacks w.m.toNat a b) s

/-- UNPACK (17 R284). -/
def execUnpack (w : RWord) (s : State) : Out := packedWord w 0x68 (fun a b _ => aluUnpack (w.m.toNat % 4) a b) s

/-- ESLIDE: the sources are read in every lane, through their patterns (17 R285). -/
def execEslide (w : RWord) (s : State) : Out :=

  laneWord w 0x69 12 false false {} (fun c l _ _ _ =>
    res32 (aluEslide w.m.toNat (opdWords s c w.a w.pa w.k.toNat 0) (opdWords s c w.b w.pb w.k.toNat 0) l)) s

/-- DOT4 (17 R286). -/
def execDot4 (w : RWord) (s : State) : Out := packedWord w 0x6A (fun a b c => aluDot 8 w.m.toNat a b c) s

/-- DOT8 (17 R286). -/
def execDot8 (w : RWord) (s : State) : Out := packedWord w 0x6B (fun a b c => aluDot 4 w.m.toNat a b c) s

/-- PMAX2 (17 R283). -/
def execPmax2 (w : RWord) (s : State) : Out := packedWord w 0x6C (fun a b _ => aluPmax2 (w.m.toNat % 2 == 1) a b) s

/-- PMIN2 (17 R283). -/
def execPmin2 (w : RWord) (s : State) : Out := packedWord w 0x6D (fun a b _ => aluPmin2 (w.m.toNat % 2 == 1) a b) s

/-- PABS2 (17 R283). -/
def execPabs2 (w : RWord) (s : State) : Out := packedWord w 0x6E (fun a _ _ => aluPabs2 (w.m.toNat % 2 == 1) a) s


end Sys2Proof.Machine
end

