-- ==== Sys2Proof/Machine/Pair.lean ====
section
/-! DEFINITION. Pair words: one scalar and one vector operation under one guard (16 R249 to R251). A word of two operations stands in
the row of its scalar one, one with a scalar NOP in the row of its vector one, and one with a vector NOP alone in that of the
vector NOP. -/

namespace Sys2Proof.Machine

/-- A scalar pair operation: the function of its full-form instruction with M = 0 (16 R250). -/
def scalarOp (o : SOp) (a b : Word) : Word :=
  match o with
  | .nop => 0#32
  | .iadd => lo32 (aluAdd false (a.zeroExtend 64) (b.zeroExtend 64)).1
  | .isub => lo32 (aluSub false (a.zeroExtend 64) (b.zeroExtend 64)).1
  | .imul => lo32 (aluMul a b).1
  | .imin => lo32 (aluMin false a b).1
  | .imax => lo32 (aluMax false a b).1
  | .andw => lo32 (aluAnd a b).1
  | .orw => lo32 (aluOr a b).1
  | .xorw => lo32 (aluXor a b).1
  | .andn => lo32 (aluAndn a b).1
  | .shl => lo32 (aluShl a b).1
  | .shr => lo32 (aluShr a b).1
  | .sar => lo32 (aluSar a b).1
  | .rotl => lo32 (aluRotl a b).1
  | .mov => b

/-- A vector pair operation in one lane: the function of its full-form instruction with M = 0 (16 R250). -/
def vectorOp (o : VOp) (a b : Word) : LaneRes :=
  match o with
  | .nop => (0#64, 0#8)
  | .iadd => aluAdd false (a.zeroExtend 64) (b.zeroExtend 64)
  | .isub => aluSub false (a.zeroExtend 64) (b.zeroExtend 64)
  | .imul => aluMul a b
  | .imin => aluMin false a b
  | .imax => aluMax false a b
  | .andw => aluAnd a b
  | .orw => aluOr a b
  | .xorw => aluXor a b
  | .andn => aluAndn a b
  | .shl => aluShl a b
  | .shr => aluShr a b
  | .sar => aluSar a b
  | .mov => res32 a
  | .fadd => fltAdd fp32 0 (f32 a) (f32 b)
  | .fsub => fltSub fp32 0 (f32 a) (f32 b)
  | .fmul => fltMul fp32 0 (f32 a) (f32 b)
  | .fmin => fltMinMax false a b
  | .fmax => fltMinMax true a b
  | .hadd2 => fltHadd2 0 a b
  | .hmul2 => fltHmul2 0 a b
  | .padd2 => aluPadd2 0 a b
  | .psub2 => aluPsub2 0 a b
  | .satadd => aluSatadd false a b
  | .satsub => aluSatsub false a b
  | .pmax2 => aluPmax2 false a b
  | .pmin2 => aluPmin2 false a b

/-- The counter class of a vector operation (14 R209). -/
def vopClass (o : VOp) : Nat :=
  match o with
  | .fadd | .fsub | .fmul | .fmin | .fmax => 9
  | .hadd2 | .hmul2 => 10
  | _ => 12

/-- The value of scalar source B: a register, or an immediate sign-extended to 32 bits (16 R249, R250). -/
def pairSource (s : State) (c : Ctx) (b : PairB) : Word :=
  match b with
  | .s n => s.sreg c.k n.toNat
  | .imm x => x.signExtend 32

/-- The scalar operation writes SD; it sets no flags. -/
def pairScalar (w : PairWord) (o : SOp) (c : Ctx) (old s : State) : State :=
  if o = .nop ∨ c.act = 0#32 then s
  else s.setSreg c.k w.sd.toNat (scalarOp o (old.sreg c.k w.sa.toNat) (pairSource old c w.sb))

/-- The vector operation writes VD and sets its flags, in the active lanes. -/
def pairVector (w : PairWord) (o : VOp) (c : Ctx) (old s : State) : State :=
  if o = .nop then s
  else
    let a := opdWords old c w.va .ident 0 0
    let b := opdWords old c w.vb .ident 0 0
    let res := lanes32.map fun l => vectorOp o (a.getD l 0#32) (b.getD l 0#32)
    (writeDest s c.k (destOf old c w.vd 1) c.act fun l => (res.getD l (0#64, 0#8)).1.toNat % 2 ^ 32).modGroup c.k fun g =>
      g.orFlags (fun l => (res.getD l (0#64, 0#8)).2) c.act

/-- What a pair counts beside its vector operation: one SOP for its scalar operation, or for the word where neither operation is
there (14 R209); a matrix sequencer's word counts one SOP whatever it holds. -/
def pairCounts (so : SOp) (vo : VOp) (c : Ctx) (s : State) : State :=
  if c.act = 0#32 || so == .nop || vo == .nop || c.g.isSeq then s
  else s.modRun c.k fun r => { r with counts := tset r.counts 14 ((tget r.counts 14).getD 0 + 1) }

/-- A pair word: both operations read before either writes. A matrix sequencer may issue it only without a vector operation
(16 R250); %trapinfo then holds 0x100 plus VOP (13 R199). A poisoned source row leaves
the vector destination unwritten (13 R207). -/
def pairWord (w : PairWord) (so : SOp) (vo : VOp) (s : State) : Out :=
  issueWord w.h (vo != .nop) (vopClass vo) (fun c s =>
    let op := 0x100 + vopCode vo
    if c.g.isSeq && vo != .nop then .error (c.trap cROLE 0 op)
    else
      let reads := vregsOf w.va 1 ++ vregsOf w.vb 1
      match checkRegs s c op (if vo = .nop then [] else vregsOf w.vd 1 ++ reads) with
      | .error t => .error t
      | .ok () =>
        match (if vo = .nop then none else poisonedRow s c reads) with
        | some r => .ok (pendEcc (pairCounts so vo c (pairScalar w so c s s)) c r)
        | none => .ok (pairCounts so vo c (pairVector w vo c s (pairScalar w so c s s)))) s

/-- The scalar pair operation NOP with the vector operation of its word (16 R251). -/
def execPairSNop (w : PairWord) (s : State) : Out := pairWord w .nop w.vop s
/-- The scalar pair operation IADD with the vector operation of its word (16 R251). -/
def execPairSIadd (w : PairWord) (s : State) : Out := pairWord w .iadd w.vop s
/-- The scalar pair operation ISUB with the vector operation of its word (16 R251). -/
def execPairSIsub (w : PairWord) (s : State) : Out := pairWord w .isub w.vop s
/-- The scalar pair operation IMUL with the vector operation of its word (16 R251). -/
def execPairSImul (w : PairWord) (s : State) : Out := pairWord w .imul w.vop s
/-- The scalar pair operation IMIN with the vector operation of its word (16 R251). -/
def execPairSImin (w : PairWord) (s : State) : Out := pairWord w .imin w.vop s
/-- The scalar pair operation IMAX with the vector operation of its word (16 R251). -/
def execPairSImax (w : PairWord) (s : State) : Out := pairWord w .imax w.vop s
/-- The scalar pair operation AND with the vector operation of its word (16 R251). -/
def execPairSAnd (w : PairWord) (s : State) : Out := pairWord w .andw w.vop s
/-- The scalar pair operation OR with the vector operation of its word (16 R251). -/
def execPairSOr (w : PairWord) (s : State) : Out := pairWord w .orw w.vop s
/-- The scalar pair operation XOR with the vector operation of its word (16 R251). -/
def execPairSXor (w : PairWord) (s : State) : Out := pairWord w .xorw w.vop s
/-- The scalar pair operation ANDN with the vector operation of its word (16 R251). -/
def execPairSAndn (w : PairWord) (s : State) : Out := pairWord w .andn w.vop s
/-- The scalar pair operation SHL with the vector operation of its word (16 R251). -/
def execPairSShl (w : PairWord) (s : State) : Out := pairWord w .shl w.vop s
/-- The scalar pair operation SHR with the vector operation of its word (16 R251). -/
def execPairSShr (w : PairWord) (s : State) : Out := pairWord w .shr w.vop s
/-- The scalar pair operation SAR with the vector operation of its word (16 R251). -/
def execPairSSar (w : PairWord) (s : State) : Out := pairWord w .sar w.vop s
/-- The scalar pair operation ROTL with the vector operation of its word (16 R251). -/
def execPairSRotl (w : PairWord) (s : State) : Out := pairWord w .rotl w.vop s
/-- The scalar pair operation MOV with the vector operation of its word (16 R251). -/
def execPairSMov (w : PairWord) (s : State) : Out := pairWord w .mov w.vop s
/-- The vector pair operation NOP with the scalar operation of its word (16 R251). -/
def execPairVNop (w : PairWord) (s : State) : Out := pairWord w w.sop .nop s
/-- The vector pair operation IADD with the scalar operation of its word (16 R251). -/
def execPairVIadd (w : PairWord) (s : State) : Out := pairWord w w.sop .iadd s
/-- The vector pair operation ISUB with the scalar operation of its word (16 R251). -/
def execPairVIsub (w : PairWord) (s : State) : Out := pairWord w w.sop .isub s
/-- The vector pair operation IMUL with the scalar operation of its word (16 R251). -/
def execPairVImul (w : PairWord) (s : State) : Out := pairWord w w.sop .imul s
/-- The vector pair operation IMIN with the scalar operation of its word (16 R251). -/
def execPairVImin (w : PairWord) (s : State) : Out := pairWord w w.sop .imin s
/-- The vector pair operation IMAX with the scalar operation of its word (16 R251). -/
def execPairVImax (w : PairWord) (s : State) : Out := pairWord w w.sop .imax s
/-- The vector pair operation AND with the scalar operation of its word (16 R251). -/
def execPairVAnd (w : PairWord) (s : State) : Out := pairWord w w.sop .andw s
/-- The vector pair operation OR with the scalar operation of its word (16 R251). -/
def execPairVOr (w : PairWord) (s : State) : Out := pairWord w w.sop .orw s
/-- The vector pair operation XOR with the scalar operation of its word (16 R251). -/
def execPairVXor (w : PairWord) (s : State) : Out := pairWord w w.sop .xorw s
/-- The vector pair operation ANDN with the scalar operation of its word (16 R251). -/
def execPairVAndn (w : PairWord) (s : State) : Out := pairWord w w.sop .andn s
/-- The vector pair operation SHL with the scalar operation of its word (16 R251). -/
def execPairVShl (w : PairWord) (s : State) : Out := pairWord w w.sop .shl s
/-- The vector pair operation SHR with the scalar operation of its word (16 R251). -/
def execPairVShr (w : PairWord) (s : State) : Out := pairWord w w.sop .shr s
/-- The vector pair operation SAR with the scalar operation of its word (16 R251). -/
def execPairVSar (w : PairWord) (s : State) : Out := pairWord w w.sop .sar s
/-- The vector pair operation MOV with the scalar operation of its word (16 R251). -/
def execPairVMov (w : PairWord) (s : State) : Out := pairWord w w.sop .mov s
/-- The vector pair operation FADD with the scalar operation of its word (16 R251). -/
def execPairVFadd (w : PairWord) (s : State) : Out := pairWord w w.sop .fadd s
/-- The vector pair operation FSUB with the scalar operation of its word (16 R251). -/
def execPairVFsub (w : PairWord) (s : State) : Out := pairWord w w.sop .fsub s
/-- The vector pair operation FMUL with the scalar operation of its word (16 R251). -/
def execPairVFmul (w : PairWord) (s : State) : Out := pairWord w w.sop .fmul s
/-- The vector pair operation FMIN with the scalar operation of its word (16 R251). -/
def execPairVFmin (w : PairWord) (s : State) : Out := pairWord w w.sop .fmin s
/-- The vector pair operation FMAX with the scalar operation of its word (16 R251). -/
def execPairVFmax (w : PairWord) (s : State) : Out := pairWord w w.sop .fmax s
/-- The vector pair operation HADD2 with the scalar operation of its word (16 R251). -/
def execPairVHadd2 (w : PairWord) (s : State) : Out := pairWord w w.sop .hadd2 s
/-- The vector pair operation HMUL2 with the scalar operation of its word (16 R251). -/
def execPairVHmul2 (w : PairWord) (s : State) : Out := pairWord w w.sop .hmul2 s
/-- The vector pair operation PADD2 with the scalar operation of its word (16 R251). -/
def execPairVPadd2 (w : PairWord) (s : State) : Out := pairWord w w.sop .padd2 s
/-- The vector pair operation PSUB2 with the scalar operation of its word (16 R251). -/
def execPairVPsub2 (w : PairWord) (s : State) : Out := pairWord w w.sop .psub2 s
/-- The vector pair operation SATADD with the scalar operation of its word (16 R251). -/
def execPairVSatadd (w : PairWord) (s : State) : Out := pairWord w w.sop .satadd s
/-- The vector pair operation SATSUB with the scalar operation of its word (16 R251). -/
def execPairVSatsub (w : PairWord) (s : State) : Out := pairWord w w.sop .satsub s
/-- The vector pair operation PMAX2 with the scalar operation of its word (16 R251). -/
def execPairVPmax2 (w : PairWord) (s : State) : Out := pairWord w w.sop .pmax2 s
/-- The vector pair operation PMIN2 with the scalar operation of its word (16 R251). -/
def execPairVPmin2 (w : PairWord) (s : State) : Out := pairWord w w.sop .pmin2 s

end Sys2Proof.Machine
end

