-- ==== Sys2Proof/Machine/Rebase.lean ====
section
/-! DEFINITION. Time that all units share: the reconciliation of the quarter clocks (07 R112) and the rebase of timestamps (07 R115,
R116). -/

namespace Sys2Proof.Machine

/-- QCLK_RECONCILE: in a fabric cycle that is a multiple of 4096, each directory raises QFLOOR to the largest QCLK (07 R112). -/
def reconcile (s : State) : State :=
  if s.sys.fab % 4096 ≠ 0 then s
  else
    let top := fun (ep : Bool) => ((upTo 4).map fun q => s.tsAt ⟨(s.dir q).qclk, (s.dir q).ep⟩ ep).foldl max 0
    (upTo 4).foldl (fun x q =>
      let d := s.dir q
      let f := max d.qfloor (top d.ep)
      x.setDir q { d with qfloor := f, qclk := max d.qclk f }) s

/-- QCLK_RECONCILE (07 R112). -/
def execQclkReconcile (s : State) : Out :=
  match s.ctl.ev with
  | some .qclkReconcile => .next (whenUp s reconcile)
  | _ => .next s

/-- The units that directory 0 asks to rebase: every slice, directory, stack engine, curator, message unit and engine, the distributor,
the domain control unit and the bridge. -/
def rebaseUnits : List RUnit :=
  (upTo 128).map .slice ++ (upTo 4).map .directory ++ (upTo 8).map .stack ++ (upTo 4).map .curator ++ (upTo 192).map .msgUnit ++
    (upTo 192).map .engines ++ [.distributor, .control, .bridge]

/-- REBASE_START: a timestamp at or above 2^39 has been reported, and no rebase runs (07 R115). -/
def execRebaseStart (s : State) : Out :=
  match s.ctl.ev with
  | some .rebaseStart => .next (whenUp s fun s =>
      if s.sys.tsReport ∧ s.sys.rebase.isNone then
        s.setSys { s.sys with tsReport := false, rebase := some { phase := 2, units := rebaseUnits, cores := [] } }
      else s)
  | _ => .next s

/-- A timestamp of the other epoch is rebased. -/
def Ts.toEpoch (t : Ts) (ep : Bool) : Ts := if t.ep = ep then t else t.rebased

/-- A line in an epoch. -/
def Line.toEpoch (l : Line) (ep : Bool) : Line :=
  if l.ep = ep then l else { l with wts := l.wts - 2 ^ 38, rts := l.rts - 2 ^ 38, ep := ep }

/-- The timestamp that a queue's watch has met, in an epoch (02 R33). -/
def Queue.toEpoch (q : Queue) (ep : Bool) : Queue :=
  { q with waitGen := q.waitGen.map fun w =>
      (w.1, if w.2 = 0 then 0 else 1 + tsCode (Ts.toEpoch ⟨(w.2 - 1) % 2 ^ 40, (w.2 - 1).testBit 40⟩ ep)) }

/-- The completion timestamp of a finished command, in an epoch (19 R338). -/
def finishToEpoch (w : Nat) (ep : Bool) : Nat :=
  let t := Ts.toEpoch ⟨bits w 71 32, w.testBit 72⟩ ep
  w % 2 ^ 32 + t.v * 2 ^ 32 + if t.ep then 2 ^ 72 else 0

/-- Every timestamp that a unit holds is rebased (07 R115, phase 2). -/
def rebaseUnit (s : State) (u : RUnit) (ep : Bool) : State :=
  match u with
  | .slice n =>
    s.setMem { s.mem with slices := tset s.mem.slices n { s.slice n with ep := ep },
                          lines := s.mem.lines.map fun e => (e.1, if e.1 / 8192 = n then e.2.toEpoch ep else e.2) }
  | .directory q =>
    let d := s.dir q
    if d.ep = ep then s
    else s.setDir q { regions := d.regions.map fun e => (e.1, e.2 - 2 ^ 38), qfloor := d.qfloor - 2 ^ 38, qclk := d.qclk - 2 ^ 38, ep := ep }
  | .stack n => s.setMem { s.mem with clocks := tset s.mem.clocks n ((s.engineClock n).toEpoch ep) }
  | .curator n =>
    s.setAdm { s.adm with doms := s.adm.doms.map fun e =>
      if e.1 % 4 ≠ n then e
      else
        let c := e.2.cur
        (e.1, { e.2 with cur := { c with gfloor := c.gfloor.toEpoch ep, trun := c.trun.toEpoch ep, tpend := c.tpend.toEpoch ep } }) }
  | .msgUnit core =>
    let move := fun (m : Msg) => { m with gts := m.gts.toEpoch ep }
    let s1 := s.setFly { s.fly with msgs := s.fly.msgs.map fun e => (e.1, if e.2.core = core then move e.2 else e.2) }
    s1.modCore core fun c => { c with ovf := c.ovf.map fun e => (e.1, e.2.map move) }
  | .engines core =>
    (s.setWork { s.work with teams := s.work.teams.map fun e =>
      (e.1, if e.2.core = core then { e.2 with finished := e.2.finished.map fun f => (f.1, finishToEpoch f.2 ep) } else e.2) }).setFly { s.fly with
      cmds := s.fly.cmds.map fun e =>
        (e.1, if e.2.core = core then { e.2 with cts := e.2.cts.toEpoch ep, maxts := e.2.maxts.toEpoch ep } else e.2)
      upds := s.fly.upds.map fun e => (e.1, if e.2.core = core then { e.2 with ts := e.2.ts.toEpoch ep } else e.2) }
  | .distributor =>
    ((s.setSys { s.sys with distTs := s.sys.distTs.toEpoch ep }).setAdm
      { s.adm with queues := s.adm.queues.map fun e => (e.1, e.2.toEpoch ep) }).setWork
      { s.work with grids := s.work.grids.map fun e => (e.1, { e.2 with gts := e.2.gts.toEpoch ep, rel := e.2.rel.toEpoch ep }) }
  | .control =>
    let call := fun (c : Call) => { c with gts := c.gts.toEpoch ep }
    s.setAdm { s.adm with doms := s.adm.doms.map fun e => (e.1, { e.2 with inbox := e.2.inbox.map call }) }
  | .bridge =>
    let b := s.mem.bridge
    if b.ep = ep then s
    else s.setMem { s.mem with bridge :=
      { b with hts := b.hts - 2 ^ 38, ep := ep, lines := b.lines.map fun e => (e.1, e.2.toEpoch ep) } }

/-- UNIT_REBASE: a unit that has not acknowledged rebases what it holds, and acknowledges (07 R115). -/
def execUnitRebase (s : State) : Out :=
  match s.ctl.ev with
  | some (.unitRebase u) => .next (whenUp s fun s =>
      match s.sys.rebase with
      | some r =>
        if r.phase = 2 ∧ r.units.contains u then
          let s1 := rebaseUnit s u (newEpoch s)
          s1.setSys { s1.sys with rebase := some { r with units := r.units.filter (· != u) } }
        else s
      | none => s)
  | _ => .next s

/-- REBASE_EPOCH_BROADCAST: after every acknowledgement RBC rises, and the new epoch is sent to every core (07 R115, phase 3). -/
def execRebaseEpochBroadcast (s : State) : Out :=
  match s.ctl.ev with
  | some .rebaseEpochBroadcast => .next (whenUp s fun s =>
      match s.sys.rebase with
      | some r =>
        if r.phase = 2 ∧ r.units.isEmpty then
          s.setSys { s.sys with rbc := (s.sys.rbc + 1) % 2 ^ 16, rebase := some { phase := 4, units := [], cores := upTo 192 } }
        else s
      | none => s)
  | _ => .next s

/-- A group that its core rebases at once in phase 4 (07 R115); others are rebased at their boundary, at the release of their launch hold,
or through their frames. -/
def rebasesNow (g : Group) : Bool :=
  match g.st with
  | .ready | .blocked | .fault | .rendezvous | .stopped => true
  | .trap => g.run.isNone
  | _ => false

/-- CORE_REBASE (07 R115, phase 4): L1 sectors of the old epoch stay, to be renewed, but none of an epoch before it. -/
def execCoreRebase (s : State) : Out :=
  match s.ctl.ev with
  | some (.coreRebase core) => .next (whenUp s fun s =>
      match s.sys.rebase with
      | some r =>
        if r.phase = 4 ∧ r.cores.contains core then
          let ep := newEpoch s
          let s1 := (s.modCore core fun c => { c with epoch := ep, l1 := c.l1.filter fun x => x.rbc == rbcOf s x.ep }).mapGroups fun _ g =>
            if s.coreOf g = core ∧ rebasesNow g then { g with gts := g.gts.toEpoch ep } else g
          s1.setSys { s1.sys with rebase := some { r with cores := r.cores.filter (· != core) } }
        else s
      | none => s)
  | _ => .next s

/-- REBASE_COMPLETE: every core has acknowledged (07 R115, phase 5). -/
def execRebaseComplete (s : State) : Out :=
  match s.ctl.ev with
  | some .rebaseComplete => .next (whenUp s fun s =>
      match s.sys.rebase with
      | some r => if r.phase = 4 ∧ r.cores.isEmpty then s.setSys { s.sys with rebase := none, tsReport := false } else s
      | none => s)
  | _ => .next s

end Sys2Proof.Machine
end

