-- ==== Sys2Proof/Machine/Dispatch.lean ====
section
/-! DEFINITION. The meaning of each instruction: one arm per constructor, in the order of the opcode table. -/

namespace Sys2Proof.Machine

def exec (i : Instr) (s : State) : Host.Outcome State Fault Refusal :=
  match i with
  | .partitionCommit => Sys2Proof.Machine.execPartitionCommit s
  | .weightOnlyCommit => Sys2Proof.Machine.execWeightOnlyCommit s
  | .create => Sys2Proof.Machine.execCreate s
  | .openDomain => Sys2Proof.Machine.execOpenDomain s
  | .closeDomain => Sys2Proof.Machine.execCloseDomain s
  | .kill => Sys2Proof.Machine.execKill s
  | .retire => Sys2Proof.Machine.execRetire s
  | .frost => Sys2Proof.Machine.execFrost s
  | .thaw => Sys2Proof.Machine.execThaw s
  | .kick => Sys2Proof.Machine.execKick s
  | .snap => Sys2Proof.Machine.execSnap s
  | .snapshotComplete => Sys2Proof.Machine.execSnapshotComplete s
  | .fkey => Sys2Proof.Machine.execFkey s
  | .fkeyZeroDone => Sys2Proof.Machine.execFkeyZeroDone s
  | .tlbinv => Sys2Proof.Machine.execTlbinv s
  | .tlbinvDone => Sys2Proof.Machine.execTlbinvDone s
  | .pgrespRetry => Sys2Proof.Machine.execPgrespRetry s
  | .pgrespError => Sys2Proof.Machine.execPgrespError s
  | .skip => Sys2Proof.Machine.execSkip s
  | .queueDescriptorWrite => Sys2Proof.Machine.execQueueDescriptorWrite s
  | .queueEnable => Sys2Proof.Machine.execQueueEnable s
  | .queueDisable => Sys2Proof.Machine.execQueueDisable s
  | .errcClear => Sys2Proof.Machine.execErrcClear s
  | .queueTailWrite => Sys2Proof.Machine.execQueueTailWrite s
  | .doorbell => Sys2Proof.Machine.execDoorbell s
  | .curatorRingWrite => Sys2Proof.Machine.execCuratorRingWrite s
  | .dprovRingWrite => Sys2Proof.Machine.execDprovRingWrite s
  | .registerWrite => Sys2Proof.Machine.execRegisterWrite s
  | .iwselWrite => Sys2Proof.Machine.execIwselWrite s
  | .iwdataRead => Sys2Proof.Machine.execIwdataRead s
  | .faultLogClear => Sys2Proof.Machine.execFaultLogClear s
  | .barstatClear => Sys2Proof.Machine.execBarstatClear s
  | .tableWindowWrite => Sys2Proof.Machine.execTableWindowWrite s
  | .hostRead => Sys2Proof.Machine.execHostRead s
  | .hostWrite => Sys2Proof.Machine.execHostWrite s
  | .hostSnoop => Sys2Proof.Machine.execHostSnoop s
  | .birspReceived => Sys2Proof.Machine.execBirspReceived s
  | .linkEnable => Sys2Proof.Machine.execLinkEnable s
  | .linkDisable => Sys2Proof.Machine.execLinkDisable s
  | .linkTrained => Sys2Proof.Machine.execLinkTrained s
  | .linkTrainingFail => Sys2Proof.Machine.execLinkTrainingFail s
  | .laneFail => Sys2Proof.Machine.execLaneFail s
  | .linkRetrainUp => Sys2Proof.Machine.execLinkRetrainUp s
  | .linkFault => Sys2Proof.Machine.execLinkFault s
  | .queueRecordRead => Sys2Proof.Machine.execQueueRecordRead s
  | .waitphTurnNotify => Sys2Proof.Machine.execWaitphTurnNotify s
  | .recordDispatch => Sys2Proof.Machine.execRecordDispatch s
  | .teamPlace => Sys2Proof.Machine.execTeamPlace s
  | .zeroingComplete => Sys2Proof.Machine.execZeroingComplete s
  | .teamRetire => Sys2Proof.Machine.execTeamRetire s
  | .gridComplete => Sys2Proof.Machine.execGridComplete s
  | .provenanceRecordWrite => Sys2Proof.Machine.execProvenanceRecordWrite s
  | .killComplete => Sys2Proof.Machine.execKillComplete s
  | .retireComplete => Sys2Proof.Machine.execRetireComplete s
  | .issueSlotDecision => Sys2Proof.Machine.execIssueSlotDecision s
  | .resultsComplete => Sys2Proof.Machine.execResultsComplete s
  | .pathDue => Sys2Proof.Machine.execPathDue s
  | .waitAging => Sys2Proof.Machine.execWaitAging s
  | .rendezvousComplete => Sys2Proof.Machine.execRendezvousComplete s
  | .repackDone => Sys2Proof.Machine.execRepackDone s
  | .preemptTake => Sys2Proof.Machine.execPreemptTake s
  | .forcedFrost => Sys2Proof.Machine.execForcedFrost s
  | .teamThaw => Sys2Proof.Machine.execTeamThaw s
  | .watchdogExpiry => Sys2Proof.Machine.execWatchdogExpiry s
  | .beatTokenGrant => Sys2Proof.Machine.execBeatTokenGrant s
  | .packetGrant => Sys2Proof.Machine.execPacketGrant s
  | .l2Load => Sys2Proof.Machine.execL2Load s
  | .l2Store => Sys2Proof.Machine.execL2Store s
  | .l2Atomic => Sys2Proof.Machine.execL2Atomic s
  | .replyReceived => Sys2Proof.Machine.execReplyReceived s
  | .msAccess => Sys2Proof.Machine.execMsAccess s
  | .qclkReconcile => Sys2Proof.Machine.execQclkReconcile s
  | .rebaseStart => Sys2Proof.Machine.execRebaseStart s
  | .unitRebase => Sys2Proof.Machine.execUnitRebase s
  | .rebaseEpochBroadcast => Sys2Proof.Machine.execRebaseEpochBroadcast s
  | .coreRebase => Sys2Proof.Machine.execCoreRebase s
  | .rebaseComplete => Sys2Proof.Machine.execRebaseComplete s
  | .pageWalkComplete => Sys2Proof.Machine.execPageWalkComplete s
  | .pendingEntryFree => Sys2Proof.Machine.execPendingEntryFree s
  | .pageRequestWrite => Sys2Proof.Machine.execPageRequestWrite s
  | .catalogueEntryFree => Sys2Proof.Machine.execCatalogueEntryFree s
  | .replayComplete => Sys2Proof.Machine.execReplayComplete s
  | .eccUncorrectable => Sys2Proof.Machine.execEccUncorrectable s
  | .messageArrival => Sys2Proof.Machine.execMessageArrival s
  | .peerArrival => Sys2Proof.Machine.execPeerArrival s
  | .remoteAccess => Sys2Proof.Machine.execRemoteAccess s
  | .enginePhaserUpdate => Sys2Proof.Machine.execEnginePhaserUpdate s
  | .phaserWaitRetest => Sys2Proof.Machine.execPhaserWaitRetest s
  | .copyBeat => Sys2Proof.Machine.execCopyBeat s
  | .bankopElement => Sys2Proof.Machine.execBankopElement s
  | .jobStepCommit => Sys2Proof.Machine.execJobStepCommit s
  | .engineCommandFinish => Sys2Proof.Machine.execEngineCommandFinish s
  | .mpairStart => Sys2Proof.Machine.execMpairStart s
  | .mpairTimeout => Sys2Proof.Machine.execMpairTimeout s
  | .scrubZero => Sys2Proof.Machine.execScrubZero s
  | .bankScrubDone => Sys2Proof.Machine.execBankScrubDone s
  | .curatorStart => Sys2Proof.Machine.execCuratorStart s
  | .dieCuratorClear => Sys2Proof.Machine.execDieCuratorClear s
  | .gracePeriodComplete => Sys2Proof.Machine.execGracePeriodComplete s
  | .counterFlush => Sys2Proof.Machine.execCounterFlush s
  | .barometerWindowEnd => Sys2Proof.Machine.execBarometerWindowEnd s
  | .fabricError => Sys2Proof.Machine.execFabricError s
  | .thermalStop => Sys2Proof.Machine.execThermalStop s
  | .thermalClockStep => Sys2Proof.Machine.execThermalClockStep s
  | .powerClockStep => Sys2Proof.Machine.execPowerClockStep s
  | .railFault => Sys2Proof.Machine.execRailFault s
  | .deviceReset => Sys2Proof.Machine.execDeviceReset s
  | .nop w => Sys2Proof.Machine.execNop w s
  | .nextw w => Sys2Proof.Machine.execNextw w s
  | .brc w => Sys2Proof.Machine.execBrc w s
  | .brx w => Sys2Proof.Machine.execBrx w s
  | .call w => Sys2Proof.Machine.execCall w s
  | .ret w => Sys2Proof.Machine.execRet w s
  | .regroup w => Sys2Proof.Machine.execRegroup w s
  | .exit w => Sys2Proof.Machine.execExit w s
  | .loop w => Sys2Proof.Machine.execLoop w s
  | .yield w => Sys2Proof.Machine.execYield w s
  | .trapw w => Sys2Proof.Machine.execTrapw w s
  | .tret w => Sys2Proof.Machine.execTret w s
  | .bkpt w => Sys2Proof.Machine.execBkpt w s
  | .wsync w => Sys2Proof.Machine.execWsync w s
  | .haltF w => Sys2Proof.Machine.execHaltF w s
  | .setpri w => Sys2Proof.Machine.execSetpri w s
  | .iadd w => Sys2Proof.Machine.execIadd w s
  | .isub w => Sys2Proof.Machine.execIsub w s
  | .imul w => Sys2Proof.Machine.execImul w s
  | .imulh w => Sys2Proof.Machine.execImulh w s
  | .imad w => Sys2Proof.Machine.execImad w s
  | .imin w => Sys2Proof.Machine.execImin w s
  | .imax w => Sys2Proof.Machine.execImax w s
  | .iabs w => Sys2Proof.Machine.execIabs w s
  | .ineg w => Sys2Proof.Machine.execIneg w s
  | .andw w => Sys2Proof.Machine.execAndw w s
  | .orw w => Sys2Proof.Machine.execOrw w s
  | .xorw w => Sys2Proof.Machine.execXorw w s
  | .andn w => Sys2Proof.Machine.execAndn w s
  | .shl w => Sys2Proof.Machine.execShl w s
  | .shr w => Sys2Proof.Machine.execShr w s
  | .sar w => Sys2Proof.Machine.execSar w s
  | .rotl w => Sys2Proof.Machine.execRotl w s
  | .bfx w => Sys2Proof.Machine.execBfx w s
  | .bfi w => Sys2Proof.Machine.execBfi w s
  | .popc w => Sys2Proof.Machine.execPopc w s
  | .clz w => Sys2Proof.Machine.execClz w s
  | .ctz w => Sys2Proof.Machine.execCtz w s
  | .brev w => Sys2Proof.Machine.execBrev w s
  | .sel w => Sys2Proof.Machine.execSel w s
  | .mov w => Sys2Proof.Machine.execMov w s
  | .movi w => Sys2Proof.Machine.execMovi w s
  | .movh w => Sys2Proof.Machine.execMovh w s
  | .lea w => Sys2Proof.Machine.execLea w s
  | .iaddc w => Sys2Proof.Machine.execIaddc w s
  | .idiv w => Sys2Proof.Machine.execIdiv w s
  | .irem w => Sys2Proof.Machine.execIrem w s
  | .isad w => Sys2Proof.Machine.execIsad w s
  | .fadd w => Sys2Proof.Machine.execFadd w s
  | .fsub w => Sys2Proof.Machine.execFsub w s
  | .fmul w => Sys2Proof.Machine.execFmul w s
  | .ffma w => Sys2Proof.Machine.execFfma w s
  | .fmin w => Sys2Proof.Machine.execFmin w s
  | .fmax w => Sys2Proof.Machine.execFmax w s
  | .fabs w => Sys2Proof.Machine.execFabs w s
  | .fneg w => Sys2Proof.Machine.execFneg w s
  | .frcp w => Sys2Proof.Machine.execFrcp w s
  | .frsq w => Sys2Proof.Machine.execFrsq w s
  | .fsqrt w => Sys2Proof.Machine.execFsqrt w s
  | .fdiv w => Sys2Proof.Machine.execFdiv w s
  | .fex2 w => Sys2Proof.Machine.execFex2 w s
  | .flg2 w => Sys2Proof.Machine.execFlg2 w s
  | .fsin w => Sys2Proof.Machine.execFsin w s
  | .fcos w => Sys2Proof.Machine.execFcos w s
  | .ftanh w => Sys2Proof.Machine.execFtanh w s
  | .frnd w => Sys2Proof.Machine.execFrnd w s
  | .fclass w => Sys2Proof.Machine.execFclass w s
  | .fscale w => Sys2Proof.Machine.execFscale w s
  | .dadd w => Sys2Proof.Machine.execDadd w s
  | .dmul w => Sys2Proof.Machine.execDmul w s
  | .dfma w => Sys2Proof.Machine.execDfma w s
  | .ddiv w => Sys2Proof.Machine.execDdiv w s
  | .dsqrt w => Sys2Proof.Machine.execDsqrt w s
  | .hfma2 w => Sys2Proof.Machine.execHfma2 w s
  | .hadd2 w => Sys2Proof.Machine.execHadd2 w s
  | .hmul2 w => Sys2Proof.Machine.execHmul2 w s
  | .fdot2 w => Sys2Proof.Machine.execFdot2 w s
  | .fdot4z w => Sys2Proof.Machine.execFdot4z w s
  | .fmed3 w => Sys2Proof.Machine.execFmed3 w s
  | .icmp w => Sys2Proof.Machine.execIcmp w s
  | .fcmp w => Sys2Proof.Machine.execFcmp w s
  | .dcmp w => Sys2Proof.Machine.execDcmp w s
  | .pset w => Sys2Proof.Machine.execPset w s
  | .pmovToPred w => Sys2Proof.Machine.execPmovToPred w s
  | .pmovFromPred w => Sys2Proof.Machine.execPmovFromPred w s
  | .pmovSetall w => Sys2Proof.Machine.execPmovSetall w s
  | .pmovGetall w => Sys2Proof.Machine.execPmovGetall w s
  | .voteAll w => Sys2Proof.Machine.execVoteAll w s
  | .voteAny w => Sys2Proof.Machine.execVoteAny w s
  | .voteBallot w => Sys2Proof.Machine.execVoteBallot w s
  | .active w => Sys2Proof.Machine.execActive w s
  | .pmac2 w => Sys2Proof.Machine.execPmac2 w s
  | .pmul2 w => Sys2Proof.Machine.execPmul2 w s
  | .padd2 w => Sys2Proof.Machine.execPadd2 w s
  | .psub2 w => Sys2Proof.Machine.execPsub2 w s
  | .satadd w => Sys2Proof.Machine.execSatadd w s
  | .satsub w => Sys2Proof.Machine.execSatsub w s
  | .shrr w => Sys2Proof.Machine.execShrr w s
  | .packs w => Sys2Proof.Machine.execPacks w s
  | .unpack w => Sys2Proof.Machine.execUnpack w s
  | .eslide w => Sys2Proof.Machine.execEslide w s
  | .dot4 w => Sys2Proof.Machine.execDot4 w s
  | .dot8 w => Sys2Proof.Machine.execDot8 w s
  | .pmax2 w => Sys2Proof.Machine.execPmax2 w s
  | .pmin2 w => Sys2Proof.Machine.execPmin2 w s
  | .pabs2 w => Sys2Proof.Machine.execPabs2 w s
  | .cvt w => Sys2Proof.Machine.execCvt w s
  | .cvtf w => Sys2Proof.Machine.execCvtf w s
  | .packz w => Sys2Proof.Machine.execPackz w s
  | .unpz w => Sys2Proof.Machine.execUnpz w s
  | .scaleb w => Sys2Proof.Machine.execScaleb w s
  | .qnt w => Sys2Proof.Machine.execQnt w s
  | .dqnt w => Sys2Proof.Machine.execDqnt w s
  | .perm w => Sys2Proof.Machine.execPerm w s
  | .shuf w => Sys2Proof.Machine.execShuf w s
  | .wreduce w => Sys2Proof.Machine.execWreduce w s
  | .wscan w => Sys2Proof.Machine.execWscan w s
  | .matchL w => Sys2Proof.Machine.execMatchL w s
  | .rdlane w => Sys2Proof.Machine.execRdlane w s
  | .wrlane w => Sys2Proof.Machine.execWrlane w s
  | .ld w => Sys2Proof.Machine.execLd w s
  | .st w => Sys2Proof.Machine.execSt w s
  | .lds w => Sys2Proof.Machine.execLds w s
  | .sts w => Sys2Proof.Machine.execSts w s
  | .ldc w => Sys2Proof.Machine.execLdc w s
  | .stc w => Sys2Proof.Machine.execStc w s
  | .mst w => Sys2Proof.Machine.execMst w s
  | .pref w => Sys2Proof.Machine.execPref w s
  | .fence w => Sys2Proof.Machine.execFence w s
  | .cleanr w => Sys2Proof.Machine.execCleanr w s
  | .invalr w => Sys2Proof.Machine.execInvalr w s
  | .flushr w => Sys2Proof.Machine.execFlushr w s
  | .atom w => Sys2Proof.Machine.execAtom w s
  | .cas w => Sys2Proof.Machine.execCas w s
  | .red w => Sys2Proof.Machine.execRed w s
  | .atoms w => Sys2Proof.Machine.execAtoms w s
  | .cass w => Sys2Proof.Machine.execCass w s
  | .probe w => Sys2Proof.Machine.execProbe w s
  | .fpush w => Sys2Proof.Machine.execFpush w s
  | .fpop w => Sys2Proof.Machine.execFpop w s
  | .phreg w => Sys2Proof.Machine.execPhreg w s
  | .phdrop w => Sys2Proof.Machine.execPhdrop w s
  | .pharr w => Sys2Proof.Machine.execPharr w s
  | .phwait w => Sys2Proof.Machine.execPhwait w s
  | .phexp w => Sys2Proof.Machine.execPhexp w s
  | .phtest w => Sys2Proof.Machine.execPhtest w s
  | .ringacqNew w => Sys2Proof.Machine.execRingacqNew w s
  | .ringacqP w => Sys2Proof.Machine.execRingacqP w s
  | .ringacqC w => Sys2Proof.Machine.execRingacqC w s
  | .ringrelP w => Sys2Proof.Machine.execRingrelP w s
  | .ringrelC w => Sys2Proof.Machine.execRingrelC w s
  | .ringrelEnd w => Sys2Proof.Machine.execRingrelEnd w s
  | .rsbeg w => Sys2Proof.Machine.execRsbeg w s
  | .rsend w => Sys2Proof.Machine.execRsend w s
  | .gpstart w => Sys2Proof.Machine.execGpstart w s
  | .gpwait w => Sys2Proof.Machine.execGpwait w s
  | .gppoll w => Sys2Proof.Machine.execGppoll w s
  | .dacc w => Sys2Proof.Machine.execDacc w s
  | .dfpop w => Sys2Proof.Machine.execDfpop w s
  | .msend w => Sys2Proof.Machine.execMsend w s
  | .mrecv w => Sys2Proof.Machine.execMrecv w s
  | .mprobe w => Sys2Proof.Machine.execMprobe w s
  | .mcancel w => Sys2Proof.Machine.execMcancel w s
  | .gcall w => Sys2Proof.Machine.execGcall w s
  | .gwait w => Sys2Proof.Machine.execGwait w s
  | .gret w => Sys2Proof.Machine.execGret w s
  | .copy w => Sys2Proof.Machine.execCopy w s
  | .copyt w => Sys2Proof.Machine.execCopyt w s
  | .copym w => Sys2Proof.Machine.execCopym w s
  | .bankop w => Sys2Proof.Machine.execBankop w s
  | .mjob w => Sys2Proof.Machine.execMjob w s
  | .mpair w => Sys2Proof.Machine.execMpair w s
  | .mwait w => Sys2Proof.Machine.execMwait w s
  | .gmma w => Sys2Proof.Machine.execGmma w s
  | .launch w => Sys2Proof.Machine.execLaunch w s
  | .lquery w => Sys2Proof.Machine.execLquery w s
  | .rdsr w => Sys2Proof.Machine.execRdsr w s
  | .wrsr w => Sys2Proof.Machine.execWrsr w s
  | .view w => Sys2Proof.Machine.execView w s
  | .clkrd w => Sys2Proof.Machine.execClkrd w s
  | .cntrd w => Sys2Proof.Machine.execCntrd w s
  | .savef w => Sys2Proof.Machine.execSavef w s
  | .loadf w => Sys2Proof.Machine.execLoadf w s
  | .bankrole w => Sys2Proof.Machine.execBankrole w s
  | .scrub w => Sys2Proof.Machine.execScrub w s
  | .pairSNop w => Sys2Proof.Machine.execPairSNop w s
  | .pairSIadd w => Sys2Proof.Machine.execPairSIadd w s
  | .pairSIsub w => Sys2Proof.Machine.execPairSIsub w s
  | .pairSImul w => Sys2Proof.Machine.execPairSImul w s
  | .pairSImin w => Sys2Proof.Machine.execPairSImin w s
  | .pairSImax w => Sys2Proof.Machine.execPairSImax w s
  | .pairSAnd w => Sys2Proof.Machine.execPairSAnd w s
  | .pairSOr w => Sys2Proof.Machine.execPairSOr w s
  | .pairSXor w => Sys2Proof.Machine.execPairSXor w s
  | .pairSAndn w => Sys2Proof.Machine.execPairSAndn w s
  | .pairSShl w => Sys2Proof.Machine.execPairSShl w s
  | .pairSShr w => Sys2Proof.Machine.execPairSShr w s
  | .pairSSar w => Sys2Proof.Machine.execPairSSar w s
  | .pairSRotl w => Sys2Proof.Machine.execPairSRotl w s
  | .pairSMov w => Sys2Proof.Machine.execPairSMov w s
  | .pairVNop w => Sys2Proof.Machine.execPairVNop w s
  | .pairVIadd w => Sys2Proof.Machine.execPairVIadd w s
  | .pairVIsub w => Sys2Proof.Machine.execPairVIsub w s
  | .pairVImul w => Sys2Proof.Machine.execPairVImul w s
  | .pairVImin w => Sys2Proof.Machine.execPairVImin w s
  | .pairVImax w => Sys2Proof.Machine.execPairVImax w s
  | .pairVAnd w => Sys2Proof.Machine.execPairVAnd w s
  | .pairVOr w => Sys2Proof.Machine.execPairVOr w s
  | .pairVXor w => Sys2Proof.Machine.execPairVXor w s
  | .pairVAndn w => Sys2Proof.Machine.execPairVAndn w s
  | .pairVShl w => Sys2Proof.Machine.execPairVShl w s
  | .pairVShr w => Sys2Proof.Machine.execPairVShr w s
  | .pairVSar w => Sys2Proof.Machine.execPairVSar w s
  | .pairVMov w => Sys2Proof.Machine.execPairVMov w s
  | .pairVFadd w => Sys2Proof.Machine.execPairVFadd w s
  | .pairVFsub w => Sys2Proof.Machine.execPairVFsub w s
  | .pairVFmul w => Sys2Proof.Machine.execPairVFmul w s
  | .pairVFmin w => Sys2Proof.Machine.execPairVFmin w s
  | .pairVFmax w => Sys2Proof.Machine.execPairVFmax w s
  | .pairVHadd2 w => Sys2Proof.Machine.execPairVHadd2 w s
  | .pairVHmul2 w => Sys2Proof.Machine.execPairVHmul2 w s
  | .pairVPadd2 w => Sys2Proof.Machine.execPairVPadd2 w s
  | .pairVPsub2 w => Sys2Proof.Machine.execPairVPsub2 w s
  | .pairVSatadd w => Sys2Proof.Machine.execPairVSatadd w s
  | .pairVSatsub w => Sys2Proof.Machine.execPairVSatsub w s
  | .pairVPmax2 w => Sys2Proof.Machine.execPairVPmax2 w s
  | .pairVPmin2 w => Sys2Proof.Machine.execPairVPmin2 w s
  | .bridgeLineFetch => Sys2Proof.Machine.execBridgeLineFetch s
  | .placementWaitExpiry => Sys2Proof.Machine.execPlacementWaitExpiry s

end Sys2Proof.Machine
end

