-- ==== Sys2Proof/Machine/Step.lean ====
section
/-! DEFINITION. One step of the device: the turn that is due, which is a command or event, or the next word of a run. -/

namespace Sys2Proof.Machine

/-- One step. An event acts on what it finds, and leaves the state as it is where it may not happen; a word is taken from its
run, decoded and executed. -/
def step (s : State) : Host.Outcome State Fault Refusal :=
  match nextTurn s with
  | (.event h, s1) => exec h.row (offer (elapse s1) h)
  | (.word k, s1) =>
    match popWord s1 k with
    | none => .next s1
    | some (w, s2) =>
      match decodeWord w with
      | .ok i => exec i s2
      | .error _ => illegalWord s2 w

/-- The device with an instruction of a table row as the next word to issue, and a NOP that ends the run behind it. -/
def State.withFetchWord (s : State) (nbits w : Nat) : State :=
  placeRun s [BitVec.ofNat 64 (w % 2 ^ nbits), 0x8000000000000000#64]

end Sys2Proof.Machine
end

