-- ==== Sys2Proof/Safety.lean ====
section
/-! DEFINITION. What counts as a safe state and a safe run, in the terms the claims use. -/

namespace Sys2Proof.Safety

open Sys2Proof.Machine

/-- The byte memories stand in their canonical form: addresses rise strictly and no entry is the byte that an unlisted address
reads as. -/
def MemoriesWf (s : State) : Prop :=
  Memory.wf s.mem.dram = true ∧ Memory.wf s.mem.host = true ∧ Memory.wf s.core.sram = true

/-- The step answers a next state. -/
def Completes (o : Host.Outcome State Fault Refusal) : Prop := ∃ t, o = .next t

/-- The run of n steps meets no fault and no refusal. -/
def SafeFor (n : Nat) (s : State) : Prop :=
  match n with
  | 0 => True
  | n + 1 => ∃ t, step s = .next t ∧ SafeFor n t

end Sys2Proof.Safety
end

