-- ==== Sys2Proof/Certificates/Slice0/Obligations.lean ====
section
/-! DEFINITION. The statements for the provers: what the rules of the specification say that an instruction or an event does, in
terms of the model. The first part names what the statements share. -/

namespace Sys2Proof.Claims

open Sys2Proof.Machine

/-! ## What a word sees and leaves -/

/-- A unit has a word with this head next to issue, and sees this. -/
def Issuing (s : State) (h : Head) (c : Ctx) : Prop := wordCtx h s = some c

/-- The step answers this state. -/
def Answers (i : Instr) (s t : State) : Prop := exec i s = .next t

/-- The lane is one of the 32 and is active. -/
def ActiveIn (c : Ctx) (l : Nat) : Prop := l < 32 ∧ inMask c.act l = true

/-- Each v-register is in range and its row carries the domain's own tag (06 R87, 01 R18); a sequencer names none (04 R64). -/
def Named (s : State) (c : Ctx) (ns : List Nat) : Prop :=
  (c.g.isSeq = true → ns = []) ∧
  ∀ n ∈ ns, ∃ r, teamRow s c.g n = some r ∧ (s.rowTag (s.coreOf c.g) (physRow s c.g r)).owner = some (s.didOf c.g)

/-- No row that is read is poisoned (13 R207). -/
def Clean (s : State) (c : Ctx) (ns : List Nat) : Prop :=
  ∀ n ∈ ns, ∀ r, teamRow s c.g n = some r → (s.rowTag (s.coreOf c.g) (physRow s c.g r)).poison = false

/-- The two rows of a wide destination are different rows. -/
def TwoRows (s : State) (c : Ctx) (o : Opd) (cnt : Nat) : Prop :=
  ∀ n, o = .v n → cnt = 2 → teamRow s c.g n ≠ teamRow s c.g (n + 1)

/-- The operands of an R-form word may be read and written: a sequencer issues only what it may, every row is its own, and what is
read is clean. -/
def Ready (s : State) (c : Ctx) (w : RWord) (n : Widths) (seqOk : Bool) : Prop :=
  (c.g.isSeq = true → seqOk = true) ∧ Named s c (vregsOf w.d n.d ++ readsR w n) ∧ Clean s c (readsR w n) ∧ TwoRows s c w.d n.d

/-- The value in lane l of the register or pair of registers an operand names, seen with the rows the word was bound to. -/
def regAt (s : State) (c : Ctx) (o : Opd) (cnt l : Nat) : Bits64 :=
  let r : Nat → Word := fun j => (opdWords s c o .ident 0 j).getD l 0#32
  if cnt = 2 then join32 (r 0) (r 1) else (r 0).zeroExtend 64

/-- Register i of an operand in lane l. -/
def regWord (s : State) (c : Ctx) (o : Opd) (i l : Nat) : Word := (opdWords s c o .ident 0 i).getD l 0#32

/-- The value that lane l reads through a source's pattern. -/
def srcAt (s : State) (c : Ctx) (w : RWord) (o : Opd) (p : Pat) (cnt l : Nat) : Bits64 := (opdVals s c o p w.k.toNat cnt).getD l 0#64

/-- A value narrowed to one register or two. -/
def narrow (cnt : Nat) (x : Bits64) : Bits64 := if cnt = 2 then x else (lo32 x).zeroExtend 64

/-- The lane whose values give the result of lane l: an s-register destination takes the result once, of the lowest active lane
(17 R261). -/
def fromLane (c : Ctx) (w : RWord) (l : Nat) : Nat := if w.d.isS then lowLane c.act else l

/-- The run has moved past the word, and is over where the word carries the boundary bit (04 R54). -/
def Moved (s t : State) (c : Ctx) (h : Head) : Prop :=
  ∃ g r, t.group c.k = some g ∧ g.run = some r ∧ r.pc = c.pc + 8 ∧ r.words = c.r.words.tail ∧ r.closed = h.last ∧ r.trap = c.r.trap

/-- The word has ended its run with a trap, and none of its effect is there but that (04 R57, 13 R199): the trap's cause, subcode,
%trapinfo and saved PC. -/
def Trapped (t : State) (c : Ctx) (cause sub info pc : Nat) : Prop :=
  ∃ g r x, t.group c.k = some g ∧ g.run = some r ∧ r.closed = true ∧ r.trap = some x ∧ x.cause = cause ∧ x.sub = sub ∧
    x.info = info ∧ x.pc = pc ∧ x.depth = c.r.depth ∧ x.mask = c.r.gang

/-! ## What stays (frames) -/

/-- The device outside cores, administration and work is unchanged: every byte of device and host memory, what is cached, what is in
flight, the clocks. -/
def SameDevice (s t : State) : Prop := t.sys = s.sys ∧ t.mem = s.mem ∧ t.fly = s.fly ∧ t.ctl = s.ctl

/-- Domains and queues are unchanged, and of a partition all but its fault log. -/
def SameAdmin (s t : State) : Prop :=
  t.adm.doms = s.adm.doms ∧ t.adm.queues = s.adm.queues ∧
  ∀ p, { t.part p with log := 0#64 } = { s.part p with log := 0#64 }

/-- Teams are unchanged, of grids all but the counters they have used, of cores all but the increments not yet sent. -/
def SameTeams (s t : State) : Prop :=
  t.work.teams = s.work.teams ∧ (∀ n, (t.grid n).map (fun g => { g with used := [] }) = (s.grid n).map fun g => { g with used := [] }) ∧
  ∀ n, { t.coreAt n with incs := [] } = { s.coreAt n with incs := [] }

/-- A group without what issuing one word always touches: its state, the timers of its paths, its run, the results it awaits, its flags
and the traps that wait for the boundary. -/
def atRest (g : Group) : Group :=
  { g with st := .empty, paths := g.paths.map fun p => { p with timer := 0 }, run := none, results := [], flags := [], btraps := [] }

/-- Every other group is unchanged, and of this one all but what issuing a word touches. -/
def SameGroups (s t : State) (c : Ctx) (f : Group → Group) : Prop :=
  (∀ k, k ≠ c.k → t.group k = s.group k) ∧ (t.group c.k).map (fun g => f (atRest g)) = (s.group c.k).map fun g => f (atRest g)

/-- Keys of the rows of register space that a destination covers. -/
def destRowKeys (s : State) (c : Ctx) (o : Opd) (cnt : Nat) : List Nat :=
  match destOf s c o cnt with
  | .rows rs => rs.map fun r => s.coreOf c.g * 6144 + physRow s c.g r
  | _ => []

/-- Keys of the s-registers that a destination covers. -/
def destSregKeys (c : Ctx) (o : Opd) (cnt : Nat) : List Nat :=
  match o with
  | .s n => (upTo cnt).map fun j => c.k * 64 + (n + j)
  | _ => []

/-- Every register row outside a list, its tag, every s-register outside a list, and every byte and row tag of SRAM are unchanged. -/
def SameRegs (s t : State) (rows sregs : List Nat) : Prop :=
  (∀ x, x ∉ rows → tget t.core.rows x = tget s.core.rows x ∧ tget t.core.rowTags x = tget s.core.rowTags x) ∧
  (∀ x, x ∉ sregs → tget t.core.sregs x = tget s.core.sregs x) ∧
  (∀ a, memByte t.core.sram a = memByte s.core.sram a) ∧ t.core.sramTags = s.core.sramTags

/-- The frame of a word that works on registers alone. -/
def RegFrame (s t : State) (c : Ctx) (o : Opd) (cnt : Nat) (f : Group → Group) : Prop :=
  SameDevice s t ∧ SameAdmin s t ∧ SameTeams s t ∧ SameGroups s t c f ∧ SameRegs s t (destRowKeys s c o cnt) (destSregKeys c o cnt)

/-! ## Lane-wise words -/

/-- A lane-wise instruction: how its word is made, the registers its operands cover, whether the sequencer may issue it, and the value
and flags of a lane from the three values it reads. -/
structure Row where
  make : RWord → Instr
  n : RWord → Widths
  seqOk : Bool
  val : RWord → State → Ctx → Nat → Bits64 → Bits64 → Bits64 → LaneRes

/-- The result of lane l by a row. -/
def Row.at (e : Row) (w : RWord) (s : State) (c : Ctx) (l : Nat) : LaneRes :=
  let j := fromLane c w l
  e.val w s c j (srcAt s c w w.a w.pa (e.n w).a j) (srcAt s c w w.b w.pb (e.n w).b j) (srcAt s c w w.c w.pc (e.n w).c j)

/-- A word of fixed latency: the destination holds the results in the active lanes, or once in an s-register where some lane is active,
and what it held elsewhere; the flags of the active lanes have gained those of their results. -/
def Row.Fixed (e : Row) : Prop :=
  ∀ w s c, Issuing s w.h c → Ready s c w (e.n w) e.seqOk →
    ∃ t, Answers (e.make w) s t ∧ Moved s t c w.h ∧
      (∀ l, l < 32 → regAt t c w.d (e.n w).d l =
        if (if w.d.isS then c.act ≠ 0#32 else w.d.isV = true ∧ inMask c.act l = true) then narrow (e.n w).d (e.at w s c l).1
        else regAt s c w.d (e.n w).d l) ∧
      ∀ g, t.group c.k = some g → ∀ l, l < 32 →
        g.flags.getD l 0#8 = if inMask c.act l then c.g.flags.getD l 0#8 ||| (e.at w s c l).2 else c.g.flags.getD l 0#8

/-- A word of variable latency: its results are the last that the group awaits, complete, for the active lanes; no register and no flag has
changed yet (04 R56). -/
def Row.Variable (e : Row) : Prop :=
  ∀ w s c, Issuing s w.h c → Ready s c w (e.n w) e.seqOk → c.act ≠ 0#32 →
    ∃ t g x, Answers (e.make w) s t ∧ Moved s t c w.h ∧ t.group c.k = some g ∧ g.results = c.g.results ++ [x] ∧ x.done = true ∧
      x.dest = destOf s c w.d (e.n w).d ∧ x.lanes = c.act ∧
      (∀ l, ActiveIn c l → resultValue x.vals l = (e.at w s c l).1.toNat ∧ (l, (e.at w s c l).2) ∈ x.flags) ∧
      t.core.rows = s.core.rows ∧ t.core.sregs = s.core.sregs ∧ g.flags = c.g.flags

/-- The frame of a lane-wise word, whatever it meets. -/
def Row.Frames (e : Row) (f : Group → Group) : Prop :=
  ∀ w s t c, Issuing s w.h c → Answers (e.make w) s t → RegFrame s t c w.d (e.n w).d f

/-- A row on 32-bit operands that sets no flag: its function of M and the three values. -/
def plain (make : RWord → Instr) (seqOk : Bool) (f : Nat → Word → Word → Word → Word) : Row :=
  { make := make, n := fun _ => {}, seqOk := seqOk,
    val := fun w _ _ _ a b d => ((f w.m.toNat (lo32 a) (lo32 b) (lo32 d)).zeroExtend 64, 0#8) }

/-- A row on 32-bit operands with flags. -/
def flagged (make : RWord → Instr) (seqOk : Bool) (f : Nat → Word → Word → Word → LaneRes) : Row :=
  { make := make, n := fun _ => {}, seqOk := seqOk, val := fun w _ _ _ a b d => f w.m.toNat (lo32 a) (lo32 b) (lo32 d) }

/-- A row that is wide on every operand with M[0]. -/
def wideByM (make : RWord → Instr) (f : Bits64 → Bits64 → Bits64) : Row :=
  { make := make, n := fun w => if w.m.toNat % 2 = 1 then ⟨2, 2, 2, 1⟩ else ⟨1, 1, 1, 1⟩, seqOk := true,
    val := fun _ _ _ _ a b _ => (f a b, 0#8) }

/-- M[0] is set. -/
def m0 (m : Nat) : Bool := m % 2 == 1

/-! ## Integers (17 R264 to R269) -/

/-- The value of a saturating word: the clamped integer, with SAT where the clamp changed it (15 R238). -/
def satRes (lo hi x : Int) : LaneRes :=
  if x < lo then ((BitVec.ofInt 32 lo).zeroExtend 64, fSAT) else if hi < x then ((BitVec.ofInt 32 hi).zeroExtend 64, fSAT)
  else ((BitVec.ofInt 32 x).zeroExtend 64, 0#8)

/-- sat_s(x, 32). -/
def sat32 (x : Int) : LaneRes := satRes (-(2 ^ 31)) (2 ^ 31 - 1) x

/-- An integer modulo 2^32 without flags. -/
def mod32 (x : Int) : LaneRes := ((BitVec.ofInt 32 x).zeroExtend 64, 0#8)

/-- The magnitude of an integer. -/
def mag (x : Int) : Int := if x < 0 then -x else x

/-- The arithmetic words of 17 R265. -/
def arithRows : List Row :=
  [ wideByM .iadd (fun a b => a + b), wideByM .isub (fun a b => a - b),
    plain .imul true (fun _ a b _ => a * b),
    plain .imulh true (fun m a b _ =>
      if m0 m then BitVec.ofNat 32 (a.toNat * b.toNat / 2 ^ 32) else BitVec.ofInt 32 (a.toInt * b.toInt / 2 ^ 32)),
    plain .imad true (fun _ a b d => a * b + d),
    plain .imin true (fun m a b _ => if (if m0 m then a.ule b else a.sle b) then a else b),
    plain .imax true (fun m a b _ => if (if m0 m then b.ule a else b.sle a) then a else b),
    flagged .iabs true (fun m a _ _ => if m0 m then sat32 (mag a.toInt) else mod32 (mag a.toInt)),
    flagged .ineg true (fun m a _ _ => if m0 m then sat32 (-a.toInt) else mod32 (-a.toInt)),
    plain .lea true (fun m a b _ => a + b * BitVec.ofNat 32 (2 ^ (m % 8))),
    flagged .isad true (fun m a b d =>
      mod32 (mag (if m0 m then (a.toNat : Int) - b.toNat else a.toInt - b.toInt) + d.toNat)) ]

/-- The logic and shift words of 17 R266. -/
def logicRows : List Row :=
  [ plain .andw true (fun _ a b _ => a &&& b), plain .orw true (fun _ a b _ => a ||| b), plain .xorw true (fun _ a b _ => a ^^^ b),
    plain .andn true (fun _ a b _ => a &&& ~~~b), plain .shl true (fun _ a b _ => if 32 ≤ b.toNat then 0#32 else a <<< b.toNat), plain .shr true (fun _ a b _ => a >>> b),
    plain .sar true (fun _ a b _ => a.sshiftRight b.toNat),
    plain .rotl true (fun _ a b _ => let k := b.toNat % 32; a <<< k ||| a >>> (32 - k)) ]

/-- Position and used length of a field descriptor (17 R267). -/
def fieldOf (x : Word) : Nat × Nat := (x.toNat % 32, min (x.toNat / 256 % 64) (32 - x.toNat % 32))

/-- A field of a word. -/
def fieldIn (a : Word) (p n : Nat) : Nat := a.toNat / 2 ^ p % 2 ^ n

/-- The bit-field words of 17 R267. -/
def fieldRows : List Row :=
  [ plain .bfx true (fun m a b _ =>
      let p := (fieldOf b).1
      let n := (fieldOf b).2
      let x := fieldIn a p n
      if m0 m ∧ n ≠ 0 ∧ 2 ^ (n - 1) ≤ x then BitVec.ofInt 32 ((x : Int) - 2 ^ n) else BitVec.ofNat 32 x),
    plain .bfi true (fun _ a b d =>
      let m : Word := BitVec.ofNat 32 (2 ^ (fieldOf d).2 - 1) <<< (fieldOf d).1
      (b &&& ~~~m) ||| (a <<< (fieldOf d).1 &&& m)),
    plain .popc true (fun _ a _ _ => BitVec.ofNat 32 ((lanes32.filter fun i => a.getLsbD i).length)),
    plain .clz true (fun _ a _ _ => BitVec.ofNat 32 ((lanes32.find? fun i => a.getLsbD (31 - i)).getD 32)),
    plain .ctz true (fun _ a _ _ => BitVec.ofNat 32 ((lanes32.find? fun i => a.getLsbD i).getD 32)),
    plain .brev true (fun _ a _ _ => a.reverse) ]

/-- The quotient and remainder of 17 R269 with their flags. -/
def quotRem (u : Bool) (a b : Word) : Word × Word × LaneFlags :=
  if b = 0#32 then (0xFFFFFFFF#32, a, if a = 0#32 then fINVALID else fDIVZERO)
  else if u then (BitVec.ofNat 32 (a.toNat / b.toNat), BitVec.ofNat 32 (a.toNat % b.toNat), 0#8)
  else (BitVec.ofInt 32 (a.toInt.tdiv b.toInt), BitVec.ofInt 32 (a.toInt - a.toInt.tdiv b.toInt * b.toInt), 0#8)

/-- The division words. -/
def divRows : List Row :=
  [ flagged .idiv true (fun m a b _ => ((quotRem (m0 m) a b).1.zeroExtend 64, (quotRem (m0 m) a b).2.2)),
    flagged .irem true (fun m a b _ => ((quotRem (m0 m) a b).2.1.zeroExtend 64, (quotRem (m0 m) a b).2.2)) ]

/-- SEL and MOV (17 R268). -/
def movRows : List Row :=
  [ { make := .sel, n := fun _ => {}, seqOk := true,
      val := fun w _ c l a b _ => if c.g.pred (opdPred w.c) l then (a, 0#8) else (b, 0#8) },
    { make := .mov, n := fun w => if w.m.toNat % 2 = 1 then ⟨2, 2, 1, 1⟩ else ⟨1, 1, 1, 1⟩, seqOk := true,
      val := fun _ _ _ _ a _ _ => (a, 0#8) } ]

/-! ## Predicates (17 R278 to R281) -/

/-- A word that writes one predicate: how it is made, the registers of its sources, and the truth and flags of a lane from the two values
it reads; the truth is ANDed with p(C). -/
structure PRow where
  make : RWord → Instr
  n : Widths
  val : RWord → Ctx → Nat → Bits64 → Bits64 → Bool × LaneFlags

/-- The truth and flags of lane l. -/
def PRow.at (e : PRow) (w : RWord) (s : State) (c : Ctx) (l : Nat) : Bool × LaneFlags :=
  e.val w c l (srcAt s c w w.a w.pa e.n.a l) (srcAt s c w w.b w.pb e.n.b l)

/-- A destination predicate is one of p1 to p7, and the group has its seven. -/
def PredDest (c : Ctx) (o : Opd) : Prop := c.g.preds.length = 7 ∧ 1 ≤ opdPred o ∧ opdPred o ≤ 7

/-- The predicates of the unit after a word that writes predicate n in the active lanes with a truth, and none else. -/
def PredIs (t : State) (c : Ctx) (n : Nat) (v : Nat → Bool) : Prop :=
  ∀ g, t.group c.k = some g → ∀ l, l < 32 → ∀ j, j ≤ 7 →
    g.pred j l = if j = n ∧ inMask c.act l = true then v l else c.g.pred j l

/-- The predicate holds the truth ANDed with p(C), and the active lanes have gained the flags. -/
def PRow.Holds (e : PRow) : Prop :=
  ∀ w s c, Issuing s w.h c → Ready s c w e.n true → PredDest c w.d →
    ∃ t, Answers (e.make w) s t ∧ Moved s t c w.h ∧
      PredIs t c (opdPred w.d) (fun l => (e.at w s c l).1 && c.g.pred (opdPred w.c) l) ∧
      ∀ g, t.group c.k = some g → ∀ l, l < 32 →
        g.flags.getD l 0#8 = if inMask c.act l then c.g.flags.getD l 0#8 ||| (e.at w s c l).2 else c.g.flags.getD l 0#8

/-- A group without its predicates. -/
def noPreds (g : Group) : Group := { g with preds := [] }

/-- The frame of a word that writes predicates. -/
def PRow.Frames (e : PRow) : Prop :=
  ∀ w s t c, Issuing s w.h c → Answers (e.make w) s t → RegFrame s t c .none 1 noPreds

/-- The six conditions on an order. -/
def condition (cc : Nat) (eq lt gt : Bool) : Bool :=
  match cc with
  | 0 => eq
  | 1 => !eq
  | 2 => lt
  | 3 => lt || eq
  | 4 => gt
  | _ => gt || eq

/-- ICMP on two words. -/
def icmp (m : Nat) (a b : Word) : Bool :=
  if m / 8 % 2 = 1 then condition (m % 8) (a == b) (a.ult b) (b.ult a) else condition (m % 8) (a == b) (a.slt b) (b.slt a)

/-- FCMP and DCMP on two numbers, with the flags (17 R279). -/
def fcmp (m : Nat) (x y : FltNum) : Bool × LaneFlags :=
  let nan := x.isNan || y.isNan
  (if nan then m % 8 == 1 || m % 8 == 7
   else if m % 8 = 6 then true else if m % 8 = 7 then false
   else condition (m % 8) (!x.lt y && !y.lt x) (x.lt y) (y.lt x),
   if x.isSig || y.isSig || (m / 8 % 2 == 1 && nan) then fINVALID else 0#8)

/-- The compares, and PMOV into a predicate. -/
def compareRows : List PRow :=
  [ { make := .icmp, n := {}, val := fun w _ _ a b => (icmp w.m.toNat (lo32 a) (lo32 b), 0#8) },
    { make := .fcmp, n := {}, val := fun w _ _ a b => fcmp w.m.toNat (f32 (lo32 a)) (f32 (lo32 b)) },
    { make := .dcmp, n := ⟨1, 2, 2, 1⟩, val := fun w _ _ a b => fcmp w.m.toNat (f64 a) (f64 b) },
    { make := .pmovToPred, n := {}, val := fun _ _ _ a _ => (lo32 a != 0#32, 0#8) } ]

/-- PSET of two truths. -/
def pset (m : Nat) (p q : Bool) : Bool :=
  xor (m / 4 % 2 == 1) (match m % 4 with
    | 0 => p && q
    | 1 => p || q
    | 2 => xor p q
    | _ => p && !q)

/-- The lane-wise words of 17 R280 and R281 that write registers from predicates or from the gang. -/
def fromPredRows : List Row :=
  [ { make := .pmovFromPred, n := fun _ => {}, seqOk := true,
      val := fun w _ c l _ _ _ => (if c.g.pred (opdPred w.a) l then 1#64 else 0#64, 0#8) },
    { make := .pmovGetall, n := fun _ => {}, seqOk := true,
      val := fun _ _ c l _ _ _ =>
        ((BitVec.ofNat 64 (1 + (([1, 2, 3, 4, 5, 6, 7].filter fun j => c.g.pred j l).map (2 ^ ·)).sum)), 0#8) },
    { make := .voteBallot, n := fun _ => {}, seqOk := true,
      val := fun w _ c _ _ _ _ =>
        ((BitVec.ofNat 64 (((lanes32.filter fun l => inMask c.act l && c.g.pred (opdPred w.a) l).map (2 ^ ·)).sum)), 0#8) },
    { make := .active, n := fun _ => {}, seqOk := true,
      val := fun _ _ c _ _ _ _ => (c.act.zeroExtend 64, 0#8) } ]

/-! ## Floats (17 R270 to R277) -/

/-- A row of one wide result on wide sources, not for the sequencer. -/
def dbl (make : RWord → Instr) (f : Nat → FltNum → FltNum → FltNum → LaneRes) : Row :=
  { make := make, n := fun _ => ⟨2, 2, 2, 2⟩, seqOk := false, val := fun w _ _ _ a b d => f w.m.toNat (f64 a) (f64 b) (f64 d) }

/-- A row of one FP32 result on FP32 sources, not for the sequencer. -/
def sgl (make : RWord → Instr) (f : Nat → FltNum → FltNum → FltNum → LaneRes) : Row :=
  { make := make, n := fun _ => {}, seqOk := false,
    val := fun w _ _ _ a b d => f w.m.toNat (f32 (lo32 a)) (f32 (lo32 b)) (f32 (lo32 d)) }

/-- A number rounded into a format in the mode M[1:0] names (15 R229). -/
def rounded (f : Fmt) (m : Nat) (x : FltNum) : LaneRes :=
  (BitVec.ofNat 64 (round f (rmodeOf m) x).1, (round f (rmodeOf m) x).2)

/-- The sign of a source changed where a bit of M asks for it. -/
def signed? (m bit : Nat) (x : FltNum) : FltNum := if m / 2 ^ bit % 2 = 1 then x.negate else x

/-- M[1:0] names RD. -/
def isRd (m : Nat) : Bool := m % 4 == 2

/-- The FP32 words of one exact operation and one rounding (17 R271). -/
def exactRows : List Row :=
  [ sgl .fadd (fun m x y _ => rounded fp32 m (addN (isRd m) (signed? m 3 x) (signed? m 2 y))),
    sgl .fsub (fun m x y _ => rounded fp32 m (addN (isRd m) (signed? m 3 x) (signed? m 2 y).negate)),
    sgl .fmul (fun m x y _ => rounded fp32 m (mulN (signed? m 3 x) (signed? m 2 y))),
    sgl .ffma (fun m x y z => rounded fp32 m (addN (isRd m) (mulN (signed? m 3 x) y) (signed? m 2 z))),
    dbl .dadd (fun m x y _ => rounded fp64 m (addN (isRd m) (signed? m 3 x) (signed? m 2 y))),
    dbl .dmul (fun m x y _ => rounded fp64 m (mulN (signed? m 3 x) (signed? m 2 y))),
    dbl .dfma (fun m x y z => rounded fp64 m (addN (isRd m) (mulN (signed? m 3 x) y) (signed? m 2 z))) ]

/-- The FP32 words that choose, scale or classify (17 R272, R275), and the half words (17 R276, R277). -/
def chooseRows : List Row :=
  [ flagged .fmin false (fun _ a b _ => fltMinMax false a b), flagged .fmax false (fun _ a b _ => fltMinMax true a b),
    flagged .fmed3 false (fun _ a b d => fltMed3 a b d),
    flagged .fabs false (fun _ a _ _ =>
      if (f32 a).isNan then (0x7FC00000#64, if (f32 a).isSig then fINVALID else 0#8) else ((a &&& 0x7FFFFFFF#32).zeroExtend 64, 0#8)),
    flagged .fneg false (fun _ a _ _ =>
      if (f32 a).isNan then (0x7FC00000#64, if (f32 a).isSig then fINVALID else 0#8) else ((a ^^^ 0x80000000#32).zeroExtend 64, 0#8)),
    flagged .frnd false (fun m a _ _ => fltRnd m a), flagged .fscale false (fun m a b _ => fltScale m a b),
    { make := .fclass, n := fun w => if w.m.toNat / 4 % 2 = 1 then ⟨1, 2, 1, 1⟩ else ⟨1, 1, 1, 1⟩, seqOk := false,
      val := fun w _ _ _ a _ _ => if w.m.toNat / 4 % 2 = 1 then fltClass fp64 a.toNat else fltClass fp32 (lo32 a).toNat },
    flagged .hfma2 false (fun m a b d => fltHfma2 m a b d), flagged .hadd2 false (fun m a b _ => fltHadd2 m a b),
    flagged .hmul2 false (fun m a b _ => fltHmul2 m a b), flagged .fdot2 false (fun m a b d => fltDot2 m a b d),
    { make := .fdot4z, n := fun _ => {}, seqOk := false,
      val := fun w s c _ a b d => fltDot4z (slotWord s c.g (w.m.toNat % 8)) (lo32 a) (lo32 b) (lo32 d) } ]

/-- The float words of variable latency (17 R273, R274): quotients and roots are exact and rounded once, the others are faithful. -/
def rootRows : List Row :=
  [ sgl .fdiv (fun m x y _ => fltDiv fp32 m x y), sgl .frcp (fun m x _ _ => fltDiv fp32 m (.fin false 1 1) x),
    sgl .fsqrt (fun m x _ _ => fltSqrt fp32 m x), flagged .frsq false (fun m a _ _ => fltRsq m a),
    dbl .ddiv (fun m x y _ => fltDiv fp64 m x y), dbl .dsqrt (fun m x _ _ => fltSqrt fp64 m x),
    flagged .fex2 false (fun _ a _ _ => fltEx2 a), flagged .flg2 false (fun _ a _ _ => fltLg2 a),
    flagged .fsin false (fun _ a _ _ => fltSin a), flagged .fcos false (fun _ a _ _ => fltCos a),
    flagged .ftanh false (fun _ a _ _ => fltTanh a) ]

/-! ## Packed integers (17 R282 to R286) -/

/-- A clamped 16-bit integer, with whether the clamp changed it. -/
def clamp16 (lo hi x : Int) : BitVec 16 × Bool :=
  if x < lo then (BitVec.ofInt 16 lo, true) else if hi < x then (BitVec.ofInt 16 hi, true) else (BitVec.ofInt 16 x, false)

/-- sat_s(x, 16). -/
def s16 (x : Int) : BitVec 16 × Bool := clamp16 (-32768) 32767 x

/-- sat_u(x, 16). -/
def u16 (x : Int) : BitVec 16 × Bool := clamp16 0 65535 x

/-- An integer modulo 2^16. -/
def w16 (x : Int) : BitVec 16 × Bool := (BitVec.ofInt 16 x, false)

/-- Half h of a word. -/
def halfOf (x : Word) (h : Nat) : BitVec 16 := x.extractLsb' (16 * h) 16

/-- Two halves as a result, with SAT where a clamp changed either. -/
def joined (l h : BitVec 16 × Bool) : LaneRes := ((h.1 ++ l.1 : BitVec 32).zeroExtend 64, if l.2 || h.2 then fSAT else 0#8)

/-- An operation on both halves of two words, read signed or unsigned. -/
def onHalf (u : Bool) (f : Int → Int → BitVec 16 × Bool) (a b : Word) : LaneRes :=
  let r : BitVec 16 → Int := fun x => if u then (x.toNat : Int) else x.toInt
  joined (f (r (halfOf a 0)) (r (halfOf b 0))) (f (r (halfOf a 1)) (r (halfOf b 1)))

/-- The rounding right shift of 15 R239. -/
def shiftRound (x : Int) (n : Nat) : Int := if n = 0 then x else (x + 2 ^ (n - 1)) / 2 ^ n

/-- The narrowing of PADD2 and PSUB2 by M: wrap, `.SAT`, `.SAT.U`. -/
def addMode (m : Nat) (x : Int) : BitVec 16 × Bool := if m = 0 then w16 x else if m = 1 then s16 x else u16 x

/-- The words of 17 R283. -/
def halfRows : List Row :=
  [ flagged .pmac2 false (fun _ a b d =>
      sat32 (d.toInt + (halfOf a 0).toInt * (halfOf b 0).toInt + (halfOf a 1).toInt * (halfOf b 1).toInt)),
    flagged .pmul2 false (fun m a b _ => onHalf false (fun x y =>
      match m % 4 with
      | 0 => w16 (x * y)
      | 1 => s16 (x * y)
      | 2 => w16 (x * y / 65536)
      | _ => s16 (shiftRound (x * y) 15)) a b),
    flagged .padd2 false (fun m a b _ => onHalf (m == 3) (fun x y => addMode m (x + y)) a b),
    flagged .psub2 false (fun m a b _ => onHalf (m == 3) (fun x y => addMode m (x - y)) a b),
    flagged .pmax2 false (fun m a b _ => onHalf (m0 m) (fun x y => w16 (if x < y then y else x)) a b),
    flagged .pmin2 false (fun m a b _ => onHalf (m0 m) (fun x y => w16 (if y < x then y else x)) a b),
    flagged .pabs2 false (fun m a _ _ => onHalf false (fun x _ => if m0 m then s16 (mag x) else w16 (mag x)) a a) ]

/-- The sum of n products of w-bit elements. -/
def products (w : Nat) (ua ub : Bool) (a b : Word) (n : Nat) : Int :=
  ((upTo n).map fun j =>
    let r : Bool → Word → Int := fun u x =>
      let e := x.toNat / 2 ^ (w * j) % 2 ^ w
      if u ∨ e < 2 ^ (w - 1) then (e : Int) else (e : Int) - 2 ^ w
    r ua a * r ub b).sum

/-- A byte clamped, signed or unsigned, and whether the clamp changed it. -/
def clamp8 (u : Bool) (x : Int) : BitVec 8 × Bool :=
  if x < (if u then 0 else -128) then (if u then 0#8 else 0x80#8, true)
  else if (if u then 255 else 127) < x then (if u then 0xFF#8 else 0x7F#8, true) else (BitVec.ofInt 8 x, false)

/-- The words of 17 R284 to R286. -/
def repackRows : List Row :=
  [ flagged .satadd false (fun m a b _ =>
      if m0 m then satRes 0 (2 ^ 32 - 1) ((a.toNat : Int) + b.toNat) else sat32 (a.toInt + b.toInt)),
    flagged .satsub false (fun m a b _ =>
      if m0 m then satRes 0 (2 ^ 32 - 1) ((a.toNat : Int) - b.toNat) else sat32 (a.toInt - b.toInt)),
    flagged .shrr false (fun m a b _ =>
      let n := if b.toNat < 31 then b.toNat else 31
      match m % 4 with
      | 0 => sat32 (shiftRound a.toInt n)
      | 1 => (((s16 (shiftRound a.toInt n)).1.signExtend 32).zeroExtend 64, if (s16 (shiftRound a.toInt n)).2 then fSAT else 0#8)
      | _ => onHalf false (fun x _ => s16 (shiftRound x n)) a a),
    flagged .packs false (fun m a b _ =>
      if m / 2 % 2 = 0 then joined (if m0 m then u16 a.toInt else s16 a.toInt) (if m0 m then u16 b.toInt else s16 b.toInt)
      else
        let e : Word → Nat → BitVec 8 × Bool := fun x h => clamp8 (m0 m) (halfOf x h).toInt
        (((e b 1).1 ++ (e b 0).1 ++ (e a 1).1 ++ (e a 0).1 : BitVec 32).zeroExtend 64,
          if (e a 0).2 || (e a 1).2 || (e b 0).2 || (e b 1).2 then fSAT else 0#8)),
    plain .unpack false (fun m a b _ =>
      match m % 4 with
      | 0 => (halfOf a (b.toNat % 2)).signExtend 32
      | 1 => (halfOf a (b.toNat % 2)).zeroExtend 32
      | 2 => (a.extractLsb' (8 * (b.toNat % 4)) 8).signExtend 32
      | _ => (a.extractLsb' (8 * (b.toNat % 4)) 8).zeroExtend 32),
    { make := .eslide, n := fun _ => {}, seqOk := false,
      val := fun w s c l _ _ _ =>
        let e : Nat → BitVec 16 := fun k =>
          if k < 64 then halfOf (lo32 (srcAt s c w w.a w.pa 1 (k / 2))) (k % 2)
          else halfOf (lo32 (srcAt s c w w.b w.pb 1 ((k - 64) / 2))) (k % 2)
        ((e (2 * l + 1 + w.m.toNat) ++ e (2 * l + w.m.toNat) : BitVec 32).zeroExtend 64, 0#8) },
    flagged .dot4 false (fun m a b d =>
      (if m0 m then sat32 else mod32) (d.toInt + products 8 (m / 2 % 2 == 1) (m / 4 % 2 == 1) a b 4)),
    flagged .dot8 false (fun m a b d =>
      (if m0 m then sat32 else mod32) (d.toInt + products 4 (m / 2 % 2 == 1) (m / 4 % 2 == 1) a b 8)) ]

/-! ## Conversions (17 R287 to R291) -/

/-- A conversion under the grid's format slot that M[2:0] names. -/
def underSlot (make : RWord → Instr) (n : Widths) (f : Nat → Bits64 → Bits64 → Bits64 → Bits64 → LaneRes) : Row :=
  { make := make, n := fun _ => n, seqOk := false,
    val := fun w s c _ a b d => f w.m.toNat (slotWord s c.g (w.m.toNat % 8)) a b d }

/-- The conversion words. -/
def convertRows : List Row :=
  [ underSlot .cvt {} (fun m f a _ _ => Machine.cvt m f (lo32 a)), underSlot .cvtf ⟨2, 2, 1, 1⟩ (fun m f a _ _ => Machine.cvtf m f a),
    underSlot .packz {} (fun _ f a b d => Machine.packz f (lo32 a) (lo32 b) (lo32 d)),
    underSlot .unpz {} (fun _ f a b _ => Machine.unpz f (lo32 a) (lo32 b)),
    underSlot .qnt {} (fun _ f a b _ => Machine.qnt f (lo32 a) (lo32 b)),
    underSlot .dqnt {} (fun _ f a b _ => Machine.dqnt f (lo32 a) (lo32 b)),
    { make := .scaleb, n := fun _ => {}, seqOk := false,
      val := fun w s c l _ _ _ =>
        let f := slotWord s c.g (w.m.toNat % 8)
        let n := blockLanes (slotOf f)
        Machine.scaleb f ((lanes32.filter fun j => inMask c.act j && j / n == l / n).map fun j => lo32 (srcAt s c w w.a w.pa 1 j)) } ]

/-! ## Cross-lane words (18 R299 to R302) -/

/-- A cross-lane instruction: whether it is a collective, the lanes it writes, and the value and flags of each. -/
structure XRow where
  make : RWord → Instr
  n : RWord → Widths
  coll : Bool
  lanes : RWord → State → Ctx → Nat → Bool
  val : RWord → State → Ctx → Nat → LaneRes

/-- Source A, B or C of a cross-lane word in a lane. -/
def aAt (w : RWord) (s : State) (c : Ctx) (l : Nat) : Word := lo32 (srcAt s c w w.a w.pa 1 l)
/-- Source B. -/
def bAt (w : RWord) (s : State) (c : Ctx) (l : Nat) : Word := lo32 (srcAt s c w w.b w.pb 1 l)
/-- Source C. -/
def cAt (w : RWord) (s : State) (c : Ctx) (l : Nat) : Word := lo32 (srcAt s c w w.c w.pc 1 l)

/-- The word acts: some lane is active, and a collective has the whole entry mask (04 R66). -/
def Acts (c : Ctx) (coll : Bool) : Prop := c.act ≠ 0#32 ∧ (coll = true → c.r.gang = c.g.live ∧ c.act = c.r.gang)

/-- The word's results are the last that the group awaits, complete. -/
def XRow.Holds (e : XRow) : Prop :=
  ∀ w s c, Issuing s w.h c → Ready s c w (e.n w) false → Acts c e.coll →
    ∃ t g x, Answers (e.make w) s t ∧ Moved s t c w.h ∧ t.group c.k = some g ∧ g.results = c.g.results ++ [x] ∧ x.done = true ∧
      x.dest = destOf s c w.d (e.n w).d ∧
      ∀ l, l < 32 → inMask x.lanes l = e.lanes w s c l ∧
        (e.lanes w s c l = true → resultValue x.vals l = (e.val w s c l).1.toNat ∧ (l, (e.val w s c l).2) ∈ x.flags)

/-- A collective whose guard is false in every lane is a no-op; one that has neither all nor none of the entry mask traps with MASK (04
R66). -/
def XRow.Collective (e : XRow) : Prop :=
  ∀ w s c, Issuing s w.h c → Ready s c w (e.n w) false → e.coll = true →
    (c.act = 0#32 → ∃ t g, Answers (e.make w) s t ∧ Moved s t c w.h ∧ t.group c.k = some g ∧ g.results = c.g.results ∧
      t.core.rows = s.core.rows ∧ t.core.sregs = s.core.sregs) ∧
    (c.act ≠ 0#32 → ¬ (c.r.gang = c.g.live ∧ c.act = c.r.gang) →
      ∃ t, Answers (e.make w) s t ∧ Trapped t c 0x04 0 c.r.gang.toNat c.pc)

/-- The frame of a cross-lane word: it writes no register before its boundary. -/
def XRow.Frames (e : XRow) : Prop := ∀ w s t c, Issuing s w.h c → Answers (e.make w) s t → RegFrame s t c .none 1 id

/-- The active lane in question. -/
def actLane (_ : RWord) (_ : State) (c : Ctx) (l : Nat) : Bool := inMask c.act l

/-- The cross-lane words. -/
def crossRows : List XRow :=
  [ { make := .perm, n := fun _ => {}, coll := false, lanes := actLane,
      val := fun w s c l => ((aAt w s c ((bAt w s c l).toNat % 32)).zeroExtend 64, 0#8) },
    { make := .shuf, n := fun _ => {}, coll := false, lanes := actLane,
      val := fun w s c l =>
        let j := (bAt w s c l).toNat
        (if j / 64 % 2 = 1 then 0#64 else if j % 64 < 32 then (aAt w s c (j % 64)).zeroExtend 64
          else (cAt w s c (j % 64 - 32)).zeroExtend 64, 0#8) },
    { make := .rdlane, n := fun _ => {}, coll := false, lanes := actLane,
      val := fun w s c l => ((aAt w s c ((bAt w s c l).toNat % 32)).zeroExtend 64, 0#8) },
    { make := .wrlane, n := fun _ => {}, coll := false,
      lanes := fun w s c l => inMask c.act l && l == (bAt w s c 0).toNat % 32, val := fun w s c l => ((aAt w s c l).zeroExtend 64, 0#8) },
    { make := .wreduce, n := fun _ => {}, coll := true, lanes := actLane,
      val := fun w s c _ => combine w.m.toNat ((lanesOf c.act).map (aAt w s c)) },
    { make := .wscan, n := fun _ => {}, coll := true, lanes := actLane,
      val := fun w s c l => combine w.m.toNat (((lanesOf c.act).filter (· ≤ l)).map (aAt w s c)) },
    { make := .matchL, n := fun w => ⟨1, if w.m.toNat % 2 = 1 then 2 else 1, 1, 1⟩, coll := true, lanes := actLane,
      val := fun w s c l =>
        let v : Nat → Bits64 := srcAt s c w w.a w.pa (if w.m.toNat % 2 = 1 then 2 else 1)
        (BitVec.ofNat 64 (((lanes32.filter fun j => inMask c.act j && v j == v l).map (2 ^ ·)).sum), 0#8) } ]

/-! ## Control words (18 R294 to R298) -/

/-- The run is over and every lane of its gang that has not exited has a successor: that which the word names in the active lanes, else
the word after (04 R58, 18 R295). -/
def Leaves (t : State) (c : Ctx) (f : Nat → Nat × Nat) : Prop :=
  ∃ g r, t.group c.k = some g ∧ g.run = some r ∧ r.closed = true ∧ r.trap = c.r.trap ∧ r.exits = c.r.exits ∧
    (c.r.trap = none →
      let named := c.r.succ ++ (lanesOf c.act).map fun l => { lane := l, pc := (f l).1, depth := (f l).2 : Succ }
      r.succ = named ++ (lanesOf (c.r.gang &&& ~~~c.r.exits)).filterMap fun l =>
        if named.any (·.lane == l) then none else some { lane := l, pc := c.pc + 8, depth := c.r.depth : Succ })

/-- The address 8 × sext(IMM24) bytes from a word, modulo 2^57. -/
def jumpTo (pc : Nat) (imm : BitVec 24) : Nat := (((pc : Int) + 8 * imm.toInt) % 2 ^ 57).toNat

/-- The state's registers and flags are unchanged. -/
def SameValues (s t : State) (c : Ctx) : Prop :=
  t.core.rows = s.core.rows ∧ t.core.sregs = s.core.sregs ∧ ∀ g, t.group c.k = some g → g.flags = c.g.flags ∧ g.preds = c.g.preds

/-- The frame of a word that writes no register. -/
def StillFrame (s t : State) (c : Ctx) : Prop := RegFrame s t c .none 1 id ∧ ∀ g, t.group c.k = some g → g.flags = c.g.flags

/-- The guard is false in every lane, and the word has done nothing but pass. -/
def Passed (i : Instr) (s : State) (c : Ctx) (h : Head) : Prop := ∃ t, Answers i s t ∧ Moved s t c h ∧ SameValues s t c

/-- The value of IADDC in a lane: the sum of the two sources and the carry in. -/
def carrySum (w : RWord) (s : State) (c : Ctx) (l : Nat) : Nat :=
  (lo32 (srcAt s c w w.a w.pa 1 l)).toNat + (lo32 (srcAt s c w w.b w.pb 1 l)).toNat +
    (if (carryOf w.c).1 ≠ 0 ∧ c.g.pred (carryOf w.c).1 l = true then 1 else 0)

/-! ## Pair words (16 R249 to R251) -/

/-- A pair instruction: how its word is made and its two operations. -/
structure PairRow where
  make : PairWord → Instr
  so : PairWord → SOp
  vo : PairWord → VOp

/-- The pair instructions. -/
def pairRows : List PairRow :=
  [ { make := .pairSNop, so := fun _ => .nop, vo := (·.vop) }, { make := .pairSIadd, so := fun _ => .iadd, vo := (·.vop) },
    { make := .pairSIsub, so := fun _ => .isub, vo := (·.vop) }, { make := .pairSImul, so := fun _ => .imul, vo := (·.vop) },
    { make := .pairSImin, so := fun _ => .imin, vo := (·.vop) }, { make := .pairSImax, so := fun _ => .imax, vo := (·.vop) },
    { make := .pairSAnd, so := fun _ => .andw, vo := (·.vop) }, { make := .pairSOr, so := fun _ => .orw, vo := (·.vop) },
    { make := .pairSXor, so := fun _ => .xorw, vo := (·.vop) }, { make := .pairSAndn, so := fun _ => .andn, vo := (·.vop) },
    { make := .pairSShl, so := fun _ => .shl, vo := (·.vop) }, { make := .pairSShr, so := fun _ => .shr, vo := (·.vop) },
    { make := .pairSSar, so := fun _ => .sar, vo := (·.vop) }, { make := .pairSRotl, so := fun _ => .rotl, vo := (·.vop) },
    { make := .pairSMov, so := fun _ => .mov, vo := (·.vop) }, { make := .pairVNop, so := (·.sop), vo := fun _ => .nop },
    { make := .pairVIadd, so := (·.sop), vo := fun _ => .iadd }, { make := .pairVIsub, so := (·.sop), vo := fun _ => .isub },
    { make := .pairVImul, so := (·.sop), vo := fun _ => .imul }, { make := .pairVImin, so := (·.sop), vo := fun _ => .imin },
    { make := .pairVImax, so := (·.sop), vo := fun _ => .imax }, { make := .pairVAnd, so := (·.sop), vo := fun _ => .andw },
    { make := .pairVOr, so := (·.sop), vo := fun _ => .orw }, { make := .pairVXor, so := (·.sop), vo := fun _ => .xorw },
    { make := .pairVAndn, so := (·.sop), vo := fun _ => .andn }, { make := .pairVShl, so := (·.sop), vo := fun _ => .shl },
    { make := .pairVShr, so := (·.sop), vo := fun _ => .shr }, { make := .pairVSar, so := (·.sop), vo := fun _ => .sar },
    { make := .pairVMov, so := (·.sop), vo := fun _ => .mov }, { make := .pairVFadd, so := (·.sop), vo := fun _ => .fadd },
    { make := .pairVFsub, so := (·.sop), vo := fun _ => .fsub }, { make := .pairVFmul, so := (·.sop), vo := fun _ => .fmul },
    { make := .pairVFmin, so := (·.sop), vo := fun _ => .fmin }, { make := .pairVFmax, so := (·.sop), vo := fun _ => .fmax },
    { make := .pairVHadd2, so := (·.sop), vo := fun _ => .hadd2 }, { make := .pairVHmul2, so := (·.sop), vo := fun _ => .hmul2 },
    { make := .pairVPadd2, so := (·.sop), vo := fun _ => .padd2 }, { make := .pairVPsub2, so := (·.sop), vo := fun _ => .psub2 },
    { make := .pairVSatadd, so := (·.sop), vo := fun _ => .satadd }, { make := .pairVSatsub, so := (·.sop), vo := fun _ => .satsub },
    { make := .pairVPmax2, so := (·.sop), vo := fun _ => .pmax2 }, { make := .pairVPmin2, so := (·.sop), vo := fun _ => .pmin2 } ]

/-- The function of a scalar pair operation. -/
def scalarFn (o : SOp) (a b : Word) : Word :=
  match o with
  | .nop => 0#32
  | .iadd => a + b
  | .isub => a - b
  | .imul => a * b
  | .imin => if a.sle b then a else b
  | .imax => if b.sle a then a else b
  | .andw => a &&& b
  | .orw => a ||| b
  | .xorw => a ^^^ b
  | .andn => a &&& ~~~b
  | .shl => if 32 ≤ b.toNat then 0#32 else a <<< b.toNat
  | .shr => a >>> b
  | .sar => a.sshiftRight b.toNat
  | .rotl => let k := b.toNat % 32; a <<< k ||| a >>> (32 - k)
  | .mov => b

/-- The function of a vector pair operation in a lane, with its flags: that of the full-form instruction with M = 0. -/
def vectorFn (o : VOp) (a b : Word) : LaneRes :=
  let w : Word → LaneRes := fun x => (x.zeroExtend 64, 0#8)
  match o with
  | .nop => (0#64, 0#8)
  | .iadd => w (a + b)
  | .isub => w (a - b)
  | .imul => w (a * b)
  | .imin => w (if a.sle b then a else b)
  | .imax => w (if b.sle a then a else b)
  | .andw => w (a &&& b)
  | .orw => w (a ||| b)
  | .xorw => w (a ^^^ b)
  | .andn => w (a &&& ~~~b)
  | .shl => w (if 32 ≤ b.toNat then 0#32 else a <<< b.toNat)
  | .shr => w (a >>> b)
  | .sar => w (a.sshiftRight b.toNat)
  | .mov => w a
  | .fadd => rounded fp32 0 (addN false (f32 a) (f32 b))
  | .fsub => rounded fp32 0 (addN false (f32 a) (f32 b).negate)
  | .fmul => rounded fp32 0 (mulN (f32 a) (f32 b))
  | .fmin => fltMinMax false a b
  | .fmax => fltMinMax true a b
  | .hadd2 => fltHadd2 0 a b
  | .hmul2 => fltHmul2 0 a b
  | .padd2 => onHalf false (fun x y => w16 (x + y)) a b
  | .psub2 => onHalf false (fun x y => w16 (x - y)) a b
  | .satadd => sat32 (a.toInt + b.toInt)
  | .satsub => sat32 (a.toInt - b.toInt)
  | .pmax2 => onHalf false (fun x y => w16 (if x < y then y else x)) a b
  | .pmin2 => onHalf false (fun x y => w16 (if y < x then y else x)) a b

/-- The v-registers of a pair word, its destination first. -/
def pairRegs (w : PairWord) : List Nat := vregsOf w.vd 1 ++ (vregsOf w.va 1 ++ vregsOf w.vb 1)

/-- The vector operation of a pair word, where it has one, may read and write its registers. -/
def PairReady (s : State) (c : Ctx) (w : PairWord) (vo : VOp) : Prop :=
  vo ≠ .nop → c.g.isSeq = false ∧ Named s c (pairRegs w) ∧ Clean s c (vregsOf w.va 1 ++ vregsOf w.vb 1) ∧ w.vd.isV = true

/-! ## Memory words (18 R292, R303 to R318) -/

/-- A memory instruction: how its word is made, for which hints; its space; the registers of its data, the bytes of an access and their
alignment; whether the sequencer may issue it, whether its data is read, and whether it may be remote. -/
structure MRow where
  make : MWord → Instr
  op : Nat
  sp : Space
  form : MWord → Bool := fun _ => true
  cnt : MWord → Nat
  size : MWord → Nat
  align : MWord → Nat
  seqOk : MWord → Bool := fun _ => false
  reads : Bool
  remote : MWord → Bool := fun _ => false

/-- Registers and bytes of a word's width. -/
def byWidth (make : MWord → Instr) (op : Nat) (sp : Space) (reads : Bool) : MRow :=
  { make := make, op := op, sp := sp, cnt := fun w => widthRegs w.width, size := fun w => widthBytes w.width,
    align := fun w => widthBytes w.width, reads := reads }

/-- Hint bit 3: a `.RMT` word (18 R307). -/
def rmtBit (w : MWord) : Bool := w.hint.toNat.testBit 3

/-- LD but for `.C`. -/
def ldRow : MRow := { byWidth .ld 0x80 .global false with form := fun w => !w.hint.toNat.testBit 1, seqOk := fun w => !lanewiseM w }
/-- LD.C. -/
def ldcRow : MRow := { byWidth .ld 0x80 .const false with form := fun w => w.hint.toNat.testBit 1, seqOk := fun w => !lanewiseM w }
/-- ST. -/
def stRow : MRow := { byWidth .st 0x81 .global true with seqOk := fun w => !lanewiseM w, remote := rmtBit }
/-- MST. -/
def mstRow : MRow := byWidth .mst 0x86 .global true
/-- PREF. -/
def prefRow : MRow := { byWidth .pref 0x87 .global false with cnt := fun _ => 0, size := fun _ => 1, align := fun _ => 1 }
/-- The range operations. -/
def rangeRows : List MRow :=
  [ { byWidth .cleanr 0x89 .global true with cnt := fun _ => 1, size := fun _ => 0, align := fun _ => 1 },
    { byWidth .invalr 0x8A .global true with cnt := fun _ => 1, size := fun _ => 0, align := fun _ => 1 },
    { byWidth .flushr 0x8B .global true with cnt := fun _ => 1, size := fun _ => 0, align := fun _ => 1 } ]
/-- The atomic words on global memory. -/
def atomicRows : List MRow :=
  [ { byWidth .atom 0x8C .global true with remote := rmtBit },
    { byWidth .cas 0x8D .global true with cnt := fun w => 2 * widthRegs w.width, remote := rmtBit },
    { byWidth .red 0x8E .global true with remote := rmtBit } ]
/-- PROBE. -/
def probeRow : MRow := { byWidth .probe 0x91 .global false with cnt := fun _ => 2, size := fun _ => 8, align := fun _ => 8 }
/-- The queue words. -/
def queueRows : List MRow :=
  [ { byWidth .fpush 0x92 .global true with cnt := fun _ => 1, size := fun _ => 256, align := fun _ => 256 },
    { byWidth .fpop 0x93 .global false with cnt := fun _ => 2, size := fun _ => 256, align := fun _ => 256 } ]
/-- The loads of scratchpads. -/
def padLoadRows : List MRow := [ byWidth .lds 0x82 .scratch false, byWidth .ldc 0x84 .cluster false ]
/-- The stores of scratchpads. -/
def padStoreRows : List MRow := [ byWidth .sts 0x83 .scratch true, byWidth .stc 0x85 .cluster true ]
/-- The atomic words on the scratchpad. -/
def padAtomicRows : List MRow :=
  [ byWidth .atoms 0x8F .scratch true, { byWidth .cass 0x90 .scratch true with cnt := fun w => 2 * widthRegs w.width } ]

/-- Every memory word but FENCE. -/
def memRows : List MRow :=
  [ldRow, ldcRow, stRow, mstRow, prefRow, probeRow] ++ rangeRows ++ atomicRows ++ queueRows ++ padLoadRows ++ padStoreRows ++ padAtomicRows

/-- The address of an access (16 R248). -/
def MRow.addr (e : MRow) (w : MWord) (s : State) (c : Ctx) (l : Nat) : Int := formAddress s c w e.sp (e.remote w) l

/-- The registers of a memory word may be read and written. -/
def MRow.Ready (e : MRow) (w : MWord) (s : State) (c : Ctx) : Prop :=
  e.form w = true ∧ (c.g.isSeq = true → e.seqOk w = true) ∧ Named s c (vregsOf w.data (e.cnt w) ++ vregsOf w.base 1) ∧
  Clean s c (vregsOf w.base 1 ++ if e.reads then vregsOf w.data (e.cnt w) else [])

/-- The space ends here for the formation of addresses (16 R248). -/
def spaceTop (sp : Space) : Int := if sp = .global then 2 ^ 57 else 2 ^ 32

/-- The address is formed in its space. -/
def MRow.formed (e : MRow) (w : MWord) (s : State) (c : Ctx) (l : Nat) : Bool :=
  decide (0 ≤ e.addr w s c l) && decide (e.addr w s c l < spaceTop e.sp)
/-- The address is aligned. -/
def MRow.aligned (e : MRow) (w : MWord) (s : State) (c : Ctx) (l : Nat) : Bool := (e.addr w s c l).toNat % e.align w == 0
/-- The access lies within the extent of its space. -/
def MRow.inside (e : MRow) (w : MWord) (s : State) (c : Ctx) (l : Nat) : Bool := inExtent s c e.sp (e.addr w s c l).toNat (e.size w)

/-- Every access of the word is formed, aligned and within its extent. -/
def MRow.Reach (e : MRow) (w : MWord) (s : State) (c : Ctx) : Prop :=
  ∀ l ∈ accessLanes c w, e.formed w s c l = true ∧ e.aligned w s c l = true ∧ e.inside w s c l = true

/-- No two accesses share a byte (18 R313). -/
def MRow.Apart (e : MRow) (w : MWord) (s : State) (c : Ctx) : Prop :=
  ∀ a ∈ accessLanes c w, ∀ b ∈ accessLanes c w, a ≠ b →
    e.addr w s c a + e.size w ≤ e.addr w s c b ∨ e.addr w s c b + e.size w ≤ e.addr w s c a

/-- No request that already waits could be performed when another word issues: none at a scratchpad, and no range operation. -/
def Quiet (s : State) : Prop := ∀ e ∈ s.fly.reqs, e.2.point < 1000 ∧ e.2.op.isRange = false

/-- The word has issued without a trap, and no register, flag or predicate has changed. -/
def Issued (i : Instr) (s t : State) (c : Ctx) (h : Head) : Prop := Answers i s t ∧ Moved s t c h ∧ SameValues s t c

/-- The last result that the group awaits is for this destination and the active lanes. -/
def Awaits (t s : State) (c : Ctx) (d : Dest) (x : Result) : Prop :=
  ∃ g, t.group c.k = some g ∧ g.results.length = c.g.results.length + 1 ∧ g.results.getLast? = some x ∧ x.dest = d ∧ x.lanes = c.act

/-- The word makes its accesses; with a result, that result is awaited. -/
def MRow.Makes (e : MRow) (dcnt : MWord → Option Nat) (more : MWord → State → Ctx → Prop) : Prop :=
  ∀ w s c, Issuing s w.h c → e.Ready w s c → e.Reach w s c → more w s c →
    ∃ t, Issued (e.make w) s t c w.h ∧
      ∀ n, dcnt w = some n → c.act ≠ 0#32 → (e.remote w = true → remoteRefusal s c (linkOf s c w) = none) →
        ∃ x, Awaits t s c (destOf s c w.data n) x

/-- The frame of a memory word that performs nothing at once: a group gains requests, results and causes, nothing else. -/
def SameButRequests (s t : State) (c : Ctx) : Prop :=
  SameAdmin s t ∧ t.work.teams = s.work.teams ∧
  (∀ n, (t.grid n).map (fun g => { g with used := [] }) = (s.grid n).map fun g => { g with used := [] }) ∧
  SameGroups s t c (fun g => { g with parked := [], gts := ⟨0, false⟩ }) ∧
  (∀ g, t.group c.k = some g → g.flags = c.g.flags) ∧
  t.core.rows = s.core.rows ∧ t.core.rowTags = s.core.rowTags ∧ t.core.sregs = s.core.sregs ∧
  t.mem.dram = s.mem.dram ∧ t.mem.host = s.mem.host ∧ t.mem.lines = s.mem.lines ∧ t.mem.sectors = s.mem.sectors ∧
  t.mem.slices = s.mem.slices ∧ t.mem.bridge = s.mem.bridge ∧ { t.sys with tsReport := false } = { s.sys with tsReport := false }

/-- The place of an access of a scratchpad word in SRAM: its team, and the first byte's number. -/
def MRow.place (e : MRow) (w : MWord) (s : State) (c : Ctx) (l : Nat) : Option (Team × Nat) :=
  let a := (e.addr w s c l).toNat
  (padTeam s c e.sp a).bind fun k => (s.team k.1).map fun t => (t, padKey t (if e.sp = .cluster then a % 2 ^ 20 else a))

/-- The access of lane l covers byte x of SRAM. -/
def MRow.covers (e : MRow) (w : MWord) (s : State) (c : Ctx) (l x : Nat) : Bool :=
  match e.place w s c l with
  | some p => decide (p.2 ≤ x) && decide (x < p.2 + e.size w)
  | none => false

/-- The rows of an access are present, own, clean and resident, and nothing is in flight. -/
def MRow.AtHand (e : MRow) (w : MWord) (s : State) (c : Ctx) : Prop :=
  s.fly.reqs = [] ∧ c.act ≠ 0#32 ∧
  ∀ l ∈ accessLanes c w, ∃ k t, padTeam s c e.sp (e.addr w s c l).toNat = some (k, t) ∧ s.team k = some t ∧ t.frozen = false ∧ t.retired = false ∧
    ∀ r ∈ rowsOf (if e.sp = .cluster then (e.addr w s c l).toNat % 2 ^ 20 else (e.addr w s c l).toNat) (e.size w),
      rowPresent s t r = true ∧ (s.srow t r).owner = some (s.didOf c.g) ∧ (s.srow t r).poison = false

/-- The bytes of SRAM that an access finds. -/
def MRow.found (e : MRow) (w : MWord) (s : State) (c : Ctx) (l : Nat) : Bytes :=
  match e.place w s c l with
  | some p => memBytes s.core.sram p.2 (e.size w)
  | none => []

/-- The data of an access: cnt registers of DATA from register j. -/
def dataAt (s : State) (c : Ctx) (w : MWord) (j cnt l : Nat) : Nat := valueAt c (operandNats s c w.data j cnt) l

/-- The value that an atomic operation leaves (18 R311). -/
def atomNew (op size old x : Nat) : Nat :=
  let w := 8 * size
  let neg : Nat → Int := fun v => if v % 2 ^ w < 2 ^ (w - 1) then (v % 2 ^ w : Nat) else ((v % 2 ^ w : Nat) : Int) - 2 ^ w
  match op with
  | 0 => (old + x) % 2 ^ w
  | 1 => old &&& x
  | 2 => old ||| x
  | 3 => old ^^^ x
  | 4 => if neg old < neg x then old else x
  | 5 => if neg old < neg x then x else old
  | 6 => x % 2 ^ w
  | _ =>
    if size = 4 then (round fp32 .rne (addN false (decodeNum fp32 old) (decodeNum fp32 x))).1 % 2 ^ 64
    else (round fp64 .rne (addN false (decodeNum fp64 old) (decodeNum fp64 x))).1 % 2 ^ 64

/-- The memory words that make a request of each access, with the operation of their requests (18 R306 to R308, R311 to R316). -/
def requestRows : List (MRow × (MWord → ReqOp)) :=
  [(stRow, fun _ => .store), (prefRow, fun w => .prefetch (w.hint.toNat.testBit 0)), (probeRow, fun _ => .probe)] ++
  atomicRows.zip [fun w => .atomic (w.hint.toNat % 8), fun _ => .cas, fun w => .red (w.hint.toNat % 8)] ++
  queueRows.zip [fun _ => .push, fun _ => .pop]

/-- No page of an access is one that its instruction refuses, as the TLBs and the tables have it (18 R308, R315). -/
def MRow.PagesServe (e : MRow) (w : MWord) (s : State) (c : Ctx) (o : ReqOp) : Prop :=
  ∀ l ∈ accessLanes c w,
    (∀ x, x ∈ (s.coreAt (s.coreOf c.g)).tlb ∨ x ∈ (s.die (s.coreOf c.g / 48)).tlb →
      x.hits (s.didOf c.g) ((e.addr w s c l).toNat / 2 ^ 14) = true → pageRefuses x o = false) ∧
    ∀ x pa u, translateNow s (s.coreOf c.g) (s.didOf c.g) (e.addr w s c l).toNat 3 = .ok x pa u → pageRefuses x o = false

/-- A request of the word stands that carries the access of lane l: its address and bytes, its data, and behind a release the accesses of
its path that are out (08 R129). -/
def MRow.Asks (e : MRow) (w : MWord) (s t : State) (c : Ctx) (l : Nat) (p : ReqOp → Prop) : Prop :=
  let half := if e.op = 0x8D then e.cnt w / 2 else e.cnt w
  ∃ i q a, s.ctl.nextId ≤ i ∧ t.req i = some q ∧ q.grp = c.k ∧ q.pc = c.pc ∧ q.did = s.didOf c.g ∧ p q.op ∧
    (w.order = .rel ∨ w.order = .ar → ∀ j ∈ lanesAccesses s c.k c.r.gang, j ∈ q.waits) ∧
    a ∈ q.lanes ∧ a.lane = l ∧ a.va = (e.addr w s c l).toNat ∧ a.size = e.size w ∧
    (e.reads = true → a.data = dataAt s c w 0 half l) ∧ (e.op = 0x8D → a.data2 = dataAt s c w half half l)

/-! ## Synchronisation words (19 R320 to R335, R344, R350) -/

/-- Nothing is in flight that an operation would have to wait for, and the unit's team is in place. -/
def Idle (s : State) (c : Ctx) (t : Team) : Prop :=
  s.fly.reqs = [] ∧ s.fly.posts = [] ∧ s.fly.upds = [] ∧ s.teamOf c.g = some t ∧
  ∀ u, s.team (c.k / 64) = some u → u.rowsHere = true

/-- The last result that the group awaits is for a destination and the active lanes, and is complete with these values. -/
def Gives (t s : State) (c : Ctx) (d : Dest) (v : Nat → Nat) : Prop :=
  ∃ x, Awaits t s c d x ∧ x.done = true ∧ ∀ l, ActiveIn c l → resultValue x.vals l = v l

/-- The result that a word awaits is not there yet. -/
def Owes (t s : State) (c : Ctx) (d : Dest) : Prop := ∃ x, Awaits t s c d x ∧ x.done = false

/-- The waits that the words of the run began, after it. -/
def WaitsAre (t : State) (c : Ctx) (p : List (Mask × Nat × Wait) → Prop) : Prop :=
  ∃ g r, t.group c.k = some g ∧ g.run = some r ∧ p r.waits

/-- No wait has been added. -/
def NoNewWait (t : State) (c : Ctx) : Prop := WaitsAre t c fun ws => ∀ x ∈ ws, x ∈ c.r.waits

/-- This wait stands for the active lanes, begun by the word. -/
def NewWait (t : State) (c : Ctx) (w : Wait) : Prop := WaitsAre t c fun ws => (c.act, c.pc, w) ∈ ws

/-- The word issued and moved on. -/
def Goes (i : Instr) (s t : State) (c : Ctx) (h : Head) : Prop := Answers i s t ∧ Moved s t c h

/-- A phaser instruction that changes counts: how its word is made, the change, the kinds of registration that it needs held or not held
and the kinds held after it, and the numbers it refuses with a subcode. -/
structure PhRow where
  make : MWord → Instr
  change : Nat → Nat → Ts → PhOp
  after : Nat → Nat → Option Nat
  refuses : Nat → Nat → Option Nat

/-- The kinds of a registration mode: bit 0 signaller, bit 1 waiter. -/
def kindsOf (m : Nat) : Nat := match m with | 0 => 1 | 1 => 2 | 2 => 3 | _ => 0

/-- P n with n outside 1 to 1023 is COUNT. -/
def badCount (m n : Nat) : Option Nat := if m = 3 ∧ (n = 0 ∨ 1023 < n) then some 5 else none

/-- The phaser instructions that change counts (11 R174 to R176). -/
def phaserRows : List PhRow :=
  [ { make := .phreg,
      change := fun m n _ => match m with
        | 0 => { sreg := 1, pend := 1 }
        | 1 => { wreg := 1 }
        | 2 => { sreg := 1, wreg := 1, pend := 1 }
        | _ => { sreg := n, pend := n },
      after := fun m held => if held &&& kindsOf m = 0 then some (held ||| kindsOf m) else none, refuses := badCount },
    { make := .phdrop,
      change := fun m n f => match m with
        | 0 => { sreg := -1, pend := -1, ts := some f }
        | 1 => { wreg := -1 }
        | 2 => { sreg := -1, wreg := -1, pend := -1, ts := some f }
        | _ => { sreg := -n, pend := -n, ts := some f },
      after := fun m held => if held &&& kindsOf m = kindsOf m then some (held &&& (3 ^^^ kindsOf m)) else none, refuses := badCount },
    { make := .pharr, change := fun _ _ f => { pend := -1, ts := some f },
      after := fun _ held => if held % 2 = 1 then some held else none, refuses := fun _ _ => none },
    { make := .phexp, change := fun m n _ => if m % 2 = 0 then { inb := n } else { outb := n },
      after := fun _ held => some held, refuses := fun _ n => if n = 0 ∨ 2 ^ 23 ≤ n then some 6 else none } ]

/-- The number of the team phaser that a word names (19 R323). -/
def phaserNumber (s : State) (c : Ctx) (w : MWord) : Nat := addressInfo (formAddress s c w .scratch false 32)

/-- The word names team phaser n of its team, which is well formed. -/
def TeamPhaser (s : State) (c : Ctx) (w : MWord) (t : Team) : Prop :=
  w.hint.toNat.testBit 3 = false ∧ c.act ≠ 0#32 ∧ Named s c (vregsOf w.data 1) ∧ Idle s c t ∧
  phaserNumber s c w < teamPhasers s t ∧ bits (sramPhaser s (phaserKey s t (phaserNumber s c w))) 127 125 = 0

/-- The phaser as an operation leaves it: it turns where the operation made its phase complete. -/
def afterPhase (o : PhOp) (q : Nat) : Nat := if o.tests && phComplete q then phTurn q else q

/-- The registrations of a group on a team phaser. -/
def heldOf (g : Group) (n : Nat) : Nat := bits g.phreg (2 * n + 1) (2 * n)

/-- The operands of a synchronisation word may be read and written, and it acts. -/
def SyncReady (s : State) (c : Ctx) (w : RWord) (n : Widths) (seqOk coll : Bool) : Prop :=
  (c.g.isSeq = true → seqOk = true) ∧ Named s c (vregsOf w.d n.d ++ readsR w n) ∧ Clean s c (readsR w n) ∧ Acts c coll

/-- The state in which the operation of a word with a result is performed. -/
def sending (s : State) (c : Ctx) (d : Opd) (cnt : Nat) (held : Bool) : State :=
  (addResult s.fresh.2 c.k (waitingResult (destOf s c d cnt) c.act s.ctl.nextId held)).fresh.2

/-- The tickets of the active lanes of a word. -/
def ticketAt (s : State) (c : Ctx) (w : RWord) (l : Nat) : Nat :=
  if w.a.isS then sopd s c w.a 1 else (lo32 (srcAt s c w w.a w.pa 1 l)).toNat

/-- An extent of scratchpad lies within the team's. -/
def Fits (s : State) (c : Ctx) (off n : Nat) : Prop := off + n ≤ padExtent s c.g

/-- A synchronisation word with its opcode, widths, whether the sequencer may issue it and whether it is a collective. -/
def syncShapes : List ((RWord → Instr) × Nat × Widths × Bool × Bool) :=
  [ (.ringacqNew, 0xA6, {}, true, false), (.ringacqP, 0xA6, {}, true, false), (.ringacqC, 0xA6, {}, true, false),
    (.ringrelP, 0xA7, {}, true, false), (.ringrelC, 0xA7, {}, true, false), (.ringrelEnd, 0xA7, {}, true, false),
    (.rsbeg, 0xA8, {}, false, false), (.rsend, 0xA9, {}, false, false), (.gpstart, 0xAA, {}, false, false),
    (.gpwait, 0xAB, {}, false, false), (.gppoll, 0xAC, {}, false, false), (.dacc, 0xAD, ⟨1, 2, 1, 1⟩, false, false),
    (.dfpop, 0xAE, ⟨4, 1, 1, 1⟩, false, false), (.msend, 0xB0, ⟨1, 2, 1, 1⟩, false, true), (.mrecv, 0xB1, ⟨1, 4, 1, 1⟩, false, false),
    (.mprobe, 0xB2, ⟨4, 4, 1, 1⟩, false, false), (.mcancel, 0xB3, {}, false, false), (.gcall, 0xB4, ⟨1, 1, 1, 2⟩, false, true),
    (.gwait, 0xB5, {}, false, false), (.gret, 0xB6, {}, false, false), (.mwait, 0xBE, {}, true, false),
    (.launch, 0xC0, {}, false, false), (.lquery, 0xC1, ⟨2, 1, 1, 1⟩, false, false), (.view, 0xD2, {}, false, false),
    (.clkrd, 0xD3, ⟨2, 1, 1, 1⟩, false, false), (.scrub, 0xD8, {}, false, false) ]

/-- No group has results that another party still owes it, so that no operation writes registers. -/
def NoneOwed (s : State) : Prop := ∀ e ∈ s.work.groups, e.2.owed = []

/-! ## System and engine words (19 R336 to R358) -/

/-- The special registers of 19 R352. -/
def srValue (s : State) (g : Group) (t : Team) (r : Launch) (i l : Nat) : Nat :=
  match i with
  | 0x000 => g.tids.getD l 0
  | 0x001 => l
  | 0x002 => g.gid
  | 0x003 => t.id
  | 0x004 => t.rank
  | 0x005 => t.core
  | 0x006 => t.core / 48
  | 0x007 => t.did
  | 0x008 => g.gts.v % 2 ^ 40 + 2 ^ 40 * (if g.gts.ep then 1 else 0)
  | 0x009 => t.resumed
  | 0x00A => (g.flags.getD l 0#8).toNat % 128
  | 0x00B => s.sys.clk % 2 ^ 32
  | 0x00C => (s.dom t.did).vclk % 2 ^ 32
  | 0x00D => g.depth.getD l 0
  | 0x00E => g.trapcause
  | 0x00F => g.trapinfo
  | 0x010 => r.nteams
  | 0x011 => r.threads
  | 0x012 => r.clus
  | 0x020 => if g.gid = 32 then 0 else ((g.gid * sliceRows r.vregs * 2 ^ 13 + g.wrow) * 2 ^ 8 + g.wbase) * 2 ^ 30 + g.wcount * 2 ^ 22 +
      sliceRows r.vregs * 2 ^ 14
  | 0x021 => (groupCount r * sliceRows r.vregs * 2 ^ 13 + viewRows r.trows) * 2 ^ 38
  | 0x022 => ((groupCount r * sliceRows r.vregs + viewRows r.trows) * 2 ^ 13 + viewRows r.arows) * 2 ^ 38
  | _ => if 0x030 ≤ i ∧ i ≤ 0x037 then (r.fmts.getD (i - 0x030) 0#64).toNat else 0

/-- The registers of a special register: two for one of 64 bits. -/
def srRegs (i : Nat) : Nat := if i = 0x008 ∨ i = 0x00F ∨ (0x020 ≤ i ∧ i ≤ 0x022) ∨ (0x030 ≤ i ∧ i ≤ 0x037) then 2 else 1

/-- The destination holds values in the active lanes, or once in an s-register, and what it held elsewhere. -/
def Written (s t : State) (c : Ctx) (d : Opd) (cnt : Nat) (v : Nat → Nat) : Prop :=
  ∀ l, l < 32 → regAt t c d cnt l =
    if (if d.isS then c.act ≠ 0#32 else d.isV = true ∧ inMask c.act l = true) then
      narrow cnt (BitVec.ofNat 64 (v (if d.isS then lowLane c.act else l)))
    else regAt s c d cnt l

/-- Flags and predicates of the unit and every register are as they were, but for a destination. -/
def OnlyDest (s t : State) (c : Ctx) (d : Opd) (cnt : Nat) : Prop := RegFrame s t c d cnt id

/-- The state in which a command enters, and the command with its block read. -/
def entering (s : State) (c : Ctx) (d : Opd) (kind blkAt : Nat) (glob : Bool) (tag : Nat) (held : Bool) : State :=
  (sending s c d 1 held).setCmd (s.ctl.nextId + 1) (newCmd s c kind blkAt glob tag (some s.ctl.nextId))

/-- The command as it is checked: its block is what stands at its place. -/
def withBlock (s : State) (c : Ctx) (kind blkAt tag : Nat) (t : Team) (n : Nat) : Cmd :=
  { newCmd s c kind blkAt false tag (some s.ctl.nextId) with blk := padBytes s t blkAt n }

/-- The four copy and bank commands, with opcode and whether they are collectives. -/
def commandRows : List ((RWord → Instr) × Nat × Bool) :=
  [(.copy, 0xB8, true), (.copyt, 0xB9, true), (.copym, 0xBA, true), (.bankop, 0xBB, false)]

/-! ## Events: commands of the host (01 R13 to R25, R383, 02 R27 to R33) -/

/-- Where this happening is offered to a device that is up, the step answers such a state. -/
def Leads (i : Instr) (h : Happening) (s : State) (p : State → Prop) : Prop :=
  s.ctl.ev = some h → s.sys.up = true → ∃ t, Answers i s t ∧ p t

/-- No request, operation of a word or engine command is in flight. -/
def Still (s : State) : Prop := s.fly.reqs = [] ∧ s.fly.posts = [] ∧ s.fly.cmds = []

/-- Nothing besides them waits for something to happen: no access of a peer device, no write of a team image, no group that a curator has
marked, no wait for an operation of a word. -/
def Calm (s : State) : Prop :=
  s.fly.remotes = [] ∧ (∀ e ∈ s.work.teams, ∀ im, e.2.image = some im → im.pending = []) ∧ (∀ d, (s.dom d).cur.marked = []) ∧
  ∀ e ∈ s.work.groups, e.2.waitsOn (fun w => match w with | .post _ => true | _ => false) = false

/-- A function may name a partition: the PF any, a VF its own (01 R13). -/
def MayShape (fn part : Nat) : Prop := fn = 0 ∨ fn = part + 1

/-- A function may name a domain: the PF any, a VF those of its partition that are not FREE (01 R13). -/
def MayName (s : State) (fn did : Nat) : Prop := fn = 0 ∨ (did < 256 ∧ (s.dom did).st ≠ .free ∧ fn = (s.dom did).part + 1)

/-- The function that gives a command. -/
def giver : Happening → Option Nat
  | .partitionCommit fn _ | .weightOnlyCommit fn _ _ | .fkey fn _ _ _ _ _ | .linkEnable fn _ | .linkDisable fn _ | .create fn _ _ _
  | .faultLogClear fn _ _ | .barstatClear fn _ _ | .openDomain fn _ | .closeDomain fn _ | .kill fn _ | .retire fn _ _ _
  | .frost fn _ _ | .thaw fn _ _ | .kick fn _ | .snap fn _ _ _ | .tlbinv fn _ _ | .skip fn _ _ | .queueDescriptorWrite fn _ _ _ _
  | .queueEnable fn _ _ | .queueDisable fn _ _ | .errcClear fn _ _ _ | .queueTailWrite fn _ _ _ | .curatorRingWrite fn _ _
  | .dprovRingWrite fn _ _ | .registerWrite fn _ => some fn
  | _ => none

/-- A command is one that its function may give (01 R13, R383). -/
def mayGive (s : State) : Happening → Prop
  | .partitionCommit fn _ | .weightOnlyCommit fn _ _ | .fkey fn _ _ _ _ _ | .linkEnable fn _ | .linkDisable fn _ => fn = 0
  | .create fn part _ _ | .faultLogClear fn part _ | .barstatClear fn part _ => MayShape fn part
  | .openDomain fn did | .closeDomain fn did | .kill fn did | .retire fn did _ _ | .frost fn did _ | .thaw fn did _ | .kick fn did
  | .snap fn did _ _ | .tlbinv fn did _ | .skip fn did _ | .queueDescriptorWrite fn did _ _ _ | .queueEnable fn did _
  | .queueDisable fn did _ | .errcClear fn did _ _ | .queueTailWrite fn did _ _ | .curatorRingWrite fn did _
  | .dprovRingWrite fn did _ | .registerWrite fn (.dsave did _ _) | .registerWrite fn (.dwdogLimit did _)
  | .registerWrite fn (.dprovHead did _) | .registerWrite fn (.gateTable did _ _) => MayName s fn did
  | .registerWrite _ (.prqBase _) | .registerWrite _ (.prqOrder _) | .registerWrite _ (.prqHead _) => True
  | .registerWrite fn _ => fn = 0
  | _ => False

/-- The domain of a command, and the states of it in which the command is taken (01 R22, R383). -/
def statesFor : Happening → Option (Nat × List DState)
  | .openDomain _ d | .retire _ d _ _ | .curatorRingWrite _ d _ | .dprovRingWrite _ d _ | .registerWrite _ (.dsave d _ _) =>
    some (d, [.closed])
  | .closeDomain _ d => some (d, [.live])
  | .kill _ d => some (d, [.live, .draining, .stopped])
  | .frost _ d _ | .thaw _ d _ | .kick _ d => some (d, [.live, .draining])
  | .snap _ d _ _ => some (d, [.closed, .live, .draining, .killing, .stopped])
  | .skip _ d _ | .queueDescriptorWrite _ d _ _ _ | .queueEnable _ d _ | .queueDisable _ d _ | .errcClear _ d _ _
  | .queueTailWrite _ d _ _ => some (d, [.closed, .live, .draining, .killing, .stopped])
  | _ => none

/-- Of a domain, the queue that an ended wait for LIVE leaves: HELD where it was WAITING. -/
def heldUp (x : Queue) : Queue := if x.st = .waiting then { x with st := .held } else x

/-- What a register holds after it has been written (01 R383). -/
def registerHolds (s t : State) (fn : Nat) : RegWrite → Prop
  | .dsave did w0 w1 => t.dom did = { s.dom did with save0 := w0, save1 := w1 }
  | .dwdogLimit did n => t.dom did = { s.dom did with wlimit := n }
  | .prqBase va => t.prq fn = { s.prq fn with base := va }
  | .prqOrder o => t.prq fn = { s.prq fn with order := o }
  | .prqHead h => t.prq fn = { s.prq fn with head := h }
  | .tbase pa => t.sys.tbase = pa
  | .tsize n => t.sys.tsize = n
  | .peerBind i v link ldid rdid =>
    (v = true → tget t.sys.peers i = some (link, ldid, rdid)) ∧ (v = false → t.sys.peers = tdel s.sys.peers i)
  | .powerLimit w => t.sys.watts = w
  | .dprovHead did h => t.dom did = { s.dom did with provHead := h }
  | .tablePages first n did => ∀ p, first ≤ p → p < first + n → tget t.sys.tablePages p = some did
  | .gateTable did base n => t.dom did = { s.dom did with gates := base, gateCnt := n }

/-- The device takes a queue command of a function. -/
def QueueTaken (s : State) (fn did q : Nat) : Prop :=
  fn ≤ 64 ∧ s.sys.fatal = none ∧ MayName s fn did ∧ did < 256 ∧ (s.dom did).st ≠ .free ∧ (s.dom did).st ≠ .retiring ∧ q < 16

/-- The state of a queue that is enabled and has nothing more to wait for than its ring: IDLE where that is empty (02 R29). -/
def stirred (s : State) (did head tail : Nat) : QState :=
  if head = tail then .idle else if (s.dom did).st = .live then .waiting else .held

/-- The records of a device queue that count as outstanding when it is enabled: those in its ring, and the grids dispatched from it that are
not complete (02 R35); a host queue counts none. -/
def counted (s : State) (did q head tail : Nat) (dev : Bool) : Nat :=
  if dev then (tail + 2 ^ 16 - head) % 2 ^ 16 + (s.work.grids.filter fun e => e.2.did == did && e.2.queue == q && !e.2.done).length else 0

/-- A queue is this, its command is DONE, and every other queue and all else is as it was. -/
def QueueBecomes (s t : State) (fn did q : Nat) (x : Queue) : Prop :=
  t.queue did q = x ∧ (∀ k, k ≠ did * 16 + q → tget t.adm.queues k = tget s.adm.queues k) ∧ t.adm.doms = s.adm.doms ∧
  t.adm.parts = s.adm.parts ∧ t.sys = (setStatus s fn 0).sys ∧ t.work = s.work ∧ t.core = s.core ∧ t.mem = s.mem ∧ t.fly = s.fly ∧
  t.ctl = s.ctl

/-- A descriptor written outside OFF (02 R27): a change of another field than TAIL, ERRC and EN is refused, and of a device queue's TAIL; a
write that changes neither clears ERRC where it says so, and with EN = 0 disables the queue. -/
def QueueRewrites (s : State) (fn did q : Nat) (x : Queue) : Prop :=
  ∀ w0 w1 : Bits64, QueueTaken s fn did q → x.st ≠ .off →
    let a := w0.toNat
    let b := w1.toNat
    let same := a.testBit 62 = x.kind ∧ bits a 61 58 = x.qpri ∧ bits a 56 0 = x.base ∧ bits b 63 60 = x.order ∧ bits b 55 40 = x.quota
    let good := a.testBit 57 = false ∧ bits a 7 0 = 0 ∧ bits b 59 56 = 0 ∧ bits b 63 60 ≤ 11 ∧ (a.testBit 62 = true ↔ bits b 55 40 ≠ 0)
    let y := { x with errc := if bits b 39 32 = 0 then x.errc else 0 }
    ((¬ same ∨ (x.kind = true ∧ bits b 15 0 ≠ x.tail)) →
      Leads .queueDescriptorWrite (.queueDescriptorWrite fn did q w0 w1) s fun t => t = setStatus s fn 1) ∧
    (same → good → bits b 15 0 = x.tail → Leads .queueDescriptorWrite (.queueDescriptorWrite fn did q w0 w1) s fun t =>
      QueueBecomes s t fn did q (if a.testBit 63 then y else { y with st := .off, record := none, waitGen := none }))

/-! ## Events: work on the cores (03 R48 to R51, 04 R52 to R67, 05 R69 to R82, 13 R201 to R203) -/

/-- Nothing of a group is still owed to it, no cause is pending for it, and its team owes no overflow trap. -/
def AtPeace (s : State) (g : Group) : Prop := g.btraps = [] ∧ g.owed = [] ∧ (s.teamOf g).bind (·.drops) = none

/-- Each number stands in a table once. -/
def Once {β : Type} (t : Tab β) : Prop := (t.map Prod.fst).Nodup

/-- A group stands in its handler for a trap (13 R201): one path at the trap vector for the recorded lanes, the trap's cause and information
in its special registers, and the trap record in k3. -/
def InHandler (s t : State) (k : Nat) (g : Group) (x : Trap) (held : List Path) : Prop :=
  ∃ y h, t.group k = some y ∧ y.st = .trap ∧ y.handler = some h ∧ h.trap = x ∧ h.held = held ∧
    y.paths = [Path.new (s.dom (s.didOf g)).vector x.depth x.mask] ∧ y.trapcause = x.sub * 256 + x.cause ∧ y.trapinfo = x.info % 2 ^ 64 ∧
    y.live = g.live ∧
    ∀ r, teamRow s g 191 = some r → ∀ i, i < 6 → (t.teamRowVals g r).getD i 0#32 =
      BitVec.ofNat 32 ((x.pc % 2 ^ 57 + x.depth % 64 * 2 ^ 57 + x.mask.toNat * 2 ^ 64 + x.cause * 2 ^ 96 + x.sub * 2 ^ 104 +
        x.info % 2 ^ 64 * 2 ^ 128) / 2 ^ (32 * i))

/-- A group's run has issued all its words, every result has been delivered, and nothing of it is in flight. -/
def RunOver (s : State) (k : Nat) (g : Group) (r : Run) : Prop :=
  s.group k = some g ∧ g.run = some r ∧ r.closed = true ∧ (g.st = .results ∨ g.st = .trap) ∧ Still s ∧
  (∀ x ∈ g.results, x.done = true) ∧ g.isSeq = false ∧ (s.dom (s.didOf g)).st ≠ .killing ∧ AtPeace s g ∧ driftHolds s g = false

/-- The lanes of a group stand where a frame says: each at its path's PC, with its predicates, flags and depth. -/
def Framed (x : Group) (live : Mask) (f : Nat) : Prop :=
  x.phreg = bits f 3015 2984 ∧
  ∀ l, l < 32 → inMask live l = true →
    let j := bits f (2052 + 8 * l) (2048 + 8 * l)
    (∃ p ∈ x.paths, inMask p.mask l = true ∧ p.pc = bits f (64 * j + 56) (64 * j + 3) * 8 ∧ p.waits = []) ∧
    x.flags.getD l 0#8 = BitVec.ofNat 8 (bits f (2694 + 8 * l) (2688 + 8 * l)) ∧
    x.depth.getD l 0 = bits f (2307 + 4 * l) (2304 + 4 * l) ∧ ∀ i, 1 ≤ i → i ≤ 7 → x.pred i l = f.testBit (2432 + 8 * l + i)

/-- Domains, queues and what partitions have been given stand as they did; the partitions' barometers may have taken samples, and
their logs faults. -/
def AdminKept (s t : State) : Prop :=
  t.adm.doms = s.adm.doms ∧ t.adm.queues = s.adm.queues ∧
  ∀ p, { t.part p with hist := [], log := 0#64 } = { s.part p with hist := [], log := 0#64 }

/-- Nothing but memory's caches, translations and samples has changed. -/
def SameButReads (s t : State) : Prop :=
  t.work = s.work ∧ t.fly = s.fly ∧ t.sys = s.sys ∧ AdminKept s t ∧ t.core = { s.core with cores := t.core.cores } ∧
  ∀ c, t.coreAt c = { s.coreAt c with tlb := (t.coreAt c).tlb }

/-- A frozen team may thaw where it stands: nothing of it is owed, no cause is pending, none of its groups is still in a PREEMPT handler, and its overflow
queue is empty. -/
def Thawable (s : State) (k core : Nat) (m : Team) : Prop :=
  s.team k = some m ∧ m.frozen = true ∧ m.held = false ∧ m.retired = false ∧ m.drops = none ∧ Still s ∧ Calm s ∧
  (∃ e ∈ s.work.groups, e.2.team = k ∧ (e.2.st = .frozen ∨ e.2.st = .evicted)) ∧
  (∀ e ∈ s.work.groups, e.2.team = k → e.2.owed = [] ∧ e.2.btraps = [] ∧ inPreempt e.2 = false) ∧ (tget (s.coreAt core).ovf m.part).getD [] = []

/-- Every part of the team's image stands in its place on its core. -/
def InPlace (m : Team) : Prop := ∀ im, m.image = some im → im.evRows = [] ∧ im.evSram = [] ∧ im.evSregs = []

/-- The team is thawed: %resumed has risen by one, and its image is gone. -/
def ThawedTeam (t : State) (k : Nat) (m : Team) : Prop :=
  ∃ x, t.team k = some x ∧ x.frozen = false ∧ x.freezing = false ∧ x.thawing = false ∧ x.image = none ∧ x.resumed = (m.resumed + 1) % 2 ^ 32

/-- Each frozen group of the team stands where its frame in k0 to k3 said. -/
def ThawedGroups (s t : State) (k : Nat) : Prop :=
  ∀ i g, s.group i = some g → g.team = k → g.st = .frozen → g.isSeq = false →
    ∃ x, t.group i = some x ∧ Framed x g.live (readFrame s g) ∧ x.st = restState x.paths ∧ x.level = g.base ∧ x.wait = 0
/-! ## Events: crossbars, ordering points and replies (05 R73, 07 R106 to R113, 10 R156, R157, 18 R307, R311 to R316) -/

/-- The buckets of a partition on a core hold the tokens of a packet: memory, peer, host, in 1024ths; a rate of 0 limits nothing (05 R73). -/
def Affords (s : State) (core part : Nat) (cost : Nat × Nat × Nat) : Prop :=
  let p := s.part part
  let b := (tget (s.coreAt core).buckets part).getD ⟨0, 0, 0⟩
  (bits p.lim0.toNat 47 32 = 0 ∨ cost.1 ≤ b.mem) ∧ (bits p.lim0.toNat 15 0 = 0 ∨ cost.2.1 ≤ b.peer) ∧
  (bits p.lim1.toNat 47 32 = 0 ∨ cost.2.2 ≤ b.host)

/-- The tokens of a packet have left the buckets, and it the injection queue. -/
def Spent (s t : State) (core part : Nat) (cost : Nat × Nat × Nat) (rest : List Nat) : Prop :=
  let b := (tget (s.coreAt core).buckets part).getD ⟨0, 0, 0⟩
  tget (t.coreAt core).buckets part = some ⟨b.mem - cost.1, b.peer - cost.2.1, b.host - cost.2.2⟩ ∧
  tget (t.coreAt core).inj part = some rest

/-- No request of a list renews a lease. -/
def NoRenewal (s : State) (l : List Nat) : Prop := ∀ j ∈ l, ∀ p, s.req j = some p → p.renew = none

/-- The request stands at an ordering point, the first of its group there (08 R123). -/
def Stands (s : State) (i : Nat) (q : Req) : Prop :=
  s.req i = some q ∧ (q.stage = .point ∨ q.stage = .bisnp) ∧
  ∀ e ∈ s.fly.reqs, e.1 < i → e.2.grp = q.grp → e.2.point = q.point → e.2.stage ≠ .point ∧ e.2.stage ≠ .bisnp

/-- The line of an address stands at its home slice or at the bridge. -/
def LineAt (s : State) (p pa lk : Nat) (l : Line) : Prop := (p < 128 ∨ p = 136) ∧ findLine s p pa = some lk ∧ s.line lk = some l

/-- The sectors of a line of device memory are held under a key index (01 R18 code 4). -/
def Keyed (s : State) (lk : Nat) (l : Line) (secs : List Nat) (key : Nat) : Prop :=
  lk < bridgeBase → ∀ j ∈ secs, sectorKey s l j = key

/-- None of the sectors of a line is poisoned. -/
def Unpoisoned (l : Line) (secs : List Nat) : Prop := ∀ j ∈ secs, l.poison.testBit j = false

/-- A write needs no answer of the host: the host does not hold the line, or of host memory the bridge owns what is written. -/
def Owned (lk : Nat) (l : Line) (q : Req) : Prop :=
  if lk < bridgeBase then l.h = false else ∀ a ∈ q.lanes, 2 ≤ l.mesi.getD (a.pa % 256 / 64) 0

/-- A timestamp as a unit of an epoch takes it: one of the old epoch loses 2^38 (07 R116), and a unit that has not been rebased yet gives
2^38 back to one of the new (log 62). -/
def tsIn (s : State) (t : Ts) (ep : Bool) : Nat :=
  if t.ep = ep then t.v else if ep = newEpoch s then t.v - 2 ^ 38 else t.v + 2 ^ 38

/-- The timestamp of a write: beyond every lease, and beyond the host's clock where the host had the line (07 R109, R118). -/
def writeStamp (s : State) (l : Line) (gts : Nat) : Nat :=
  let u := max gts (l.rts + 1)
  if l.snooped then max u (tsIn s ⟨s.mem.bridge.hts, s.mem.bridge.ep⟩ l.ep + 1) else u

/-- A reply sets out with a timestamp and values. -/
def Replies (s t : State) (i : Nat) (q : Req) (ts : Nat × Nat × Bool) (back : List (Nat × Nat)) : Prop :=
  ∃ x, t.req i = some x ∧ x.stage = .back ∧ x.hops = replyRoute s q.point q.core ∧ x.ts = some ts ∧ x.back = back ∧ x.fail = q.fail

/-- A write of the line has been performed and replies: its bytes, its timestamps, its key index and the slice's sequence number. -/
def LineWritten (s t : State) (i lk : Nat) (q : Req) (l : Line) (data : Bytes) (back : List (Nat × Nat)) : Prop :=
  let w := writeStamp s l (tsIn s q.gts l.ep)
  Replies s t i q (w, w, l.ep) back ∧
  (∃ x, t.line lk = some x ∧ x.data = data ∧ x.wts = w ∧ x.rts = w ∧ x.snooped = false ∧ (lk < bridgeBase → x.key = q.key) ∧
    x.cls = if tsIn s q.gts l.ep ≤ l.rts then l.cls - 1 else l.cls) ∧
  (q.point < 128 → (t.slice q.point).seq = ((s.slice q.point).seq + 1) % 2 ^ 32)

/-- A write may be performed at its line. -/
def Writable (s : State) (i lk : Nat) (q : Req) (l : Line) : Prop :=
  Stands s i q ∧ LineAt s q.point q.pa lk l ∧ Keyed s lk l q.sectors q.key ∧ Owned lk l q ∧ writeStamp s l (tsIn s q.gts l.ep) < 2 ^ 40

/-- One lane of an atomic access on a line's bytes, with the old values so far. -/
def atomStep (o : ReqOp) (base : Nat) (r : Bytes × List (Nat × Nat)) (a : LaneAcc) : Bytes × List (Nat × Nat) :=
  let old := leVal ((r.1.drop (a.pa - base)).take a.size)
  let new := match o with
    | .atomic n | .red n => atomNew n a.size old a.data
    | .cas => if old = a.data then a.data2 else old
    | _ => old
  (overlay r.1 (a.pa - base) (leOf a.size new), r.2 ++ [(a.lane, old)])

/-- One request is in flight, and no operation of a word or engine command. -/
def Alone (s : State) (i : Nat) (q : Req) : Prop := s.fly.reqs = [(i, q)] ∧ s.fly.posts = [] ∧ s.fly.cmds = [] ∧ Calm s

/-- A group in place that no curator has marked. -/
def Unmarked (s : State) (k : Nat) (g : Group) : Prop :=
  s.group k = some g ∧ g.st ≠ .frozen ∧ g.st ≠ .evicted ∧ (s.dom (s.didOf g)).cur.marked = []

/-- Results of a group with values delivered to the one of a number, which is complete. -/
def gains (l : List Result) (rid : Nat) (vals : List (Nat × Nat)) : List Result :=
  l.map fun r => if r.src = some rid then { r with vals := r.vals ++ vals, done := true } else r

/-! ## Events: the host at memory, keys, errors (01 R382, 07 R117 to R120, 09 R143, 13 R207, 18 R307) -/

/-- A run of device memory within one line that the home slice orders. -/
def HostLine (s : State) (pa n lk : Nat) (l : Line) : Prop :=
  0 < n ∧ pa % 256 + n ≤ 256 ∧ pa + n ≤ 2 ^ 39 ∧ hostMs s pa = false ∧ LineAt s (homeSlice s pa) pa lk l

/-- A write of the host has room for its timestamp, in the line's epoch and in the bridge's (07 R106). -/
def HostStamps (s : State) (l : Line) : Prop :=
  let w := writeStamp s l (tsIn s ⟨s.mem.bridge.hts, s.mem.bridge.ep⟩ l.ep)
  w < 2 ^ 40 ∧ tsIn s ⟨w, l.ep⟩ s.mem.bridge.ep < 2 ^ 40

/-- The run touches the table region. -/
def MeetsTables (s : State) (pa n : Nat) : Prop := pa < s.sys.tbase + s.sys.tsize ∧ s.sys.tbase < pa + n

/-- A host write has been performed at its line: bytes, key index, and a timestamp beyond every lease. -/
def HostWrote (t : State) (lk key pa : Nat) (l : Line) (bs : Bytes) : Prop :=
  ∃ x, t.line lk = some x ∧ x.data = overlay l.data (pa % 256) bs ∧ x.key = key ∧ x.h = false ∧ l.rts < x.wts ∧ x.rts = x.wts

/-! ## Events: translation and its failures (09 R147 to R154, 13 R204 to R206) -/

/-- The state without a pending entry. -/
def withoutEntry (s : State) (die reqid : Nat) : State := s.modDie die fun x => { x with pend := x.pend.filter (·.id != reqid) }

/-- A request that waits in the replay catalogue of a group in FAULT, alone in flight. -/
def Parked (s : State) (i : Nat) (q : Req) (g : Group) : Prop :=
  Alone s i q ∧ q.stage = .catalogued ∧ s.group q.grp = some g ∧ g.st = .fault ∧ g.parked = [i]

/-- A translated request waits for its injection with its physical addresses. -/
def Queued (t : State) (i : Nat) (q : Req) (e : TlbEntry) : Prop :=
  ∃ x, t.req i = some x ∧ x.stage = .queued ∧ x.pte = some e.pte ∧
    x.lanes = q.lanes.map (fun a => { a with pa := physOf e (q.core / 48) a.va }) ∧ i ∈ (tget (t.coreAt q.core).inj q.part).getD []

/-! ## Events: messages, phaser updates, curators, engines (10 R162 to R166, 11 R177 to R179, 12 R190 to R194, 19 R336 to R349, R358) -/

/-- A resident team has posted one receive on its core, and keeps no message: the receive takes a message from this source with this tag
and length, into its program rows, and names a team phaser whose byte count can fall by the length. -/
def Receives (s : State) (tk : Nat) (t : Team) (r : Recv) (steam slink tag len : Nat) : Prop :=
  s.team tk = some t ∧ t.retired = false ∧ t.rowsHere = true ∧ (s.coreAt t.core).recvs = [r] ∧ r.team = tk ∧
  (tget (s.coreAt t.core).ovf t.part).getD [] = [] ∧ (steam ^^^ r.match0) &&& r.match1 = 0 ∧
  (slink ^^^ bits r.match2 3 0) &&& bits r.match2 7 4 = 0 ∧ (tag ^^^ bits r.match2 31 16) &&& bits r.match3 15 0 = 0 ∧ len ≤ r.len ∧
  (∃ x, s.launchOf t = some x ∧ r.buf + len ≤ x.srows * 256) ∧ Memory.wf s.core.sram = true ∧
  let p := sramPhaser s (phaserKey s t r.phaser)
  bits p 127 125 = 0 ∧ -(2 ^ 23) ≤ phInb p - len

/-- The payload stands in the buffer of the receive, which is gone. -/
def Landed (u : State) (t : Team) (r : Recv) (data : Bytes) : Prop :=
  (∀ j, j < data.length → memByte u.core.sram (padKey t r.buf + j) = data.getD j 0#8) ∧ (u.coreAt t.core).recvs = []

/-- The result of a group that another party owes it has this value. -/
def Answered (s t : State) (k rid v : Nat) : Prop :=
  ∀ g, s.group k = some g → ∃ x, t.group k = some x ∧
    x.results = g.results.map fun r => if r.src = some rid then { r with vals := [(32, v)], done := true } else r

/-- A curator's ticket is complete with the grace period whose last ticket is this one (12 R190). -/
def doneBy (last t : Nat) : Prop := t = 0 ∨ (last + 2 ^ 32 - t % 2 ^ 32) % 2 ^ 32 < 2 ^ 31

/-- One engine command is in flight, accepted and free to go on; no request, no operation of a word, no phaser update. -/
def Running (s : State) (i : Nat) (c : Cmd) : Prop :=
  s.fly.cmds = [(i, c)] ∧ s.fly.reqs = [] ∧ s.fly.posts = [] ∧ s.fly.upds = [] ∧ c.phase = 4 ∧ c.status = 0 ∧ c.parked = false ∧
  s.sys.fatal = none ∧ Calm s

/-- The two sides of a pair that are ready within each other's window, alone in flight (19 R348). -/
def Pair (s : State) (i m : Nat) (c p : Cmd) : Prop :=
  (s.fly.cmds = [(i, c), (m, p)] ∧ i ≠ m) ∧ s.fly.reqs = [] ∧ s.fly.posts = [] ∧ c.kind = 0xBD ∧ p.kind = 0xBD ∧ p.core = c.core ^^^ 1 ∧
  (∃ x y, s.team c.team = some x ∧ s.team p.team = some y ∧ x.grid = y.grid ∧ x.cluster = y.cluster) ∧ c.did = p.did ∧
  c.pairTag = p.pairTag ∧ c.phase = 3 ∧ p.phase = 3 ∧ p.t1 < c.t0 + 4096 ∧ c.t1 < p.t0 + 4096

/-- The number that a BANKOP of two or three elements puts into DST (19 R342). -/
def bankNum (c : Cmd) (x y z : Nat) : FltNum :=
  let n := decodeNum c.bankFmt
  if c.bop = 0 then addN false (n x) (n y) else if c.bop = 1 then mulN (n x) (n y) else addN false (mulN (n x) (n y)) (n z)

/-- An element of a BANKOP has been done: memory is as the stack engine left it, and the element is counted with its flags. -/
def ElementDone (t s' : State) (i j : Nat) (c : Cmd) (f : LaneFlags) : Prop :=
  t.mem = s'.mem ∧ ∃ y, t.cmd i = some y ∧ y.elems = c.elems ++ [j] ∧ y.flags = c.flags ||| f

/-- The buckets hold every token that the work in hand of a command takes (05 R73). -/
def Pays (s : State) (i : Nat) : Prop := (payTokens s i).2 = true

/-- The stack engine has put a number, rounded to the elements' format, into element j of DST. -/
def PutsElement (s s' : State) (i j : Nat) (c : Cmd) (x : FltNum) : Prop :=
  ∃ z, Eng.dram i c (c.f 56 0 + j * c.elemBytes) c.elemBytes (some (leOf c.elemBytes (round c.bankFmt .rne x).1)) s = .ok (z, s')

/-! ## Events: time, links, the package (07 R112, R115, R116, 10 R158, R167, R168, 23 R377 to R380) -/

/-- A timestamp of the other epoch loses 2^38 and changes epoch (07 R115). -/
def inEpoch (t : Ts) (ep : Bool) : Ts := if t.ep = ep then t else ⟨t.v - 2 ^ 38, ep⟩

/-- The eight links are there, and no message crosses one. -/
def LinksIdle (s : State) (n : Nat) : Prop := n < 8 ∧ s.sys.links.length = 8 ∧ Still s ∧ s.fly.msgs = []

/-- A link is now in this state with these lanes, and every other link is as it was. -/
def LinkNow (s t : State) (n st lanes : Nat) : Prop :=
  (t.link n).st = st ∧ (t.link n).lanes = lanes ∧ ∀ m, m ≠ n → t.link m = s.link m

/-- Every domain that was LIVE, DRAINING or KILLING is STOPPED with a reason, and the device takes no more commands. -/
def FatalNow (s t : State) (reason kind : Nat) : Prop :=
  t.sys.fatal = some reason ∧ (0, kind) ∈ t.sys.irqs ∧
  ∀ d, ((s.dom d).st ∈ [.live, .draining, .killing] → (t.dom d).st = .stopped ∧ (t.dom d).stop = reason) ∧
    ((s.dom d).st ∉ [.live, .draining, .killing] → (∀ e ∈ s.adm.doms, e.1 = d → e.2 = s.dom d) → t.dom d = s.dom d)

/-- The step answers such a state, whether the device is up or not. -/
def Always (i : Instr) (h : Happening) (s : State) (p : State → Prop) : Prop := s.ctl.ev = some h → ∃ t, Answers i s t ∧ p t

/-! ## The encoding, the fetch and the step -/

/-- The opcodes of the terminators (16 R252). -/
def terminators : List Nat := [0x01, 0x02, 0x03, 0x04, 0x05, 0x06, 0x07, 0x08, 0x09, 0x0A, 0x0B, 0x0E]

/-- No instruction has this word. -/
def Refused (w : Bits64) : Prop := ∃ e, decodeWord w = .error e

/-- A head with no guard. -/
def bare (last : Bool) : Head := { last := last, gn := false, gp := 0#3 }

/-- An R-form word without patterns and parameter. -/
def plainR (h : Head) (d a b c : Opd) (m : BitVec 4) : RWord :=
  { h := h, d := d, a := a, b := b, c := c, pa := .ident, pb := .ident, pc := .ident, k := 0#5, m := m }

/-- The worked encodings of 16, 17, 18 and 19, each with the instruction that its row names. -/
def workedWords : List (Bits64 × Instr) :=
  let ld : MWord := { h := bare false, data := .v 2, base := .v 10, seg := .none, off := 8#14, width := .w32, order := .acq, scope := .dev,
                      hint := 0#4 }
  let st : MWord := { h := bare true, data := .v 6, base := .v 8, seg := .s 2, off := 64#14, width := .w64, order := .rel, scope := .sys,
                      hint := 0#4 }
  let atom : MWord := { h := bare false, data := .v 4, base := .v 8, seg := .none, off := 16#14, width := .w32, order := .plain,
                        scope := .grp, hint := 0#4 }
  let pharr : MWord := { h := bare true, data := .none, base := .s 0, seg := .none, off := 3#14, width := .w128, order := .plain,
                         scope := .grp, hint := 0#4 }
  let phwait : MWord := { h := bare false, data := .s 5, base := .s 4, seg := .s 2, off := 0#14, width := .w128, order := .plain,
                          scope := .grp, hint := 8#4 }
  let pair : PairWord := { h := bare false, sop := .iadd, sd := 1#6, sa := 1#6, sb := .imm 4#7, vop := .fadd, vd := .v 4, va := .v 5,
                           vb := .v 6 }
  [(0x8040101418001030#64, .iadd { plainR (bare true) (.v 4) (.v 5) (.v 6) .none 0#4 with pb := .rot, k := 3#5 }),
   (0x02000828000084B0#64, .ld ld), (0x401041841C080A0C#64, .pairSIadd pair),
   (0x88080003FFFFFC00#64, .brc ⟨⟨true, false, 2#3⟩, .none, .p 0, 0xFFFFFF#24, 0#4⟩),
   (0x00CC282C30340001#64, .ffma (plainR (bare false) (.v 10) (.v 11) (.v 12) (.v 13) 1#4)),
   (0x0540080F10000002#64, .icmp (plainR ⟨false, false, 1#3⟩ (.p 2) (.v 3) (.s 4) (.p 0) 2#4)),
   (0x00A41C03FFFFF800#64, .movi ⟨bare false, .v 7, .none, 0xFFFFFE#24, 0#4⟩),
   (0x81A404080C000003#64, .eslide (plainR (bare true) (.v 1) (.v 2) (.v 3) .none 3#4)),
   (0x8010500000001400#64, .call ⟨bare true, .v 20, .none, 5#24, 0#4⟩), (0x0230102000010400#64, .atom atom),
   (0x8204182308040740#64, .st st), (0x01EB0C1C00000000#64, .wreduce (plainR (bare false) (.s 3) (.v 7) .none .none 0#4)),
   (0x8288030000003800#64, .pharr pharr), (0x028F171308000808#64, .phwait phwait),
   (0x02E00B1800000000#64, .copy (plainR (bare false) (.v 2) (.s 6) .none .none 0#4)),
   (0x82F30B1800000000#64, .mjob (plainR (bare true) (.s 2) (.s 6) .none .none 0#4)),
   (0x0340080000002000#64, .rdsr ⟨bare false, .v 2, .none, 8#24, 0#4⟩)]

/-- The words that 16, 18 and 19 name as illegal beside their worked encodings: two registers of one bank, a vector operation that reads
what the scalar one writes, a store that acquires, an odd register for a 64-bit value, a v-register base for a phaser, ICMP.NUM. -/
def illegalWords : List Bits64 :=
  [0x401041841C080A12#64, 0x401041841C09820C#64, 0x82041823080406C0#64, 0x03400C0000002000#64, 0x028F141000000800#64,
   0x0540080F10000006#64]

/-- A translation of the page of an address that a core's TLB or its die's holds, and that permits execution of what is there. -/
def FetchEntry (s : State) (core did pc : Nat) (e : TlbEntry) : Prop :=
  (e ∈ (s.coreAt core).tlb ∨ e ∈ (s.die (core / 48)).tlb) ∧ e.hits did (pc / 2 ^ 14) = true ∧ allowed e.pte 4 = true ∧
  (isHost (physOf e (core / 48) pc) = true ∨ keyAt s (physOf e (core / 48) pc) = pteKey e.pte)

end Sys2Proof.Claims

open Sys2Proof Sys2Proof.Machine Sys2Proof.Claims

/-! # The statements -/

/-! ## Words that compute -/

/-- R265: the arithmetic words. -/
def Sys2Proof.Claims.IntegerArithmetic : Prop := ∀ e ∈ arithRows, e.Fixed

/-- R266: logic and shifts. -/
def Sys2Proof.Claims.IntegerLogic : Prop := ∀ e ∈ logicRows, e.Fixed

/-- R267: bit fields. -/
def Sys2Proof.Claims.BitFields : Prop := ∀ e ∈ fieldRows, e.Fixed

/-- R266, R267: logic, shifts and bit fields. -/
def Obligations.LogicAndFields : Prop :=
  Sys2Proof.Claims.IntegerLogic ∧ Sys2Proof.Claims.BitFields

/-- R268: the moves, MOVI and MOVH of the I-form among them; MOVI.U of the low half and then MOVH of the high half form a constant. -/
def Obligations.Moves : Prop :=
  (∀ e ∈ movRows, e.Fixed) ∧
  (∀ (w : IWord) s c, Issuing s w.h c → Ready s c (asR w) {} true →
    ∃ t, Answers (.movi w) s t ∧ Moved s t c w.h ∧ ∀ l, l < 32 → regAt t c w.d 1 l =
      if (if w.d.isS then c.act ≠ 0#32 else w.d.isV = true ∧ inMask c.act l = true) then
        ((if w.m.toNat % 2 = 1 then w.imm.zeroExtend 32 else w.imm.signExtend 32 : Word)).zeroExtend 64
      else regAt s c w.d 1 l) ∧
  (∀ (w : IWord) s c, Issuing s w.h c → Ready s c (asR w) {} true →
    ∃ t, Answers (.movh w) s t ∧ Moved s t c w.h ∧ ∀ l, l < 32 → regAt t c w.d 1 l =
      if (if w.d.isS then c.act ≠ 0#32 else w.d.isV = true ∧ inMask c.act l = true) then
        let a := lo32 (srcAt s c (asR w) w.a .ident 1 (fromLane c (asR w) l))
        ((w.imm.extractLsb' 0 16 ++ a.extractLsb' 0 16 : Word)).zeroExtend 64
      else regAt s c w.d 1 l) ∧
  ∀ k : Word, ((((k.extractLsb' 16 16).zeroExtend 24 : BitVec 24).extractLsb' 0 16 ++
    (((k.extractLsb' 0 16).zeroExtend 24 : BitVec 24).zeroExtend 32 : Word).extractLsb' 0 16 : Word)) = k

/-- R265: IADDC adds with a carry in and names a carry out. -/
def Sys2Proof.Claims.AddWithCarry : Prop :=
  ∀ (w : RWord) s c, Issuing s w.h c → Ready s c w {} true → c.g.preds.length = 7 → (carryOf w.c).2 ≤ 7 →
    ∃ t, Answers (.iaddc w) s t ∧ Moved s t c w.h ∧
      (∀ l, l < 32 → regAt t c w.d 1 l =
        if (if w.d.isS then c.act ≠ 0#32 else w.d.isV = true ∧ inMask c.act l = true) then
          (BitVec.ofNat 32 (carrySum w s c (fromLane c w l))).zeroExtend 64
        else regAt s c w.d 1 l) ∧
      ∀ g, t.group c.k = some g → ∀ l, l < 32 → ∀ j, j ≤ 7 →
        g.pred j l = if j ≠ 0 ∧ j = (carryOf w.c).2 ∧ inMask c.act l = true then decide (2 ^ 32 ≤ carrySum w s c (fromLane c w l))
          else c.g.pred j l

/-- R265: the arithmetic words, IADDC with its carries among them. -/
def Obligations.ArithmeticWords : Prop :=
  Sys2Proof.Claims.IntegerArithmetic ∧ Sys2Proof.Claims.AddWithCarry

/-- R269: division, of variable latency. -/
def Obligations.Division : Prop := ∀ e ∈ divRows, e.Variable

/-- R271: one exact operation and one rounding, on FP32 and on FP64. -/
def Sys2Proof.Claims.FloatExact : Prop := ∀ e ∈ exactRows, e.Fixed

/-- R272, R275 to R277: the float words that choose, round to integral values, scale, classify, and work on halves. -/
def Sys2Proof.Claims.FloatChoose : Prop := ∀ e ∈ chooseRows, e.Fixed

/-- R273, R274: quotients, roots and the faithful functions, of variable latency. -/
def Sys2Proof.Claims.FloatRoots : Prop := ∀ e ∈ rootRows, e.Variable

/-- R271 to R277: the float words of fixed and of variable latency. -/
def Obligations.FloatWords : Prop :=
  Sys2Proof.Claims.FloatExact ∧ Sys2Proof.Claims.FloatChoose ∧ Sys2Proof.Claims.FloatRoots

/-- R283: packed halves. -/
def Sys2Proof.Claims.PackedHalves : Prop := ∀ e ∈ halfRows, e.Fixed

/-- R284 to R286: saturating words, repacking, slides and dot products. -/
def Sys2Proof.Claims.PackedWords : Prop := ∀ e ∈ repackRows, e.Fixed

/-- R288 to R291: conversions under the grid's format slot. -/
def Sys2Proof.Claims.Conversions : Prop := ∀ e ∈ convertRows, e.Fixed

/-- R283 to R286, R288 to R291: packed halves, saturating words, repacking, dot products, conversions. -/
def Obligations.PackedAndConverted : Prop :=
  Sys2Proof.Claims.PackedHalves ∧ Sys2Proof.Claims.PackedWords ∧ Sys2Proof.Claims.Conversions

/-- R279, R280: the compares and PMOV write one predicate in the active lanes. -/
def Sys2Proof.Claims.Compares : Prop := ∀ e ∈ compareRows, e.Holds

/-- R280, R281: words between predicates and registers. -/
def Sys2Proof.Claims.Predicates : Prop :=
  (∀ e ∈ fromPredRows, e.Fixed) ∧
  (∀ (w : RWord) s c, Issuing s w.h c → PredDest c w.d →
    (∃ t, Answers (.pset w) s t ∧ Moved s t c w.h ∧
      PredIs t c (opdPred w.d) fun l => pset w.m.toNat (c.g.pred (opdPred w.a) l) (c.g.pred (opdPred w.b) l)) ∧
    (∃ t, Answers (.voteAll w) s t ∧ Moved s t c w.h ∧
      PredIs t c (opdPred w.d) fun _ => lanes32.all fun j => !inMask c.act j || c.g.pred (opdPred w.a) j) ∧
    ∃ t, Answers (.voteAny w) s t ∧ Moved s t c w.h ∧
      PredIs t c (opdPred w.d) fun _ => lanes32.any fun j => inMask c.act j && c.g.pred (opdPred w.a) j) ∧
  ∀ (w : RWord) s c, Issuing s w.h c → Ready s c w {} true → c.g.preds.length = 7 →
    ∃ t, Answers (.pmovSetall w) s t ∧ Moved s t c w.h ∧
      ∀ g, t.group c.k = some g → ∀ l, l < 32 → ∀ j, 1 ≤ j → j ≤ 7 →
        g.pred j l = if inMask c.act l then (lo32 (srcAt s c w w.a w.pa 1 l)).getLsbD j else c.g.pred j l

/-- R279 to R281: the words that write predicates, and those between predicates and registers. -/
def Obligations.PredicateWords : Prop :=
  Sys2Proof.Claims.Compares ∧ Sys2Proof.Claims.Predicates

/-- R300 to R302: the cross-lane words leave their results for the boundary. -/
def Sys2Proof.Claims.CrossLane : Prop := ∀ e ∈ crossRows, e.Holds

/-- R66: WREDUCE, WSCAN and MATCH act for the whole entry mask, for none of it, or trap. -/
def Sys2Proof.Claims.Collectives : Prop := ∀ e ∈ crossRows, e.Collective

/-- R300 to R302, R66: the cross-lane words and the rule of the collectives. -/
def Obligations.CrossLaneWords : Prop :=
  Sys2Proof.Claims.CrossLane ∧ Sys2Proof.Claims.Collectives

/-- The frame of every word that computes on registers (R242, R56, R260): only the destination, its lanes' flags and predicates change. -/
def Sys2Proof.Claims.ComputeFrame : Prop :=
  (∀ e ∈ arithRows ++ logicRows ++ fieldRows ++ movRows ++ exactRows ++ chooseRows ++ halfRows ++ repackRows ++ convertRows ++
    fromPredRows ++ divRows ++ rootRows, e.Frames id) ∧
  (∀ e ∈ compareRows, e.Frames) ∧ (∀ e ∈ crossRows, e.Frames) ∧
  (∀ (w : RWord) s t c, Issuing s w.h c →
    (Answers (.iaddc w) s t → RegFrame s t c w.d 1 noPreds) ∧
    (Answers (.pset w) s t ∨ Answers (.voteAll w) s t ∨ Answers (.voteAny w) s t ∨ Answers (.pmovSetall w) s t →
      RegFrame s t c .none 1 noPreds)) ∧
  ∀ (w : IWord) s t c, Issuing s w.h c → Answers (.movi w) s t ∨ Answers (.movh w) s t → RegFrame s t c w.d 1 id

/-- R242, R87, R18, R64: a register operand that fails its check traps the word, with nothing written. The float, packed, conversion and
cross-lane words are not for the sequencer. -/
def Sys2Proof.Claims.OperandTraps : Prop :=
  ∀ e ∈ arithRows ++ logicRows ++ fieldRows ++ movRows ++ exactRows ++ chooseRows ++ halfRows ++ repackRows ++ convertRows ++
      divRows ++ rootRows, ∀ w s c, Issuing s w.h c → vregsOf w.d (e.n w).d ++ readsR w (e.n w) ≠ [] →
    (c.g.isSeq = true → ∃ t x, Answers (e.make w) s t ∧ Trapped t c 0x06 0 x c.pc ∧ SameValues s t c) ∧
    (c.g.isSeq = false → ∀ n, (vregsOf w.d (e.n w).d ++ readsR w (e.n w)).find? (fun n => (teamRow s c.g n).isNone) = some n →
      ∃ t, Answers (e.make w) s t ∧ Trapped t c 0x08 0 n c.pc ∧ SameValues s t c) ∧
    (c.g.isSeq = false → (∀ n ∈ vregsOf w.d (e.n w).d ++ readsR w (e.n w), (teamRow s c.g n).isSome = true) →
      (∃ n r, n ∈ vregsOf w.d (e.n w).d ++ readsR w (e.n w) ∧ teamRow s c.g n = some r ∧
        (s.rowTag (s.coreOf c.g) (physRow s c.g r)).owner ≠ some (s.didOf c.g)) →
      ∃ t, Answers (e.make w) s t ∧ Trapped t c 0x0E 0 0 c.pc ∧ SameValues s t c)

/-- R207: a poisoned row that is read leaves the destination as it was and pends ECC for the boundary. -/
def Sys2Proof.Claims.PoisonedOperand : Prop :=
  ∀ e ∈ arithRows ++ logicRows ++ fieldRows ++ movRows ++ exactRows ++ chooseRows ++ halfRows ++ repackRows ++ convertRows ++
      divRows ++ rootRows, ∀ w s c, Issuing s w.h c →
    (c.g.isSeq = true → e.seqOk = true) → Named s c (vregsOf w.d (e.n w).d ++ readsR w (e.n w)) →
    ∀ r, poisonedRow s c (readsR w (e.n w)) = some r →
      ∃ t g, Answers (e.make w) s t ∧ Moved s t c w.h ∧ SameValues s t c ∧ t.group c.k = some g ∧ g.results = c.g.results ∧
        ∃ x ∈ g.btraps, x.cause = 0x10

/-- R242, R87, R18, R64, R207: what a register operand that fails its check, or whose row is poisoned, does to a word. -/
def Obligations.RegisterTraps : Prop :=
  Sys2Proof.Claims.OperandTraps ∧ Sys2Proof.Claims.PoisonedOperand

/-! ## Control -/

/-- R295: NEXT, BRC, BRX, CALL, RET and LOOP name the successors of their guard-true lanes. -/
def Obligations.Transfers : Prop :=
  (∀ (w : IWord) s c, Issuing s w.h c → w.h.last = true →
    (∃ t, Answers (.nextw w) s t ∧ Leaves t c (fun _ => (jumpTo c.pc w.imm, c.r.depth)) ∧ SameValues s t c) ∧
    ∃ t, Answers (.brc w) s t ∧ SameValues s t c ∧ Leaves t c fun l =>
      (if xor (c.g.pred (opdPred w.a) l) (w.m.toNat % 2 == 1) then jumpTo c.pc w.imm else c.pc + 8, c.r.depth)) ∧
  (∀ (w : RWord) s c, Issuing s w.h c → w.h.last = true → w.d = .none → Ready s c w ⟨1, 2, 1, 1⟩ true →
    (∃ t, Answers (.brx w) s t ∧ SameValues s t c ∧
      Leaves t c fun l => ((srcAt s c w w.a w.pa 2 l).toNat % 2 ^ 57, c.r.depth)) ∧
    ((c.act = 0#32 ∨ 1 ≤ c.r.depth) → ∃ t, Answers (.ret w) s t ∧ SameValues s t c ∧
      Leaves t c fun l => ((srcAt s c w w.a w.pa 2 l).toNat % 2 ^ 57, c.r.depth - 1)) ∧
    (c.act ≠ 0#32 → c.r.depth = 0 → ∃ t, Answers (.ret w) s t ∧ Trapped t c 0x03 0 c.act.toNat c.pc ∧ SameValues s t c)) ∧
  (∀ (w : IWord) s c, Issuing s w.h c → w.h.last = true → Ready s c (asR w) ⟨2, 1, 1, 1⟩ false → w.a = .none →
    ((c.act = 0#32 ∨ c.r.depth < 63) → ∃ t, Answers (.call w) s t ∧ Leaves t c (fun _ => (jumpTo c.pc w.imm, c.r.depth + 1)) ∧
      ∀ l, l < 32 → regAt t c w.d 2 l =
        if (if w.d.isS then c.act ≠ 0#32 else w.d.isV = true ∧ inMask c.act l = true) then BitVec.ofNat 64 (c.pc + 8)
        else regAt s c w.d 2 l) ∧
    (c.act ≠ 0#32 → 63 ≤ c.r.depth → ∃ t, Answers (.call w) s t ∧ Trapped t c 0x03 0 c.act.toNat c.pc ∧ SameValues s t c)) ∧
  ∀ (w : IWord) s c, Issuing s w.h c → w.h.last = true → w.a = .none → w.d.isV = true ∨ w.d.isS = true →
    Ready s c (asR w) {} true → Clean s c (vregsOf w.d 1) →
    ∃ t, Answers (.loop w) s t ∧
      (∀ l, l < 32 → regAt t c w.d 1 l =
        if (if w.d.isS then c.act ≠ 0#32 else inMask c.act l = true) then (lo32 (regAt s c w.d 1 l) - 1#32).zeroExtend 64
        else regAt s c w.d 1 l) ∧
      Leaves t c fun l => (if lo32 (regAt s c w.d 1 l) ≠ 1#32 then jumpTo c.pc w.imm else c.pc + 8, c.r.depth)

/-- R296, R298, R186: NOP, REGROUP, EXIT, YIELD and SETPRI. -/
def Sys2Proof.Claims.GroupControl : Prop :=
  (∀ (w : RWord) s c, Issuing s w.h c →
    (∃ t, Answers (.nop w) s t ∧ Moved s t c w.h ∧ SameValues s t c) ∧
    (∃ t g r, Answers (.yield w) s t ∧ SameValues s t c ∧ t.group c.k = some g ∧ g.run = some r ∧ r.closed = w.h.last ∧
      r.yielded = (c.r.yielded || decide (c.act ≠ 0#32))) ∧
    ((∀ l, ActiveIn c l → c.g.depth.getD l 0 = 0) → ∃ t g r, Answers (.exit w) s t ∧ SameValues s t c ∧ t.group c.k = some g ∧
      g.run = some r ∧ r.closed = w.h.last ∧ r.exits = c.r.exits ||| c.act) ∧
    ((∃ l, ActiveIn c l ∧ c.g.depth.getD l 0 ≠ 0) → ∃ t x, Answers (.exit w) s t ∧ Trapped t c 0x0C 3 x c.pc ∧
      ∀ l, l < 32 → x.testBit l = (inMask c.act l && c.g.depth.getD l 0 != 0))) ∧
  ∀ (w : IWord) s c, Issuing s w.h c →
    (c.g.isSeq = false → c.g.handler = none → w.h.last = true → ∃ t g r, Answers (.regroup w) s t ∧
      Leaves t c (fun _ => (jumpTo c.pc w.imm, c.r.depth)) ∧ t.group c.k = some g ∧ g.run = some r ∧ r.regroup = c.r.regroup ||| c.act) ∧
    (c.g.isSeq = true → ∃ t, Answers (.regroup w) s t ∧ Trapped t c 0x06 0 0x06 c.pc) ∧
    (c.g.isSeq = false → c.g.handler ≠ none → ∃ t, Answers (.regroup w) s t ∧ Trapped t c 0x07 0 0x06 c.pc) ∧
    (c.g.isSeq = false → ∃ t g, Answers (.setpri w) s t ∧ Moved s t c w.h ∧ t.group c.k = some g ∧
      (c.act ≠ 0#32 → g.base = w.imm.toNat % 16 ∧ g.level = w.imm.toNat % 16 ∧ g.wait = 0) ∧
      (c.act = 0#32 → g.base = c.g.base ∧ g.level = c.g.level ∧ g.wait = c.g.wait)) ∧
    (c.g.isSeq = true → ∃ t, Answers (.setpri w) s t ∧ Trapped t c 0x06 0 0x0F c.pc)

/-- R297, R199, R355: TRAP and BKPT trap where some lane is active; TRET and HALT.F end a handler and trap outside one. -/
def Obligations.TrapWords : Prop :=
  (∀ (w : IWord) s c, Issuing s w.h c →
    (c.act ≠ 0#32 → ∃ t, Answers (.trapw w) s t ∧ Trapped t c 0x13 0 w.imm.toNat (c.pc + 8)) ∧ (c.act = 0#32 → Passed (.trapw w) s c w.h)) ∧
  ∀ (w : RWord) s c, Issuing s w.h c →
    (c.g.isSeq = false → c.act ≠ 0#32 → ∃ t, Answers (.bkpt w) s t ∧ Trapped t c 0x14 0 c.pc (c.pc + 8)) ∧
    (c.g.isSeq = false → c.act = 0#32 → Passed (.bkpt w) s c w.h) ∧
    (c.g.handler = none → (∃ t, Answers (.tret w) s t ∧ Trapped t c 0x07 0 0x0B c.pc) ∧
      ∃ t, Answers (.haltF w) s t ∧ Trapped t c 0x07 0 0x0E c.pc) ∧
    (c.g.handler ≠ none → ∃ t g r, Answers (.tret w) s t ∧ SameValues s t c ∧ t.group c.k = some g ∧ g.run = some r ∧
      r.closed = w.h.last ∧ r.tret = if c.act = 0#32 then c.r.tret else c.r.gang) ∧
    ∀ h, c.g.handler = some h →
      (h.trap.cause = 0x15 → ∃ t g r, Answers (.haltF w) s t ∧ SameValues s t c ∧ t.group c.k = some g ∧ g.run = some r ∧
        r.closed = w.h.last ∧ ((∀ b, h.budget = some b → s.sys.clk < b) → r.halt = (c.r.halt || decide (c.act ≠ 0#32))) ∧
        ((∃ b, h.budget = some b ∧ b ≤ s.sys.clk) → r.halt = c.r.halt)) ∧
      (h.trap.cause ≠ 0x15 → ∃ t, Answers (.haltF w) s t ∧ Trapped t c 0x07 0 0x0E c.pc)

/-- R298, R66, R131: WSYNC over the whole entry mask is a full fence; it traps where the masks differ or name others. -/
def Sys2Proof.Claims.WarpSync : Prop :=
  ∀ (w : RWord) s c, Issuing s w.h c → Ready s c w {} false → w.d = .none →
    (c.act = 0#32 → Passed (.wsync w) s c w.h) ∧
    (c.act ≠ 0#32 → ¬ (c.r.gang = c.g.live ∧ c.act = c.r.gang) →
      ∃ t, Answers (.wsync w) s t ∧ Trapped t c 0x04 0 c.r.gang.toNat c.pc) ∧
    (Acts c true →
      (∀ l, ActiveIn c l → lo32 (srcAt s c w w.a w.pa 1 l) = lo32 (srcAt s c w w.a w.pa 1 (lowLane c.act)) ∧
        lo32 (srcAt s c w w.a w.pa 1 l) &&& ~~~c.g.live = 0#32) →
      ∃ t g r, Answers (.wsync w) s t ∧ SameValues s t c ∧ t.group c.k = some g ∧ g.run = some r ∧ r.closed = w.h.last ∧
        r.fence = c.r.fence ++ groupAccesses s c.k) ∧
    (Acts c true → (∃ l, ActiveIn c l ∧ (lo32 (srcAt s c w w.a w.pa 1 l) ≠ lo32 (srcAt s c w w.a w.pa 1 (lowLane c.act)) ∨
        lo32 (srcAt s c w w.a w.pa 1 l) &&& ~~~c.g.live ≠ 0#32)) →
      ∃ t x, Answers (.wsync w) s t ∧ Trapped t c 0x05 0 x c.pc)

/-- R296, R298, R186, R66: the words that act on the group itself. -/
def Obligations.GroupWords : Prop :=
  Sys2Proof.Claims.GroupControl ∧ Sys2Proof.Claims.WarpSync

/-- The frame of the control words: registers but for those CALL and LOOP name, flags, predicates, special registers and memory are as
they were; SETPRI changes the group's level. -/
def Sys2Proof.Claims.ControlFrame : Prop :=
  (∀ (w : RWord) s t c, Issuing s w.h c →
    Answers (.nop w) s t ∨ Answers (.brx w) s t ∨ Answers (.ret w) s t ∨ Answers (.exit w) s t ∨ Answers (.yield w) s t ∨
    Answers (.tret w) s t ∨ Answers (.bkpt w) s t ∨ Answers (.wsync w) s t ∨ Answers (.haltF w) s t → StillFrame s t c) ∧
  ∀ (w : IWord) s t c, Issuing s w.h c →
    (Answers (.nextw w) s t ∨ Answers (.brc w) s t ∨ Answers (.regroup w) s t ∨ Answers (.trapw w) s t → StillFrame s t c) ∧
    (Answers (.call w) s t → RegFrame s t c w.d 2 id) ∧ (Answers (.loop w) s t → RegFrame s t c w.d 1 id) ∧
    (Answers (.setpri w) s t → RegFrame s t c .none 1 fun g => { g with base := 0, level := 0, wait := 0 })

/-- What the words that compute and the control words leave as it was. -/
def Obligations.RegisterFrames : Prop :=
  Sys2Proof.Claims.ComputeFrame ∧ Sys2Proof.Claims.ControlFrame

/-! ## Pair words -/

/-- R249 to R251: both operations read their registers, then SD takes the result of the scalar one where some lane is active, and VD
and the flags those of the vector one in the active lanes. -/
def Sys2Proof.Claims.PairWords : Prop :=
  ∀ e ∈ pairRows, ∀ w s c, Issuing s w.h c → PairReady s c w (e.vo w) →
    ∃ t, Answers (e.make w) s t ∧ Moved s t c w.h ∧
      (∀ n, t.sreg c.k n = if n = w.sd.toNat ∧ e.so w ≠ .nop ∧ c.act ≠ 0#32 then
          scalarFn (e.so w) (s.sreg c.k w.sa.toNat) (match w.sb with | .s b => s.sreg c.k b.toNat | .imm x => x.signExtend 32)
        else s.sreg c.k n) ∧
      (∀ l, l < 32 → e.vo w ≠ .nop → regAt t c w.vd 1 l =
        if inMask c.act l then narrow 1 (vectorFn (e.vo w) (lo32 (regAt s c w.va 1 l)) (lo32 (regAt s c w.vb 1 l))).1
        else regAt s c w.vd 1 l) ∧
      ∀ g, t.group c.k = some g → ∀ l, l < 32 → g.flags.getD l 0#8 =
        if e.vo w ≠ .nop ∧ inMask c.act l = true then
          c.g.flags.getD l 0#8 ||| (vectorFn (e.vo w) (lo32 (regAt s c w.va 1 l)) (lo32 (regAt s c w.vb 1 l))).2
        else c.g.flags.getD l 0#8

/-- The frame of the pair words (only SD and VD change), and their traps: a sequencer may issue none with a vector operation, whose
%trapinfo is then 0x100 plus VOP (13 R199, 16 R250); a v-register out of range. -/
def Sys2Proof.Claims.PairFrame : Prop :=
  ∀ e ∈ pairRows, ∀ w s c, Issuing s w.h c →
    (∀ t, Answers (e.make w) s t → SameDevice s t ∧ SameAdmin s t ∧ SameTeams s t ∧ SameGroups s t c id ∧
      SameRegs s t (destRowKeys s c w.vd 1) ((c.k * 64 + w.sd.toNat) :: destSregKeys c w.vd 1)) ∧
    (e.vo w ≠ .nop → c.g.isSeq = true →
      ∃ t, Answers (e.make w) s t ∧ Trapped t c 0x06 0 (0x100 + vopCode (e.vo w)) c.pc ∧ SameValues s t c) ∧
    (e.vo w ≠ .nop → c.g.isSeq = false → ∀ n, (pairRegs w).find? (fun n => (teamRow s c.g n).isNone) = some n →
      ∃ t, Answers (e.make w) s t ∧ Trapped t c 0x08 0 n c.pc ∧ SameValues s t c)

/-- R249 to R251: pair words, what they leave as it was, and their traps. -/
def Obligations.Pairs : Prop :=
  Sys2Proof.Claims.PairWords ∧ Sys2Proof.Claims.PairFrame

/-! ## Memory words -/

/-- R305 to R308, R314, R316: loads, stores, prefetches, probes and queue words issue and make their accesses; a load, a probe and a POP
await a result. -/
def Obligations.MemoryWords : Prop :=
  let go : MWord → State → Ctx → Prop := fun _ _ _ => True
  ldRow.Makes (fun w => some (widthRegs w.width)) go ∧ stRow.Makes (fun _ => none) go ∧ mstRow.Makes (fun _ => none) go ∧
  prefRow.Makes (fun _ => none) go ∧ probeRow.Makes (fun _ => some 2) go ∧
  (∀ e ∈ padLoadRows, e.Makes (fun w => some (widthRegs w.width)) go) ∧ (∀ e ∈ padStoreRows, e.Makes (fun _ => none) go) ∧
  ∀ e ∈ queueRows, e.Makes (fun w => if e.op = 0x93 then some (e.cnt w) else none)
    fun w s c => ∀ l ∈ accessLanes c w, ∀ x pa u,
      translateNow s (s.coreOf c.g) (s.didOf c.g) (e.addr w s c l).toNat 3 = .ok x pa u → pageRefuses x .push = false

/-- R311 to R313: an atomic word whose accesses share no byte issues, and ATOM, CAS, ATOMS and CASS await the old values; one whose
accesses share a byte traps and does nothing. -/
def Obligations.AtomicWords : Prop :=
  (∀ e ∈ atomicRows ++ padAtomicRows, e.Makes (fun w => if e.op = 0x8E then none else some (widthRegs w.width)) e.Apart) ∧
  ∀ e ∈ atomicRows ++ padAtomicRows, ∀ w s c, Issuing s w.h c → e.Ready w s c → e.Reach w s c → ¬ e.Apart w s c →
    ∃ t x, Answers (e.make w) s t ∧ Trapped t c 0x0B 0 x c.pc ∧ SameValues s t c ∧
      ∀ l, l < 32 → x.testBit l = (accessLanes c w).any fun a => a == l && (accessLanes c w).any fun b => b != l &&
        decide (e.addr w s c l < e.addr w s c b + e.size w ∧ e.addr w s c b < e.addr w s c l + e.size w)

/-- R248, R84: an access whose address is not formed, not aligned or outside its space traps the word, in this order of the checks,
each for its first lane. -/
def Sys2Proof.Claims.AddressTraps : Prop :=
  ∀ e ∈ memRows, ∀ w s c, Issuing s w.h c → e.Ready w s c →
    (∀ l, (accessLanes c w).find? (fun l => !e.formed w s c l) = some l →
      ∃ t, Answers (e.make w) s t ∧ Trapped t c 0x0A 0 (addressInfo (e.addr w s c l)) c.pc ∧ SameValues s t c) ∧
    ((∀ l ∈ accessLanes c w, e.formed w s c l = true) →
      ∀ l, (accessLanes c w).find? (fun l => !e.aligned w s c l) = some l →
      ∃ t, Answers (e.make w) s t ∧ Trapped t c 0x09 0 (e.addr w s c l).toNat c.pc ∧ SameValues s t c) ∧
    ((∀ l ∈ accessLanes c w, e.formed w s c l = true ∧ e.aligned w s c l = true) →
      ∀ l, (accessLanes c w).find? (fun l => !e.inside w s c l) = some l →
      ∃ t, Answers (e.make w) s t ∧ Trapped t c 0x0A 0 (e.addr w s c l).toNat c.pc ∧ SameValues s t c)

/-- R292, R87, R18: what the sequencer may not issue, and registers out of range or of another domain, trap a memory word. -/
def Sys2Proof.Claims.MemoryRegisterTraps : Prop :=
  ∀ e ∈ memRows, ∀ w s c, Issuing s w.h c → e.form w = true →
    let ns := vregsOf w.data (e.cnt w) ++ vregsOf w.base 1
    (c.g.isSeq = true → (e.seqOk w = false ∨ ns ≠ []) → ∃ t, Answers (e.make w) s t ∧ Trapped t c 0x06 0 e.op c.pc ∧ SameValues s t c) ∧
    (c.g.isSeq = false → ∀ n, ns.find? (fun n => (teamRow s c.g n).isNone) = some n →
      ∃ t, Answers (e.make w) s t ∧ Trapped t c 0x08 0 n c.pc ∧ SameValues s t c) ∧
    (c.g.isSeq = false → (∀ n ∈ ns, (teamRow s c.g n).isSome = true) →
      (∃ n r, n ∈ ns ∧ teamRow s c.g n = some r ∧ (s.rowTag (s.coreOf c.g) (physRow s c.g r)).owner ≠ some (s.didOf c.g)) →
      ∃ t, Answers (e.make w) s t ∧ Trapped t c 0x0E 0 0 c.pc ∧ SameValues s t c)

/-- R305: LD.C reads the grid's own constants at once, extended below 32 bits as the word says, and writes the registers of DATA. -/
def Sys2Proof.Claims.ConstantLoads : Prop :=
  ∀ w s c, Issuing s w.h c → ldcRow.Ready w s c → ldcRow.Reach w s c →
    (∀ n i j, w.data = .v n → i < widthRegs w.width → j < widthRegs w.width → i ≠ j → teamRow s c.g (n + i) ≠ teamRow s c.g (n + j)) →
    ∃ t, Answers (.ld w) s t ∧ Moved s t c w.h ∧
      (∀ l i, l < 32 → i < widthRegs w.width → regWord t c w.data i l =
        if (if w.data.isS then c.act ≠ 0#32 else w.data.isV = true ∧ inMask c.act l = true) then
          let j := if w.base.isS then 32 else if w.data.isS then lowLane c.act else l
          let k := (((s.teamOf c.g).bind fun t => s.grid t.grid).map (·.consts)).getD []
          let v := loadValue (widthBytes w.width) (w.hint.toNat.testBit 0) (k.drop (ldcRow.addr w s c j).toNat)
          BitVec.ofNat 32 (v / 2 ^ (32 * i))
        else regWord s c w.data i l) ∧
      RegFrame s t c w.data (widthRegs w.width) id ∧ ∀ g, t.group c.k = some g → g.flags = c.g.flags

/-- R305, R121: LDS and LDC of rows at hand deliver the bytes they find, and change nothing in SRAM. -/
def Sys2Proof.Claims.ScratchLoads : Prop :=
  ∀ e ∈ padLoadRows, ∀ w s c, Issuing s w.h c → e.Ready w s c → e.Reach w s c → e.AtHand w s c →
    ∃ t x, Issued (e.make w) s t c w.h ∧ Awaits t s c (destOf s c w.data (widthRegs w.width)) x ∧ x.done = true ∧
      (∀ l ∈ accessLanes c w,
        resultValue x.vals l = loadValue (widthBytes w.width) (w.hint.toNat.testBit 0 && decide (widthBytes w.width < 4)) (e.found w s c l)) ∧
      t.core.sram = s.core.sram ∧ t.core.sramTags = s.core.sramTags

/-- R306, R121: STS and STC of rows at hand write the bytes of each access, of lanes that share a byte the highest, and no other byte of
SRAM. -/
def Sys2Proof.Claims.ScratchStores : Prop :=
  ∀ e ∈ padStoreRows, ∀ w s c, Issuing s w.h c → e.Ready w s c → e.Reach w s c → e.AtHand w s c →
    ∃ t, Issued (e.make w) s t c w.h ∧
      (∀ x, (∀ l ∈ accessLanes c w, e.covers w s c l x = false) → memByte t.core.sram x = memByte s.core.sram x) ∧
      ∀ x, ∀ l ∈ accessLanes c w, e.covers w s c l x = true →
        (∀ j ∈ accessLanes c w, e.covers w s c j x = true →
          j ≤ l ∧ padTeam s c e.sp (e.addr w s c j).toNat = padTeam s c e.sp (e.addr w s c l).toNat) →
        ∀ p, e.place w s c l = some p →
          memByte t.core.sram x = (leOf (e.size w) (dataAt s c w 0 (e.cnt w) l)).getD (x - p.2) 0#8

/-- R311, R312: ATOMS and CASS deliver the old value of each access and leave the new one, and write no other byte of SRAM. -/
def Sys2Proof.Claims.ScratchAtomics : Prop :=
  ∀ e ∈ padAtomicRows, ∀ w s c, Issuing s w.h c → e.Ready w s c → e.Reach w s c → e.AtHand w s c → e.Apart w s c →
    ∃ t x, Issued (e.make w) s t c w.h ∧ Awaits t s c (destOf s c w.data (widthRegs w.width)) x ∧ x.done = true ∧
      (∀ l ∈ accessLanes c w, resultValue x.vals l = leVal (e.found w s c l)) ∧
      (∀ x, (∀ l ∈ accessLanes c w, e.covers w s c l x = false) → memByte t.core.sram x = memByte s.core.sram x) ∧
      ∀ x, ∀ l ∈ accessLanes c w, e.covers w s c l x = true → ∀ p, e.place w s c l = some p →
        let old := leVal (e.found w s c l)
        let n := widthRegs w.width
        let new := if e.op = 0x90 then (if old = dataAt s c w 0 n l then dataAt s c w n n l else old)
          else atomNew (w.hint.toNat % 8) (e.size w) old (dataAt s c w 0 n l)
        memByte t.core.sram x = (leOf (e.size w) new).getD (x - p.2) 0#8

/-- R305, R306, R311, R312, R121: constants and scratchpad rows at hand. -/
def Obligations.Scratchpad : Prop :=
  Sys2Proof.Claims.ConstantLoads ∧ Sys2Proof.Claims.ScratchLoads ∧ Sys2Proof.Claims.ScratchStores ∧ Sys2Proof.Claims.ScratchAtomics

/-- R309, R131: FENCE.ACQ passes; FENCE.REL makes the later writes of its path wait for the earlier accesses of the path; FENCE also
makes the group wait for its own. -/
def Sys2Proof.Claims.Fences : Prop :=
  ∀ w s c, Issuing s w.h c →
    ∃ t g r, Issued (.fence w) s t c w.h ∧ t.group c.k = some g ∧ g.run = some r ∧
      (∀ i, i ∈ r.hold ↔ i ∈ c.r.hold ∨ (c.act ≠ 0#32 ∧ w.order ≠ .acq ∧ i ∈ lanesAccesses s c.k c.r.gang)) ∧
      r.fence = c.r.fence ++ if c.act ≠ 0#32 ∧ w.order = .plain then groupAccesses s c.k else []

/-- R310: a range operation issues and keeps its group in RESULTS for each lane of a length that is not zero; a range that leaves the
address space traps. -/
def Sys2Proof.Claims.RangeWords : Prop :=
  ∀ e ∈ rangeRows, ∀ w s c, Issuing s w.h c → e.Ready w s c → e.Reach w s c →
    let past := fun l => decide (2 ^ 57 ≤ (e.addr w s c l).toNat + dataAt s c w 0 1 l ∧ dataAt s c w 0 1 l ≠ 0)
    ((∀ l ∈ accessLanes c w, past l = false) → ∃ t g r new, Issued (e.make w) s t c w.h ∧ t.group c.k = some g ∧ g.run = some r ∧
      r.fence = c.r.fence ++ new ∧ new.length = ((accessLanes c w).filter fun l => dataAt s c w 0 1 l != 0).length) ∧
    ∀ l, (accessLanes c w).find? past = some l →
      ∃ t, Answers (e.make w) s t ∧ Trapped t c 0x0A 0 (e.addr w s c l).toNat c.pc ∧ SameValues s t c

/-- R309, R310, R131: fences and range operations. -/
def Obligations.FencesAndRanges : Prop :=
  Sys2Proof.Claims.Fences ∧ Sys2Proof.Claims.RangeWords

/-- R307, R168: a remote word without a binding or a link that is up is not sent; its group takes LINK at the boundary, and nothing is
written. -/
def Sys2Proof.Claims.RemoteRefused : Prop :=
  ∀ e ∈ stRow :: atomicRows, ∀ w s c, Issuing s w.h c → e.Ready w s c → e.Reach w s c → (e.op ≠ 0x81 → e.Apart w s c) →
    e.remote w = true → accessLanes c w ≠ [] →
    let l := linkOf s c w
    ((bindingOf s l (s.didOf c.g)).isNone = true ∨ linkUp s l = false) →
    ∃ t g x, Issued (e.make w) s t c w.h ∧ t.fly = s.fly ∧ t.mem = s.mem ∧ t.group c.k = some g ∧ g.results = c.g.results ∧
      x ∈ g.btraps ∧ x.cause = 0x12 ∧
      ((∀ y ∈ c.g.btraps, y.cause ≠ 0x12) → x.info = l + 256 * if (bindingOf s l (s.didOf c.g)).isNone then 1 else 0)

/-- R248, R84, R292, R87, R18, R307: the checks of a memory word, and a remote word that is not sent. -/
def Obligations.MemoryTraps : Prop :=
  Sys2Proof.Claims.AddressTraps ∧ Sys2Proof.Claims.MemoryRegisterTraps ∧ Sys2Proof.Claims.RemoteRefused

/-- The frame of the memory words: registers, flags, device memory and what is cached of it are as they were when the word has issued;
FENCE and the words of global memory change no byte of SRAM either. -/
def Obligations.MemoryFrame : Prop :=
  (∀ e ∈ [ldRow, stRow, mstRow, prefRow, probeRow] ++ atomicRows ++ queueRows, ∀ w s t c, Issuing s w.h c → Quiet s → e.form w = true →
    Answers (e.make w) s t → SameButRequests s t c ∧ t.core.sram = s.core.sram ∧ t.core.sramTags = s.core.sramTags) ∧
  (∀ e ∈ padLoadRows ++ padStoreRows ++ padAtomicRows, ∀ w s t c, Issuing s w.h c → Quiet s → Answers (e.make w) s t →
    SameButRequests s t c ∧
    ∀ x, (∀ l ∈ accessLanes c w, e.op ≠ 0x82 → e.op ≠ 0x84 → e.covers w s c l x = false) → memByte t.core.sram x = memByte s.core.sram x) ∧
  (∀ w s t c, Issuing s w.h c → Answers (.fence w) s t → StillFrame s t c) ∧
  ∀ e ∈ rangeRows, ∀ w s t c, Issuing s w.h c → Quiet s → Answers (e.make w) s t →
    t.core.rows = s.core.rows ∧ t.core.sregs = s.core.sregs ∧ t.core.sram = s.core.sram ∧ t.work.teams = s.work.teams

/-! ## Phasers, sections, messages, gates -/

/-- R174 to R176, R180, R172: PHREG, PHDROP, PHARR and PHEXP on a team phaser change its counts, turn it where its phase is complete,
and record the registration; each refusal traps with its subcode and changes nothing. -/
def Sys2Proof.Claims.PhaserWords : Prop :=
  ∀ e ∈ phaserRows, ∀ w s c t, Issuing s w.h c → TeamPhaser s c w t →
    let n := phaserNumber s c w
    let key := phaserKey s t n
    let m := w.hint.toNat % 4
    let o := e.change m (sopd s c w.data 1) c.g.gts
    let p := sramPhaser s key
    let refused := fun (sub : Nat) => ∃ u, Answers (e.make w) s u ∧ Trapped u c 0x0D sub n c.pc ∧ SameValues s u c ∧ u.core.sram = s.core.sram
    (∀ k q, e.refuses m (sopd s c w.data 1) = none → e.after m (heldOf c.g n) = some k → phApply p (newEpoch s) o = .ok q →
      ∃ u g, Goes (e.make w) s u c w.h ∧ (∀ x, memByte u.core.sram x = memByte (memPut s.core.sram key (leOf 16 (afterPhase o q))) x) ∧
        u.group c.k = some g ∧ g.phreg = setBits c.g.phreg (2 * n + 1) (2 * n) k) ∧
    (∀ sub, e.refuses m (sopd s c w.data 1) = some sub → refused sub) ∧
    (e.refuses m (sopd s c w.data 1) = none → e.after m (heldOf c.g n) = none → refused 4) ∧
    ∀ k sub, e.refuses m (sopd s c w.data 1) = none → e.after m (heldOf c.g n) = some k → phApply p (newEpoch s) o = .error sub →
      refused sub

/-- R180, R170: an operation on a phaser adds to its counts, or is refused: a reserved bit, an arrival too many, a count or a byte count
out of range. -/
def Sys2Proof.Claims.PhaserCounts : Prop :=
  ∀ p ep o,
    let sr := (phSreg p : Int) + o.sreg
    let wr := (phWreg p : Int) + o.wreg
    let pe := (phPend p : Int) + o.pend
    let i := phInb p + o.inb
    let u := phOutb p + o.outb
    (bits p 127 125 ≠ 0 → phApply p ep o = .error 8) ∧
    (bits p 127 125 = 0 → pe < 0 → phApply p ep o = .error 3) ∧
    (bits p 127 125 = 0 → 0 ≤ pe → (sr < 0 ∨ 1023 < sr ∨ wr < 0 ∨ 1023 < wr) → phApply p ep o = .error 5) ∧
    (bits p 127 125 = 0 → 0 ≤ pe → 0 ≤ sr → sr ≤ 1023 → 0 ≤ wr → wr ≤ 1023 →
      (i < -(2 ^ 23) ∨ 2 ^ 23 ≤ i ∨ u < -(2 ^ 23) ∨ 2 ^ 23 ≤ u) → phApply p ep o = .error 6) ∧
    (bits p 127 125 = 0 → 0 ≤ pe → pe < 4096 → 0 ≤ sr → sr ≤ 1023 → 0 ≤ wr → wr ≤ 1023 → -(2 ^ 23) ≤ i → i < 2 ^ 23 → -(2 ^ 23) ≤ u →
      u < 2 ^ 23 → (phTs p).ep = ep → (∀ t, o.ts = some t → t.ep = ep ∧ t.v < 2 ^ 40) →
      ∃ q, phApply p ep o = .ok q ∧ (phSreg q : Int) = sr ∧ (phWreg q : Int) = wr ∧ (phPend q : Int) = pe ∧ phInb q = i ∧ phOutb q = u ∧
        phGen q = phGen p ∧ (phTs q).ep = ep ∧
        (phTs q).v = (match o.ts with | some t => max (phTs p).v t.v | none => (phTs p).v))

/-- R172: a turn advances the generation modulo 16 and takes PEND from SREG. -/
def Sys2Proof.Claims.PhaserTurn : Prop :=
  ∀ p, phGen (phTurn p) = (phGen p + 1) % 16 ∧ phPend (phTurn p) = phSreg p ∧ phSreg (phTurn p) = phSreg p ∧
    phWreg (phTurn p) = phWreg p ∧ phInb (phTurn p) = phInb p ∧ phOutb (phTurn p) = phOutb p ∧ phTs (phTurn p) = phTs p

/-- R170 to R176, R180: the phaser words and what an operation does to a phaser's counts. -/
def Obligations.PhaserOperations : Prop :=
  Sys2Proof.Claims.PhaserWords ∧ Sys2Proof.Claims.PhaserCounts ∧ Sys2Proof.Claims.PhaserTurn

/-- R177, R176: PHWAIT on a team phaser completes at once as an acquire where GEN differs, and else its path waits; PHTEST delivers
bits [25:0]. -/
def Sys2Proof.Claims.PhaserWaits : Prop :=
  ∀ w s c t, Issuing s w.h c → TeamPhaser s c w t →
    let n := phaserNumber s c w
    let key := phaserKey s t n
    let p := sramPhaser s key
    (2 ≤ heldOf c.g n → phGen p ≠ sopd s c w.data 1 % 16 → ∃ u g, Goes (.phwait w) s u c w.h ∧ NoNewWait u c ∧
      u.group c.k = some g ∧ ((phTs p).ep = c.g.gts.ep → c.g.gts.ep = newEpoch s → g.gts = ⟨max c.g.gts.v (phTs p).v, c.g.gts.ep⟩)) ∧
    (2 ≤ heldOf c.g n → phGen p = sopd s c w.data 1 % 16 → ∃ u, Goes (.phwait w) s u c w.h ∧ NewWait u c (.phaser false key none)) ∧
    (heldOf c.g n < 2 → ∃ u, Answers (.phwait w) s u ∧ Trapped u c 0x0D 4 n c.pc ∧ SameValues s u c) ∧
    ∃ u, Goes (.phtest w) s u c w.h ∧ Gives u s c (destOf s c w.data 1) fun _ => bits p 25 0

/-- R182, R183, R326: the stage rings. -/
def Sys2Proof.Claims.StageRings : Prop :=
  ∀ w s c t, Issuing s w.h c → SyncReady s c w {} true false → Idle s c t →
    let a := sopd s c w.a 1
    let b := sopd s c w.b 1
    let d := sopd s c w.c 1
    let free := (upTo (frameCount (s.coreAt t.core) t.part)).find? fun f =>
      (!s.work.teams.any fun e => e.2.core == t.core && e.2.part == t.part && e.2.frames.contains f) &&
        roleOf (s.coreAt t.core) (fifoBase (s.coreAt t.core) t.part + (64 + 2 * f) / 128) == .fifo
    let own := fun (f : Nat) => ∀ j, j < 2 → fifoAlien s t.core (frameKey s t f % 2 ^ 20 / 256 + j) t.did = none
    let bad := bits b 13 4 = 0 ∨ bits b 23 14 = 0 ∨ d < 1 ∨ 4096 < d ∨ a % 256 ≠ 0 ∨ bits b 3 2 ≠ 0 ∨ bits b 31 24 ≠ 0 ∨
      padExtent s c.g < a + 2 ^ bits b 1 0 * d * 256
    let written := fun (u : State) (v : Nat) => ∀ l, l < 32 → regAt u c w.d 1 l =
      if (if w.d.isS then c.act ≠ 0#32 else w.d.isV = true ∧ inMask c.act l = true) then BitVec.ofNat 64 (v % 2 ^ 32) else regAt s c w.d 1 l
    ((free = none ∨ bad) → ∃ u, Goes (.ringacqNew w) s u c w.h ∧ written u 0xFFFFFFFF ∧ u.core.sram = s.core.sram ∧ u.work.teams = s.work.teams) ∧
    (∀ f, free = some f → ¬ bad → s.team c.g.team = some t → ∃ u, Goes (.ringacqNew w) s u c w.h ∧ written u f ∧
      (u.team c.g.team).map (·.frames) = some (f :: t.frames) ∧ ringHeader u t f = b + a * 2 ^ 32 + d * 2 ^ 64 ∧
      ∀ k, k < 2 ^ bits b 1 0 →
        phSreg (sramPhaser u (frameKey s t f + 16 + 32 * k)) = bits b 13 4 ∧ phPend (sramPhaser u (frameKey s t f + 16 + 32 * k)) = bits b 13 4 ∧
        phSreg (sramPhaser u (frameKey s t f + 32 + 32 * k)) = bits b 23 14) ∧
    (t.frames.contains a = false →
      (∃ u, Answers (.ringacqP w) s u ∧ Trapped u c 0x0D 1 a c.pc) ∧ (∃ u, Answers (.ringacqC w) s u ∧ Trapped u c 0x0D 1 a c.pc) ∧
      (∃ u, Answers (.ringrelP w) s u ∧ Trapped u c 0x0D 1 a c.pc) ∧ (∃ u, Answers (.ringrelC w) s u ∧ Trapped u c 0x0D 1 a c.pc) ∧
      ∃ u, Answers (.ringrelEnd w) s u ∧ Trapped u c 0x0D 1 a c.pc) ∧
    (t.frames.contains a = true → own a →
      let n := ringSlots (ringHeader s t a)
      let full := frameKey s t a + 16 + 32 * (b % n)
      let slot := bits (ringHeader s t a) 63 32 + b % n * (bits (ringHeader s t a) 76 64 * 256)
      let arrive : Int → PhOp := fun x => { inb := x, pend := -1, ts := some c.g.gts }
      (∃ u, Goes (.ringacqP w) s u c w.h ∧ written u slot ∧
        (phGen (sramPhaser s (full + 16)) % 2 = b / n % 2 → NoNewWait u c) ∧
        (phGen (sramPhaser s (full + 16)) % 2 ≠ b / n % 2 → NewWait u c (.phaser false (full + 16) (some (b / n % 2 == 1))))) ∧
      (∃ u, Goes (.ringacqC w) s u c w.h ∧ written u slot ∧
        (phGen (sramPhaser s full) % 2 = (b / n + 1) % 2 → NoNewWait u c) ∧
        (phGen (sramPhaser s full) % 2 ≠ (b / n + 1) % 2 → NewWait u c (.phaser false full (some ((b / n + 1) % 2 == 1))))) ∧
      (2 ^ 23 ≤ d → ∃ u, Answers (.ringrelP w) s u ∧ Trapped u c 0x0D 6 a c.pc) ∧
      (∀ q, d < 2 ^ 23 → phApply (sramPhaser s full) (newEpoch s) (arrive d) = .ok q → ∃ u, Goes (.ringrelP w) s u c w.h ∧
        ∀ x, memByte u.core.sram x = memByte (memPut s.core.sram full (leOf 16 (afterPhase (arrive d) q))) x) ∧
      (∀ q, phApply (sramPhaser s (full + 16)) (newEpoch s) (arrive 0) = .ok q → ∃ u, Goes (.ringrelC w) s u c w.h ∧
        ∀ x, memByte u.core.sram x = memByte (memPut s.core.sram (full + 16) (leOf 16 (afterPhase (arrive 0) q))) x) ∧
      (s.team c.g.team = some t → ∃ u, Goes (.ringrelEnd w) s u c w.h ∧
        (u.team c.g.team).map (·.frames) = some (t.frames.filter (· != a)) ∧ u.core.sram = s.core.sram))

/-- R176, R177, R182, R183, R326: waits and tests on a phaser, and the stage rings. -/
def Obligations.PhaserAndRingWaits : Prop :=
  Sys2Proof.Claims.PhaserWaits ∧ Sys2Proof.Claims.StageRings

/-- R186, R189, R190: RSBEG and RSEND count the depth of each active lane and trap at its ends; GPSTART takes the next ticket; GPWAIT
waits for the tickets that are not complete, and traps in a section or for a ticket never issued; GPPOLL tells which are complete. -/
def Obligations.Sections : Prop :=
  ∀ w s c t, Issuing s w.h c → SyncReady s c w {} false false → Idle s c t →
    let cur := (s.dom (s.didOf c.g)).cur
    let at' := fun l => c.g.depth.getD l 0
    let deep := ∃ l, ActiveIn c l ∧ at' l ≠ 0
    ((∀ l, ActiveIn c l → at' l ≠ 15) → ∃ u g, Goes (.rsbeg w) s u c w.h ∧ u.group c.k = some g ∧
      ∀ l, l < 32 → g.depth.getD l 0 = if inMask c.act l then at' l + 1 else at' l) ∧
    ((∃ l, ActiveIn c l ∧ at' l = 15) → ∃ u x, Answers (.rsbeg w) s u ∧ Trapped u c 0x0C 1 x c.pc) ∧
    ((∀ l, ActiveIn c l → at' l ≠ 0) → ∃ u g, Goes (.rsend w) s u c w.h ∧ u.group c.k = some g ∧
      ∀ l, l < 32 → g.depth.getD l 0 = if inMask c.act l then at' l - 1 else at' l) ∧
    ((∃ l, ActiveIn c l ∧ at' l = 0) → ∃ u x, Answers (.rsend w) s u ∧ Trapped u c 0x0C 2 x c.pc) ∧
    (∃ u, Goes (.gpstart w) s u c w.h ∧ Gives u s c (destOf s c w.d 1) (fun _ => cur.next) ∧
      (u.dom (s.didOf c.g)).cur.next = if (cur.next + 1) % 2 ^ 32 = 0 then 1 else (cur.next + 1) % 2 ^ 32) ∧
    (deep → ∃ u x, Answers (.gpwait w) s u ∧ Trapped u c 0x0C 4 x c.pc) ∧
    (¬ deep → (∀ l, ActiveIn c l → issued cur (ticketAt s c w l) = true) →
      ∃ u, Goes (.gpwait w) s u c w.h ∧ ∀ l, ActiveIn c l → ticketDone cur (ticketAt s c w l) = false →
        NewWait u c (.ticket (s.didOf c.g) (ticketAt s c w l))) ∧
    (¬ deep → (∀ l, ActiveIn c l → issued cur (ticketAt s c w l) = true ∧ ticketDone cur (ticketAt s c w l) = true) →
      ∃ u, Goes (.gpwait w) s u c w.h ∧ NoNewWait u c) ∧
    ((∀ l, ActiveIn c l → issued cur (ticketAt s c w l) = true) → ∃ u, Goes (.gppoll w) s u c w.h ∧
      Gives u s c (destOf s c w.d 1) fun l => if ticketDone cur (ticketAt s c w l) then 1 else 0) ∧
    ((∃ l, ActiveIn c l ∧ issued cur (ticketAt s c w l) = false) →
      (∃ u x, Answers (.gppoll w) s u ∧ Trapped u c 0x0C 5 x c.pc) ∧ (¬ deep → ∃ u x, Answers (.gpwait w) s u ∧ Trapped u c 0x0C 5 x c.pc))

/-- R195, R196: DACC ends as the ring's state says and enters its entry at TAIL; DFPOP takes the entry at HEAD where it is ripe, and else
delivers zeros. -/
def Sys2Proof.Claims.Deaccession : Prop :=
  (∀ w s c t v u, Issuing s w.h c → SyncReady s c w ⟨1, 2, 1, 1⟩ false false → Idle s c t →
    dacc (sending s c w.d 1 false) (s.didOf c.g) (sopd s c w.a 2 % 2 ^ 57) (sopd s c w.b 1) (sopd s c w.c 1) c.g.gts = .status v u →
    ∃ x, Goes (.dacc w) s x c w.h ∧ (x.dom (s.didOf c.g)).cur = (u.dom (s.didOf c.g)).cur ∧
      ∃ g, x.group c.k = some g ∧ ∃ r ∈ g.results, r.done = true ∧ r.vals = [(32, v)]) ∧
  (∀ s did a l k f, (s.dom did).cur.v = false → dacc s did a l k f = .status 1 s) ∧
  (∀ s did a l k f v u, dacc s did a l k f = .status v u → v ≠ 0 → (u.dom did).cur = (s.dom did).cur) ∧
  ∀ w s c t, Issuing s w.h c → SyncReady s c w ⟨4, 1, 1, 1⟩ false false → Idle s c t →
    let cur := (s.dom (s.didOf c.g)).cur
    (cur.head = cur.ripe → ∃ u, Goes (.dfpop w) s u c w.h ∧ Gives u s c (destOf s c w.d 4) (fun _ => 0) ∧ (u.dom (s.didOf c.g)).cur = cur) ∧
    ∀ e r, cur.head ≠ cur.ripe → cur.entries = e :: r → ∃ u, Goes (.dfpop w) s u c w.h ∧
      Gives u s c (destOf s c w.d 4) (fun _ => e.1 + e.2.1 * 2 ^ 64) ∧
      (u.dom (s.didOf c.g)).cur.head = (cur.head + 1) % 2 ^ 32 ∧ (u.dom (s.didOf c.g)).cur.entries = r

/-- R329 to R331, R163 to R165: MSEND sends its payload or ends with a status; MRECV takes a kept message, posts a receive, or ends with
a status; MPROBE and MCANCEL answer at once. -/
def Obligations.Messages : Prop :=
  (∀ w s c t, Issuing s w.h c → SyncReady s c w ⟨1, 2, 1, 1⟩ false true → Idle s c t →
    let dst := sopd s c w.a 2 % 2 ^ 32
    let w1 := sopd s c w.a 2 / 2 ^ 32
    let off := sopd s c w.b 1
    let len := sopd s c w.c 1
    (¬ Fits s c off len → ∃ u, Answers (.msend w) s u ∧ Trapped u c 0x0A 0 off c.pc) ∧
    (∀ v, Fits s c off len → msendRefusal s t dst w1 len = some v →
      ∃ u, Goes (.msend w) s u c w.h ∧ Gives u s c (destOf s c w.d 1) (fun _ => v) ∧ u.fly.msgs = s.fly.msgs) ∧
    (Fits s c off len → msendRefusal s t dst w1 len = none → blockHere s t off len = true →
      ∃ u i m, Goes (.msend w) s u c w.h ∧ Owes u s c (destOf s c w.d 1) ∧ tget u.fly.msgs i = some m ∧ m.steam = t.id ∧
        m.tag = bits w1 31 16 ∧ m.data = padBytes s t off len ∧ m.gts = c.g.gts ∧ m.did = t.did ∧
        m.link = if bits w1 3 0 = 0 then none else some (bits w1 3 0 - 1))) ∧
  (∀ w s c t, Issuing s w.h c → SyncReady s c w ⟨1, 4, 1, 1⟩ false false → Idle s c t →
    let m := sopd s c w.a 4
    let off := sopd s c w.b 1
    let ctl := sopd s c w.c 1
    let len := bits ctl 8 0
    let bad := len < 1 ∨ 256 < len ∨ bits ctl 15 9 ≠ 0 ∨ bits ctl 31 20 ≠ 0 ∨ bits m 79 72 ≠ 0 ∨ bits m 127 112 ≠ 0
    let kept := ((tget (s.coreAt t.core).ovf t.part).getD []).filter fun o => o.dteam == c.g.team && o.bound.isNone
    let slot := (upTo 128).find? fun i => !(s.coreAt t.core).recvs.any (·.idx == i)
    let gcnt := ((partEntry (s.coreAt t.core) t.part).map fun e => bits e.1 49 43).getD 0
    let mine := (s.coreAt t.core).recvs.filter fun x => ((s.team x.team).map (·.part)) == some t.part
    (¬ Fits s c off len → ∃ u, Answers (.mrecv w) s u ∧ Trapped u c 0x0A 0 off c.pc) ∧
    (Fits s c off len → bad → ∃ u, Goes (.mrecv w) s u c w.h ∧ Gives u s c (destOf s c w.d 1) fun _ => 6) ∧
    (Fits s c off len → ¬ bad → 0xFFF0 ≤ bits m 95 80 → ∃ u, Goes (.mrecv w) s u c w.h ∧ Gives u s c (destOf s c w.d 1) fun _ => 2) ∧
    (Fits s c off len → ¬ bad → bits m 95 80 < 0xFFF0 → teamPhasers s t ≤ bits ctl 19 16 →
      ∃ u, Answers (.mrecv w) s u ∧ Trapped u c 0x0D 1 (bits ctl 19 16) c.pc) ∧
    (Fits s c off len → ¬ bad → bits m 95 80 < 0xFFF0 → bits ctl 19 16 < teamPhasers s t →
      (∀ o, kept.head? = some o → recvMatches (bits m 31 0) (bits m 63 32) (bits m 95 64) (bits m 127 96) o.steam o.slink o.tag = true →
        o.data.length ≤ len → ∃ u, Goes (.mrecv w) s u c w.h ∧ Gives u s c (destOf s c w.d 1) fun _ => 7) ∧
      (∀ i, kept = [] → slot = some i → mine.length < 2 * gcnt →
        ∃ u r, Goes (.mrecv w) s u c w.h ∧ Gives u s c (destOf s c w.d 1) (fun _ => i * 2 ^ 16) ∧ r ∈ (u.coreAt t.core).recvs ∧ r.idx = i ∧
          r.team = c.g.team ∧ r.buf = off ∧ r.len = len ∧ r.phaser = bits ctl 19 16) ∧
      (kept = [] → (slot = none ∨ 2 * gcnt ≤ mine.length) → ∃ u, Goes (.mrecv w) s u c w.h ∧ Gives u s c (destOf s c w.d 1) fun _ => 8))) ∧
  (∀ w s c t, Issuing s w.h c → SyncReady s c w ⟨4, 4, 1, 1⟩ false false → Idle s c t →
    let m := sopd s c w.a 4
    let o := ((tget (s.coreAt t.core).ovf t.part).getD []).find? fun o => o.dteam == c.g.team && o.bound.isNone &&
      recvMatches (bits m 31 0) (bits m 63 32) (bits m 95 64) (bits m 127 96) o.steam o.slink o.tag
    ∃ u, Goes (.mprobe w) s u c w.h ∧ Gives u s c (destOf s c w.d 4) fun _ => match o with
      | some o => o.steam % 2 ^ 32 + (o.slink % 16 + o.tag % 2 ^ 16 * 2 ^ 16) * 2 ^ 32 + o.data.length * 2 ^ 64 + 2 ^ 96
      | none => 0) ∧
  ∀ w s c t, Issuing s w.h c → SyncReady s c w {} false false → Idle s c t →
    let h := sopd s c w.a 1
    let held := ((tget (s.coreAt t.core).ovf t.part).getD []).any fun o => o.bound == some h && o.dteam == c.g.team
    let mine := (s.coreAt t.core).recvs.any fun r => r.idx == h && r.team == c.g.team
    ∃ u, Goes (.mcancel w) s u c w.h ∧ Gives u s c (destOf s c w.d 1) (fun _ => if mine && !held then 0 else 9) ∧
      (u.coreAt t.core).recvs = if mine && !held then (s.coreAt t.core).recvs.filter (·.idx != h) else (s.coreAt t.core).recvs

/-- R24, R332 to R335: GCALL enters the inbox of the gate's domain or ends with the check's status; GWAIT waits, takes a call, or writes
a header of length 0 where a call is held; GRET answers the call that its group holds. -/
def Obligations.Gates : Prop :=
  (∀ w s c t, Issuing s w.h c → SyncReady s c w ⟨1, 1, 1, 2⟩ false true → Idle s c t →
    let gt := sopd s c w.a 1
    let arg := sopd s c w.b 1
    let size := sopd s c w.c 2 % 2 ^ 32
    let rep := sopd s c w.c 2 / 2 ^ 32
    let did := s.didOf c.g
    let entry := gateEntry s did (bits gt 7 0)
    (¬ Fits s c arg size → ∃ u, Answers (.gcall w) s u ∧ Trapped u c 0x0A 0 arg c.pc) ∧
    (Fits s c arg size → ¬ Fits s c rep 256 → ∃ u, Answers (.gcall w) s u ∧ Trapped u c 0x0A 0 rep c.pc) ∧
    (∀ v, Fits s c arg size → Fits s c rep 256 → gateRefusal s did (bits gt 7 0) entry (bits gt 31 16) size = some v →
      ∃ u, Goes (.gcall w) s u c w.h ∧ Gives u s c (destOf s c w.d 1) fun _ => v) ∧
    (Fits s c arg size → Fits s c rep 256 → gateRefusal s did (bits gt 7 0) entry (bits gt 31 16) size = none →
      ∃ u x, Goes (.gcall w) s u c w.h ∧ Owes u s c (destOf s c w.d 1) ∧ x ∈ (u.dom (bits entry 15 8)).inbox ∧ x.caller = c.k ∧
        x.cdid = did ∧ x.gate = bits gt 7 0 ∧ x.tag = bits gt 31 16 ∧ x.size = size ∧ x.argOff = arg ∧ x.repOff = rep ∧
        x.maxarg = bits entry 63 48 ∧ x.gts = c.g.gts)) ∧
  (∀ w s c t, Issuing s w.h c → SyncReady s c w {} false false → Idle s c t →
    let sel := sopd s c w.a 1
    let buf := sopd s c w.b 1
    let did := s.didOf c.g
    (¬ Fits s c buf 272 → ∃ u, Answers (.gwait w) s u ∧ Trapped u c 0x0A 0 buf c.pc) ∧
    (Fits s c buf 272 → c.g.call.isSome = true → ∃ u, Goes (.gwait w) s u c w.h ∧ NoNewWait u c ∧
      ∀ x, memByte u.core.sram x = memByte (memPut s.core.sram (padKey t buf) (List.replicate 16 0#8)) x) ∧
    (Fits s c buf 272 → c.g.call = none → c.g.st = .issuing → gateWaits s did = [] →
      (∀ x ∈ waitingCalls s did, tagMatches x.tag (bits sel 15 0) (bits sel 31 16) = false) →
      ∃ u o, Goes (.gwait w) s u c w.h ∧ NewWait u c (.gate o (bits sel 15 0) (bits sel 31 16) buf)) ∧
    (∀ x ct, Fits s c buf 272 → c.g.call = none → c.g.st = .issuing → gateWaits s did = [] →
      (waitingCalls s did).find? (fun x => tagMatches x.tag (bits sel 15 0) (bits sel 31 16)) = some x →
      (s.group x.caller).bind s.teamOf = some ct →
      ∃ u g, Goes (.gwait w) s u c w.h ∧ NoNewWait u c ∧ u.group c.k = some g ∧ g.call = some x.id ∧
        ∀ a, memByte u.core.sram a = memByte (memPut s.core.sram (padKey t buf)
          (gateHeader x.size x.tag x.cdid x.gate ++ padBytes s ct x.argOff x.size)) a)) ∧
  ∀ w s c t, Issuing s w.h c → SyncReady s c w {} false false → Idle s c t →
    let off := sopd s c w.a 1
    let len := sopd s c w.b 1
    let held := c.g.call.bind fun id => findCall s id
    (¬ Fits s c off len → ∃ u, Answers (.gret w) s u ∧ Trapped u c 0x0A 0 off c.pc) ∧
    (Fits s c off len → blockHere s t off len = true →
      (held = none → ∃ u, Goes (.gret w) s u c w.h ∧ Gives u s c (destOf s c w.d 1) fun _ => 8) ∧
      (∀ d x, held = some (d, x) → x.gone = true → ∃ u, Goes (.gret w) s u c w.h ∧ Gives u s c (destOf s c w.d 1) fun _ => 7) ∧
      (∀ d x, held = some (d, x) → x.gone = false → (len < 1 ∨ x.maxarg < len) →
        ∃ u, Goes (.gret w) s u c w.h ∧ Gives u s c (destOf s c w.d 1) fun _ => 3) ∧
      ∀ d x, held = some (d, x) → x.gone = false → 1 ≤ len → len ≤ x.maxarg → x.caller ≠ c.k →
        ∃ u, Goes (.gret w) s u c w.h ∧ Gives u s c (destOf s c w.d 1) fun _ => 0)

/-- R344, R350, R35: MWAIT delivers the status words of handles that are not outstanding and else waits; LAUNCH ends with the status of
its refusal or enters its record; LQUERY reads a queue. -/
def Obligations.Launches : Prop :=
  (∀ w s c t, Issuing s w.h c → SyncReady s c w {} true false → Idle s c t →
    let h := fun l => ticketAt s c w l % 65536
    ((∀ l, ActiveIn c l → handleOut s c.g.team (h l) = false) → ∃ u, Goes (.mwait w) s u c w.h ∧
      Gives u s c (destOf s c w.d 1) fun l => handleStatus t (h l)) ∧
    ((∃ l, ActiveIn c l ∧ handleOut s c.g.team (h l) = true) → ∃ u, Goes (.mwait w) s u c w.h ∧ Owes u s c (destOf s c w.d 1))) ∧
  (∀ w s c t, Issuing s w.h c → SyncReady s c w {} false false → Idle s c t →
    let off := sopd s c w.a 1
    let q := sopd s c w.b 1
    (off % 16 ≠ 0 → ∃ u, Answers (.launch w) s u ∧ Trapped u c 0x09 0 off c.pc) ∧
    (off % 16 = 0 → ¬ Fits s c off 256 → ∃ u, Answers (.launch w) s u ∧ Trapped u c 0x0A 0 off c.pc) ∧
    (off % 16 = 0 → Fits s c off 256 → blockHere s t off 256 = false → ∃ u, Goes (.launch w) s u c w.h ∧ Owes u s c (destOf s c w.d 1)) ∧
    (∀ v, off % 16 = 0 → Fits s c off 256 → blockHere s t off 256 = true → launchRefusal s (s.didOf c.g) q = some v →
      ∃ u, Goes (.launch w) s u c w.h ∧ Gives u s c (destOf s c w.d 1) (fun _ => v) ∧ u.adm.queues = s.adm.queues) ∧
    (∀ e pa s1 b d s2, off % 16 = 0 → Fits s c off 256 → blockHere s t off 256 = true → launchRefusal s (s.didOf c.g) q = none →
      translateDie0 (sending s c w.d 1 false) (s.didOf c.g)
        ((s.queue (s.didOf c.g) q).base + 256 * ((s.queue (s.didOf c.g) q).tail % 2 ^ ((s.queue (s.didOf c.g) q).order + 4))) 2 = .ok e pa s1 →
      unitAccess s1 e pa ((s.queue (s.didOf c.g) q).base + 256 * ((s.queue (s.didOf c.g) q).tail % 2 ^ ((s.queue (s.didOf c.g) q).order + 4)))
        256 c.g.gts (some (padBytes s t off 256)) = .done b d s2 →
      ∃ u, Goes (.launch w) s u c w.h ∧
        (u.queue (s.didOf c.g) q).tail = ((s2.queue (s.didOf c.g) q).tail + 1) % 65536 ∧
        (u.queue (s.didOf c.g) q).outst = (s2.queue (s.didOf c.g) q).outst + 1 ∧ u.mem = s2.mem)) ∧
  ∀ w s c, Issuing s w.h c → SyncReady s c w ⟨2, 1, 1, 1⟩ false false →
    ∃ u, Goes (.lquery w) s u c w.h ∧ Gives u s c (destOf s c w.d 2) fun _ => launchQuery s (s.didOf c.g) (sopd s c w.a 1)

/-- R320, R87, R64, R66: the synchronisation words, VIEW, CLKRD and SCRUB trap for what the sequencer may not issue, for registers out of
range, and a collective for its mask; with no active lane they pass. -/
def Obligations.SyncTraps : Prop :=
  ∀ e ∈ syncShapes, ∀ w s c, Issuing s w.h c →
    let ns := vregsOf w.d e.2.2.1.d ++ readsR w e.2.2.1
    (c.g.isSeq = true → (e.2.2.2.1 = false ∨ ns ≠ []) → ∃ t, Answers (e.1 w) s t ∧ Trapped t c 0x06 0 e.2.1 c.pc ∧ SameValues s t c) ∧
    (c.g.isSeq = false → ∀ n, ns.find? (fun n => (teamRow s c.g n).isNone) = some n →
      ∃ t, Answers (e.1 w) s t ∧ Trapped t c 0x08 0 n c.pc ∧ SameValues s t c) ∧
    ((c.g.isSeq = true → e.2.2.2.1 = true) → Named s c ns → c.act = 0#32 → Passed (e.1 w) s c w.h) ∧
    (e.2.2.2.2 = true → c.g.isSeq = false → Named s c ns → c.act ≠ 0#32 → ¬ (c.r.gang = c.g.live ∧ c.act = c.r.gang) →
      ∃ t, Answers (e.1 w) s t ∧ Trapped t c 0x04 0 c.r.gang.toNat c.pc ∧ SameValues s t c)

/-- The frame of the synchronisation words, VIEW, CLKRD and SCRUB, where no other unit's result or update falls due with them: flags,
predicates and registers are as they were when the word has issued, but for the destination of the ring words and CLKRD. Section,
probe and query words change no byte of memory either. (MRECV and GRET may deliver to another group: of those only s-registers.) -/
def Obligations.SyncFrame : Prop :=
  (∀ e ∈ syncShapes, ∀ w s t c, Issuing s w.h c → NoneOwed s → s.fly.upds = [] → Answers (e.1 w) s t →
    (∀ x, x ∉ destSregKeys c w.d e.2.2.1.d → tget t.core.sregs x = tget s.core.sregs x) ∧
    (e.2.1 ≠ 0xA6 → e.2.1 ≠ 0xD3 → t.core.sregs = s.core.sregs) ∧
    (e.2.1 ≠ 0xB1 → e.2.1 ≠ 0xB6 →
      (∀ x, x ∉ destRowKeys s c w.d e.2.2.1.d → tget t.core.rows x = tget s.core.rows x) ∧
      (e.2.1 ≠ 0xA6 → e.2.1 ≠ 0xD3 → t.core.rows = s.core.rows)) ∧
    ∀ g, t.group c.k = some g → g.flags = c.g.flags ∧ g.preds = c.g.preds) ∧
  (∀ w s t c, Issuing s w.h c → NoneOwed s → s.fly.upds = [] →
    Answers (.phreg w) s t ∨ Answers (.phdrop w) s t ∨ Answers (.pharr w) s t ∨ Answers (.phwait w) s t ∨ Answers (.phexp w) s t ∨
      Answers (.phtest w) s t →
    t.core.rows = s.core.rows ∧ t.core.sregs = s.core.sregs ∧ ∀ g, t.group c.k = some g → g.flags = c.g.flags ∧ g.preds = c.g.preds) ∧
  ∀ w s t c, Issuing s w.h c →
    Answers (.rsbeg w) s t ∨ Answers (.rsend w) s t ∨ Answers (.mprobe w) s t ∨ Answers (.mcancel w) s t ∨ Answers (.lquery w) s t ∨
      Answers (.gpwait w) s t →
    t.mem = s.mem ∧ t.core.sram = s.core.sram ∧ t.fly = s.fly ∧ SameAdmin s t ∧ t.work.teams = s.work.teams ∧ ∀ k, k ≠ c.k → t.group k = s.group k

/-! ## System and engine words -/

/-- R351, R352, R232, R353, R211: RDSR reads each special register as it stands, WRSR writes bits [6:0] of %flags in the active lanes,
CLKRD counts arithmetic cycles, and CNTRD delivers a counter. -/
def Sys2Proof.Claims.SpecialRegisters : Prop :=
  (∀ (w : IWord) s c t r, Issuing s w.h c → Ready s c (asR w) ⟨srRegs (w.imm.toNat % 2 ^ 12), 1, 1, 1⟩ true → w.a = .none →
    s.teamOf c.g = some t → s.launchOf t = some r →
    ∃ u, Goes (.rdsr w) s u c w.h ∧ Written s u c w.d (srRegs (w.imm.toNat % 2 ^ 12)) (srValue s c.g t r (w.imm.toNat % 2 ^ 12)) ∧
      OnlyDest s u c w.d (srRegs (w.imm.toNat % 2 ^ 12))) ∧
  (∀ (w : IWord) s c, Issuing s w.h c → Ready s c (asR w) {} false → w.d = .none →
    ∃ u g, Goes (.wrsr w) s u c w.h ∧ u.group c.k = some g ∧ RegFrame s u c .none 1 id ∧
      ∀ l, l < 32 → g.flags.getD l 0#8 =
        if inMask c.act l then (lo32 (regAt s c w.a 1 l)).setWidth 8 &&& 0x7F#8 else c.g.flags.getD l 0#8) ∧
  (∀ (w : RWord) s c, Issuing s w.h c → Ready s c w ⟨2, 1, 1, 1⟩ false →
    ∃ u, Goes (.clkrd w) s u c w.h ∧ Written s u c w.d 2 (fun _ => s.sys.clk) ∧ OnlyDest s u c w.d 2) ∧
  ∀ (w : IWord) s c, Issuing s w.h c → Ready s c (asR w) ⟨2, 1, 1, 1⟩ false → c.act ≠ 0#32 →
    let i := w.imm.toNat % 16
    let d := s.dom (s.didOf c.g)
    ∃ u, Goes (.cntrd w) s u c w.h ∧ RegFrame s u c .none 1 id ∧ Gives u s c (destOf s c w.d 2) fun _ =>
      if (5 ≤ i ∧ i ≤ 7) ∨ i = 15 then 0 else if d.satBits.getD i false then 2 ^ 64 - 1 else d.counters.getD i 0 % 2 ^ 63

/-- R354, R89: VIEW sets the window of the group, or traps and changes nothing. R358: SCRUB marks the rows it names and stays
outstanding, or traps. -/
def Sys2Proof.Claims.Views : Prop :=
  (∀ w s c r, Issuing s w.h c → SyncReady s c w {} false false → (s.teamOf c.g).bind s.launchOf = some r →
    let row := sopd s c w.a 1
    let base := sopd s c w.b 1
    let cnt := sopd s c w.c 1
    let total := groupCount r * sliceRows r.vregs + viewRows r.trows + viewRows r.arows
    (base + cnt ≤ r.vregs → row + cnt ≤ total → ∃ u g, Goes (.view w) s u c w.h ∧ u.group c.k = some g ∧
      g.wrow = row ∧ g.wbase = base ∧ g.wcount = cnt ∧
      RegFrame s u c .none 1 fun g => { g with wrow := 0, wbase := 0, wcount := 0 }) ∧
    (r.vregs < base + cnt → ∃ u, Answers (.view w) s u ∧ Trapped u c 0x0A 0 base c.pc ∧ RegFrame s u c .none 1 id) ∧
    (base + cnt ≤ r.vregs → total < row + cnt → ∃ u, Answers (.view w) s u ∧ Trapped u c 0x0A 0 row c.pc ∧ RegFrame s u c .none 1 id)) ∧
  ∀ w s c t, Issuing s w.h c → SyncReady s c w {} false false → s.teamOf c.g = some t →
    let off := sopd s c w.a 1
    let len := sopd s c w.b 1
    let bad := off % 256 ≠ 0 ∨ len % 256 ≠ 0 ∨ padExtent s c.g < off + len
    (bad → ∃ u, Answers (.scrub w) s u ∧ Trapped u c 0x0A 0 off c.pc ∧ u.core.sramTags = s.core.sramTags) ∧
    (¬ bad → ∃ u, Goes (.scrub w) s u c w.h ∧ u.core.sram = s.core.sram ∧ u.mem = s.mem ∧
      (∀ r, (u.srow t r).pend = (s.srow t r).pend ∧ (u.srow t r).owner = (s.srow t r).owner ∧
        (u.srow t r).scrub = ((s.srow t r).scrub || decide (off ≤ 256 * r ∧ 256 * r < off + len))) ∧
      (len = 0 → u.fly = s.fly) ∧
      (len ≠ 0 → ∃ i x, tget u.fly.scrubs i = some x ∧ x.team = c.g.team ∧ x.grp = c.k ∧ ∀ r, r ∈ x.rows ↔ off ≤ 256 * r ∧ 256 * r < off + len))

/-- R352 to R354 and the rest of 19: special registers, views, clocks and scrubs. -/
def Obligations.SystemWords : Prop :=
  Sys2Proof.Claims.SpecialRegisters ∧ Sys2Proof.Claims.Views

/-- R355, R356, R357, R93: SAVEF writes the frame of PREEMPT into k0 to k3; LOADF takes the frame they hold or leaves the group as it
is; BANKROLE ends at once with DONE, NOT_OWN or BUSY, or starts a scrub; all three trap outside their handlers. -/
def Obligations.HandlerWords : Prop :=
  (∀ (w : RWord) s c, Issuing s w.h c →
    (c.g.isSeq = true → ∃ u, Answers (.savef w) s u ∧ Trapped u c 0x06 0 0xD5 c.pc ∧ SameValues s u c) ∧
    (c.g.isSeq = false → (∀ h, c.g.handler = some h → h.trap.cause ≠ 0x15) →
      ∃ u, Answers (.savef w) s u ∧ Trapped u c 0x07 0 0xD5 c.pc ∧ SameValues s u c) ∧
    ∀ h, c.g.isSeq = false → c.g.handler = some h → h.trap.cause = 0x15 →
      (c.act = 0#32 → Passed (.savef w) s c w.h) ∧
      (c.act ≠ 0#32 → ∃ u, Goes (.savef w) s u c w.h ∧ u.core.sregs = s.core.sregs ∧ u.mem = s.mem ∧
        ∀ j r, j < 4 → teamRow s c.g (188 + j) = some r → (∀ i, i < 4 → i ≠ j → teamRow s c.g (188 + i) ≠ some r) →
          ∀ l, l < 32 → (u.teamRowVals c.g r).getD l 0#32 = BitVec.ofNat 32 (h.frame / 2 ^ (32 * (32 * j + l))))) ∧
  (∀ (w : RWord) s c, Issuing s w.h c → Ready s c w {} false →
    ((c.g.handler = none ∨ ∃ h, c.g.handler = some h ∧ h.trap.cause = 0x15) →
      ∃ u, Answers (.loadf w) s u ∧ Trapped u c 0x07 0 0xD6 c.pc ∧ SameValues s u c) ∧
    ∀ h, c.g.handler = some h → h.trap.cause ≠ 0x15 → c.act ≠ 0#32 →
      let f := readFrame s c.g
      let m := c.g.live &&& ~~~h.trap.mask
      (frameValid c.g.live f = false → ∃ u, Goes (.loadf w) s u c w.h ∧ Written s u c w.d 1 (fun _ => 1) ∧ OnlyDest s u c w.d 1) ∧
      (frameValid c.g.live f = true → ∃ u g x, Goes (.loadf w) s u c w.h ∧ Written s u c w.d 1 (fun _ => 0) ∧ u.group c.k = some g ∧
        g.handler = some x ∧ x.trap = h.trap ∧
        ∀ l, l < 32 → inMask m l = true →
          (∃ p ∈ x.held, inMask p.mask l = true ∧ p.pc = bits f (64 * bits f (2052 + 8 * l) (2048 + 8 * l) + 56)
              (64 * bits f (2052 + 8 * l) (2048 + 8 * l) + 3) * 8 ∧ p.waits = []) ∧
          g.flags.getD l 0#8 = BitVec.ofNat 8 (bits f (2694 + 8 * l) (2688 + 8 * l)) ∧
          ∀ j, 1 ≤ j → j ≤ 7 → g.pred j l = f.testBit (2432 + 8 * l + j))) ∧
  ∀ (w : RWord) s c t, Issuing s w.h c → Ready s c w {} false → s.teamOf c.g = some t →
    let bank := sopd s c w.a 1
    let role := w.m.toNat % 4
    let own := (partBanks (s.coreAt t.core) t.part).contains bank
    let now := roleOf (s.coreAt t.core) bank
    let ends : Nat → Prop := fun v => ∃ u, Goes (.bankrole w) s u c w.h ∧ Gives u s c (destOf s c w.d 1) (fun _ => v)
    let starts := ∃ u x, Goes (.bankrole w) s u c w.h ∧ Awaits u s c (destOf s c w.d 1) x ∧ x.done = false ∧ x.held = true ∧
      ∃ h, roleOf (u.coreAt t.core) bank = .scrub role h
    (c.g.handler = none → ∃ u, Answers (.bankrole w) s u ∧ Trapped u c 0x07 0 0xD7 c.pc ∧ SameValues s u c) ∧
    (c.g.handler ≠ none → c.act ≠ 0#32 →
      (own = false ∨ now = .sharedL1 → ends 1) ∧
      (own = true → (∃ n h, now = .scrub n h) → ends 2) ∧
      (own = true → (now = .partL1 ∧ role = 0) ∨ (now = .scratch ∧ role = 1) ∨ (now = .fifo ∧ role = 2) → ends 0) ∧
      (own = true → (now = .scratch ∧ role ≠ 1 ∧ bankHeld s t.core bank = true) ∨ (now = .fifo ∧ role ≠ 2 ∧ fifoUsed s t.core t.part bank = true) →
        ends 2) ∧
      (own = true → (now = .partL1 ∧ role ≠ 0) ∨ (now = .scratch ∧ role ≠ 1 ∧ bankHeld s t.core bank = false) ∨
        (now = .fifo ∧ role ≠ 2 ∧ fifoUsed s t.core t.part bank = false) → starts))

/-- R336 to R338, R344, R348: an engine command whose block is at hand ends with its refusal code, or is accepted with its team's next
handle; without its block it waits; a job needs the matrix sequencer and a copy or bank command a C group. -/
def Sys2Proof.Claims.EngineWords : Prop :=
  (∀ e ∈ commandRows, ∀ w s c t, Issuing s w.h c →
    ((c.g.isSeq = true ∨ c.g.roleC = false) → ∃ u, Answers (e.1 w) s u ∧ Trapped u c 0x06 0 e.2.1 c.pc ∧ SameValues s u c) ∧
    (c.g.roleC = true → SyncReady s c w {} false e.2.2 → Idle s c t → s.fly.cmds = [] → c.r.waits = [] →
      let off := sopd s c w.a 1
      let x := withBlock s c e.2.1 off 0 t 64
      let s1 := entering s c w.d e.2.1 off false 0 false
      (¬ Fits s c off 64 → ∃ u, Answers (e.1 w) s u ∧ Trapped u c 0x0A 0 off c.pc ∧ SameValues s u c) ∧
      (Fits s c off 64 → off % 64 ≠ 0 → ∃ u, Goes (e.1 w) s u c w.h ∧ Gives u s c (destOf s c w.d 1) fun _ => 1) ∧
      (Fits s c off 64 → off % 64 = 0 → blockHere s t off 64 = false → ∃ u, Goes (e.1 w) s u c w.h ∧ Owes u s c (destOf s c w.d 1)) ∧
      (∀ v, Fits s c off 64 → off % 64 = 0 → blockHere s t off 64 = true → cmdRefusal s1 x = some v →
        ∃ u, Goes (e.1 w) s u c w.h ∧ Gives u s c (destOf s c w.d 1) fun _ => v) ∧
      (Fits s c off 64 → off % 64 = 0 → blockHere s t off 64 = true → cmdRefusal s1 x = none → canRaise s1 (cmdRows s1 x) = true →
        ∃ u i y, Goes (e.1 w) s u c w.h ∧ Gives u s c (destOf s c w.d 1) (fun _ => (t.handle % 65535 + 1) * 2 ^ 16) ∧
          tget u.fly.cmds i = some y ∧ y.kind = e.2.1 ∧ y.phase = 4 ∧ y.blk = padBytes s t off 64 ∧ y.handle = t.handle % 65535 + 1 ∧
          y.grp = c.k ∧ y.cts = c.g.gts))) ∧
  ∀ w s c t, Issuing s w.h c →
    (c.g.isSeq = false → (∃ u, Answers (.mjob w) s u ∧ Trapped u c 0x06 0 0xBC c.pc ∧ SameValues s u c) ∧
      ∃ u, Answers (.mpair w) s u ∧ Trapped u c 0x06 0 0xBD c.pc ∧ SameValues s u c) ∧
    (c.g.isSeq = true → c.act = 0#32 → Passed (.mjob w) s c w.h ∧ Passed (.mpair w) s c w.h) ∧
    (c.g.isSeq = true → c.act ≠ 0#32 → w.m.toNat.testBit 0 = false → Idle s c t → s.fly.cmds = [] → c.r.waits = [] →
      let off := sopd s c w.a 1
      let x := withBlock s c 0xBC off 0 t 128
      let s1 := entering s c w.d 0xBC off false 0 false
      let y := withBlock s c 0xBD off (sopd s c w.b 1 % 65536) t 128
      let s2 := entering s c w.d 0xBD off false (sopd s c w.b 1 % 65536) true
      (¬ Fits s c off 128 → (∃ u, Answers (.mjob w) s u ∧ Trapped u c 0x0A 0 off c.pc ∧ SameValues s u c) ∧
        ∃ u, Answers (.mpair w) s u ∧ Trapped u c 0x0A 0 off c.pc ∧ SameValues s u c) ∧
      (Fits s c off 128 → off % 128 = 0 → blockHere s t off 128 = true →
        (∀ v, cmdRefusal s1 x = some v → ∃ u, Goes (.mjob w) s u c w.h ∧ Gives u s c (destOf s c w.d 1) fun _ => v) ∧
        (cmdRefusal s1 x = none → canRaise s1 (cmdRows s1 x) = true → ∃ u i z, Goes (.mjob w) s u c w.h ∧
          Gives u s c (destOf s c w.d 1) (fun _ => (t.handle % 65535 + 1) * 2 ^ 16) ∧ tget u.fly.cmds i = some z ∧ z.kind = 0xBC ∧
          z.phase = 4 ∧ z.blk = padBytes s t off 128) ∧
        (∀ v, cmdRefusal s2 y = some v → ∃ u, Goes (.mpair w) s u c w.h ∧ Gives u s c (destOf s c w.d 1) fun _ => v) ∧
        (cmdRefusal s2 y = none → ∃ u i z, Goes (.mpair w) s u c w.h ∧ Owes u s c (destOf s c w.d 1) ∧ tget u.fly.cmds i = some z ∧
          z.kind = 0xBD ∧ z.phase = 3 ∧ z.pairTag = sopd s c w.b 1 % 65536 ∧ z.t1 = s.sys.clk)))

/-- R349, R236: GMMA writes the 256 elements of its product over 8 registers, and its flags into every lane; an integer slot without
scales accumulates exact products with saturation; a slot that it does not take gives quiet NaNs and INVALID. -/
def Sys2Proof.Claims.GroupProduct : Prop :=
  (∀ w s c, Issuing s w.h c → Named s c (vregsOf w.d 8 ++ readsR w ⟨8, 4, 4, 8⟩) → c.g.isSeq = false → Clean s c (readsR w ⟨8, 4, 4, 8⟩) →
    Acts c true → (∀ n, w.d = .v n → ∀ i j, i < 8 → j < 8 → i ≠ j → teamRow s c.g (n + i) ≠ teamRow s c.g (n + j)) →
    let sl := slotOf (slotWord s c.g (w.m.toNat % 8))
    let regs := fun (o : Opd) (p : Pat) (n : Nat) => (upTo n).map fun j => opdWords s c o p w.k.toNat j
    let es := gmma sl (regs w.a w.pa (sl.fmt.width / 4)) (regs w.b w.pb (sl.fmt.width / 4)) (regs w.c w.pc 8)
    ∃ u g, Goes (.gmma w) s u c w.h ∧ u.group c.k = some g ∧ RegFrame s u c w.d 8 id ∧
      (∀ n, w.d = .v n → ∀ j l, j < 8 → l < 32 → regWord u c w.d j l = BitVec.ofNat 32 (es.getD (32 * j + l) (0, 0#8)).1) ∧
      ∀ l, l < 32 → g.flags.getD l 0#8 = c.g.flags.getD l 0#8 ||| es.foldl (fun f e => f ||| e.2) 0#8) ∧
  (∀ sl a b cs, gmmaTaken sl = false → gmma sl a b cs = List.replicate 256 (0x7FC00000, fINVALID)) ∧
  (∀ sl a b cc m n, sl.intPlain = true → (gmmaElem sl a b cc m n).1 =
    (BitVec.ofInt 32 (max (-(2 ^ 31)) (min (2 ^ 31 - 1) ((BitVec.ofNat 32 cc).toInt + ((upTo 16).map fun k =>
      sl.fmt.intVal (packedElem a sl.fmt.width (16 * m + k)) * sl.fmt.intVal (packedElem b sl.fmt.width (16 * n + k))).sum)))).toNat) ∧
  ∀ w s c, Issuing s w.h c → Named s c (vregsOf w.d 8 ++ readsR w ⟨8, 4, 4, 8⟩) → c.g.isSeq = false →
    (c.act = 0#32 → Passed (.gmma w) s c w.h) ∧
    (c.act ≠ 0#32 → ¬ (c.r.gang = c.g.live ∧ c.act = c.r.gang) →
      ∃ u, Answers (.gmma w) s u ∧ Trapped u c 0x04 0 c.r.gang.toNat c.pc ∧ SameValues s u c)

/-- R336 to R350: the words that give the engines commands. -/
def Obligations.EngineIssue : Prop :=
  Sys2Proof.Claims.EngineWords ∧ Sys2Proof.Claims.GroupProduct

/-- The frame of the handler words, BANKROLE and the engine commands. SAVEF changes the rows of k0 to k3 alone, LOADF its destination and
the predicates and flags of its lanes; BANKROLE and a command that its team alone has out change no register, flag, predicate or byte of
memory. -/
def Obligations.SystemFrame : Prop :=
  (∀ (w : RWord) s t c, Issuing s w.h c → Answers (.savef w) s t →
    SameDevice s t ∧ SameAdmin s t ∧ SameTeams s t ∧ SameGroups s t c id ∧ t.core.sregs = s.core.sregs ∧ t.core.sram = s.core.sram ∧
    ∀ x, (∀ n r, 188 ≤ n → n < 192 → teamRow s c.g n = some r → x ≠ s.coreOf c.g * 6144 + physRow s c.g r) →
      tget t.core.rows x = tget s.core.rows x) ∧
  (∀ (w : RWord) s t c, Issuing s w.h c → Answers (.loadf w) s t →
    SameDevice s t ∧ SameAdmin s t ∧ SameTeams s t ∧ SameRegs s t (destRowKeys s c w.d 1) (destSregKeys c w.d 1) ∧
    (∀ k, k ≠ c.k → t.group k = s.group k) ∧
    ∀ g l, t.group c.k = some g → l < 32 → (inMask c.g.live l = false ∨ ∃ h, c.g.handler = some h ∧ inMask h.trap.mask l = true) →
      g.flags.getD l 0#8 = c.g.flags.getD l 0#8 ∧ ∀ j, j ≤ 7 → g.pred j l = c.g.pred j l) ∧
  (∀ (w : RWord) s t c, Issuing s w.h c → Answers (.bankrole w) s t →
    t.mem = s.mem ∧ t.fly = s.fly ∧ SameAdmin s t ∧ t.work.teams = s.work.teams ∧ t.core.rows = s.core.rows ∧
    t.core.sregs = s.core.sregs ∧ t.core.sram = s.core.sram ∧ (∀ k, k ≠ c.k → t.group k = s.group k) ∧
    ∀ g, t.group c.k = some g → g.flags = c.g.flags ∧ g.preds = c.g.preds) ∧
  ∀ (w : RWord) s t c, Issuing s w.h c → s.fly.cmds = [] → s.fly.upds = [] → NoneOwed s →
    Answers (.copy w) s t ∨ Answers (.copyt w) s t ∨ Answers (.copym w) s t ∨ Answers (.bankop w) s t ∨
      (w.m.toNat.testBit 0 = false ∧ (Answers (.mjob w) s t ∨ Answers (.mpair w) s t)) →
    t.mem = s.mem ∧ t.core.rows = s.core.rows ∧ t.core.sregs = s.core.sregs ∧ t.core.sram = s.core.sram ∧ SameAdmin s t ∧
    (∀ k, k ≠ c.k → t.group k = s.group k) ∧ ∀ g, t.group c.k = some g → g.flags = c.g.flags ∧ g.preds = c.g.preds

/-! ## Events: commands of the host -/

/-- R383, R13, R22: the status of a command that is turned away: NOT_OWN where its function may not give it, BAD_STATE where the device
takes none or the domain is in a state that the command does not take; nothing else changes. -/
def Sys2Proof.Claims.CommandRefusals : Prop :=
  ∀ s h fn, s.ctl.ev = some h → giver h = some fn → s.sys.fkey = none →
    (64 < fn → Answers h.row s s) ∧
    (fn ≤ 64 → ¬ mayGive s h → Answers h.row s (setStatus s fn 4)) ∧
    (fn ≤ 64 → mayGive s h → (s.sys.up = false ∨ s.sys.fatal ≠ none) → Answers h.row s (setStatus s fn 1)) ∧
    ∀ did l, fn ≤ 64 → mayGive s h → s.sys.up = true → s.sys.fatal = none → statesFor h = some (did, l) → (s.dom did).st ∉ l →
      Answers h.row s (setStatus s fn 1)

/-- R22, R25, R29, R35, R74, R75: the life of a domain, from CREATE in FREE to its return to FREE at the end of RETIRING, and the
watchdog. -/
def Sys2Proof.Claims.DomainLife : Prop :=
  ∀ s fn did, fn ≤ 64 → s.sys.fatal = none →
    (∀ part root vector slot, MayShape fn part → part ≤ 63 → (domsOf s part).length < (s.part part).domLimit → did < 256 →
      (s.dom did).st = .free → (∀ d, d < did → (s.dom d).st ≠ .free) → slot < 256 → (∀ e ∈ domsOf s part, e.2.slot ≠ slot) →
      (∀ n, n < slot → ∃ e ∈ domsOf s part, e.2.slot = n) → root % 2 ^ 14 = 0 → root < 2 ^ 52 → vector < 2 ^ 57 →
      Leads .create (.create fn part root vector) s fun t =>
        tget t.sys.status fn = some 0 ∧ tget t.sys.reply fn = some did ∧ (t.dom did).st = .closed ∧ (t.dom did).part = part ∧
        (t.dom did).slot = slot ∧ (t.dom did).root = root ∧ (t.dom did).vector = vector ∧ (t.dom did).dgen = s.sys.dgen + 1 ∧
        (t.dom did).vclk = 0 ∧ (t.dom did).counters = List.replicate 16 0 ∧ (∀ d, d ≠ did → t.dom d = s.dom d) ∧ t.work = s.work ∧
        t.mem = s.mem ∧ t.fly = s.fly) ∧
    (MayName s fn did → (s.dom did).st = .closed → Leads .openDomain (.openDomain fn did) s fun t =>
      t.adm.doms = tset s.adm.doms did { s.dom did with st := .live } ∧
      (∀ q, q < 16 → t.queue did q = if (s.queue did q).st = .held then { s.queue did q with st := .waiting } else s.queue did q) ∧
      t.sys = (setStatus s fn 0).sys ∧ t.work = s.work ∧ t.core = s.core ∧ t.mem = s.mem ∧ t.fly = s.fly) ∧
    (MayName s fn did → (s.dom did).st = .live → (s.dom did).inbox = [] → Leads .closeDomain (.closeDomain fn did) s fun t =>
      (t.dom did = { s.dom did with st := if ∃ e ∈ s.work.grids, e.2.did = did ∧ e.2.done = false then .draining else .closed }) ∧
      (∀ q, q < 16 → t.queue did q = heldUp (s.queue did q)) ∧ t.sys = (setStatus s fn 0).sys ∧ t.work = s.work ∧ t.mem = s.mem) ∧
    (MayName s fn did → (s.dom did).st ∈ [.live, .draining, .stopped] → Still s → (s.dom did).inbox = [] →
      (∀ e ∈ s.work.groups, s.didOf e.2 = did → e.2.call = none ∧ e.2.outCall = none) → Leads .kill (.kill fn did) s fun t =>
        tget t.sys.status fn = some 0 ∧ (t.dom did).st = .killing ∧
        (∀ q, q < 16 → (t.queue did q).st = .off ∧ (t.queue did q).head = (t.queue did q).tail ∧ (t.queue did q).record = none) ∧
        ∀ k g, s.group k = some g → s.didOf g = did → g.st ≠ .empty → g.run = none → ∃ x, t.group k = some x ∧ x.st = .exited) ∧
    ((s.dom did).st = .killing → (∀ e ∈ s.work.groups, s.didOf e.2 = did → e.2.st = .exited ∨ e.2.st = .empty) → Still s →
      s.fly.scrubs = [] → (s.dom did).inbox = [] → Leads .killComplete (.killComplete did) s fun t =>
        (t.dom did).st = .closed ∧ (∀ k g, t.group k = some g → ∀ x, s.team g.team = some x → x.did ≠ did) ∧
        ∀ id g, s.grid id = some g → g.did = did → g.done = false →
          let d := s.dom did
          ((d.provV = false ∨ 3 ≤ g.stage) → t.grid id = none) ∧
          (d.provV = true → 2 ^ (d.provOrder + 4) ≤ (d.provTail + 2 ^ 32 - d.provHead) % 2 ^ 32 → g.stage < 3 →
            ∃ x, t.grid id = some x ∧ x.done = true ∧ x.stage = 2 ∧
              x.status = if g.stage = 0 then 1 else if g.launch.dn ∧ g.status = 0 then 2 else g.status)) ∧
    (∀ nonce addr, MayName s fn did → (s.dom did).st = .closed → addr % 64 = 0 → nonce < 2 ^ 128 →
      Leads .retire (.retire fn did nonce addr) s fun t =>
        tget t.sys.status fn = some 0 ∧ (t.dom did).st = .retiring ∧ ∃ x, (t.dom did).snaps = (s.dom did).snaps ++ [x] ∧ x.final = true ∧
          x.nonce = nonce ∧ x.addr = addr ∧ x.fn = fn) ∧
    ((s.dom did).st = .retiring → (s.dom did).snaps = [] → Leads .retireComplete (.retireComplete did) s fun t =>
      t.dom did = (s.dom did).retired ∧ t.sys.keys = tdel s.sys.keys did ∧ (∀ e ∈ t.core.rowTags, e.2.owner ≠ some did) ∧
      (∀ e ∈ t.core.sramTags, e.2.owner ≠ some did) ∧ (∀ e ∈ s.core.rowTags, e.2.owner = some did → tget t.core.rows e.1 = none) ∧
      (∀ e ∈ s.core.sramTags, e.2.owner = some did → ∀ a, a / 256 = e.1 → memByte t.core.sram a = 0#8) ∧
      (∀ q, q < 16 → t.queue did q = Queue.unwritten) ∧ t.mem = s.mem) ∧
    (MayName s fn did → (s.dom did).st ∈ [.live, .draining] → Leads .kick (.kick fn did) s fun t =>
      t = setStatus (s.setDom did { s.dom did with wcount := 0 }) fn 0) ∧
    Leads .watchdogExpiry (.watchdogExpiry did) s fun t =>
      let d := s.dom did
      let due := d.st ∈ [.live, .draining] ∧ d.wlimit ≠ 0 ∧ d.wlimit * 2 ^ 20 ≤ d.wcount
      (¬ due → t = s) ∧
      (due → (t.dom did).st = .stopped ∧ (t.dom did).stop = 1 ∧ t.sys.irqs = s.sys.irqs ++ [(d.part + 1, 1), (0, 1)] ∧
        ∀ k g, s.group k = some g → s.didOf g = did → g.st ∉ [.exited, .empty] →
          t.group k = some { g with st := .stopped })

/-- R22, R383: the commands of the domains, and the statuses of what is refused. -/
def Obligations.DomainCommands : Prop :=
  Sys2Proof.Claims.CommandRefusals ∧ Sys2Proof.Claims.DomainLife

/-- R14, R16, R69, R73, R19, R219: a commit writes the partition and its entry on each core of its set, and takes it from the others;
a weight-only commit changes the weight alone; the logs are cleared as written. -/
def Sys2Proof.Claims.Partitions : Prop :=
  ∀ s, s.sys.fatal = none →
    (∀ d, (descBadArg d = true → Leads .partitionCommit (.partitionCommit 0 d) s fun t => t = setStatus s 0 3) ∧
      (descBadArg d = false → descBadPart s d = true → Leads .partitionCommit (.partitionCommit 0 d) s fun t => t = setStatus s 0 2) ∧
      (descBadArg d = false → descBadPart s d = false → Leads .partitionCommit (.partitionCommit 0 d) s fun t =>
        let p := t.part d.part
        p.committed = true ∧ (∀ c, c ∈ p.cores ↔ c ∈ d.cores) ∧ p.domLimit = d.domLimit ∧ p.quota = d.quota ∧ p.lim0 = d.lim0 ∧
        p.lim1 = d.lim1 ∧ p.barb = [d.barb0, d.barb1, d.barb2] ∧ p.e = d.e ∧
        (∀ c, c ∈ d.cores → (t.coreAt c).deficits = [] ∧ (t.coreAt c).pointers = [] ∧
          tget (t.coreAt c).buckets d.part =
            some ⟨bits d.lim0.toNat 63 48 * 1024, bits d.lim0.toNat 31 16 * 1024, bits d.lim1.toNat 63 48 * 1024⟩ ∧
          ∃ w, tget (t.coreAt c).dpreg d.e = some (w, d.ent1) ∧ w.getLsbD 63 = true ∧ bits w.toNat 55 50 = d.part ∧
            bits w.toNat 49 0 = bits d.ent0.toNat 49 0) ∧
        (∀ c w, c < 192 → c ∉ d.cores → tget (s.coreAt c).dpreg d.e = some w → w.1.getLsbD 63 = true → bits w.1.toNat 55 50 = d.part →
          (t.coreAt c).dpreg = tdel (s.coreAt c).dpreg d.e) ∧
        t.work = s.work ∧ t.mem = s.mem ∧ t.fly = s.fly ∧ t.adm.doms = s.adm.doms)) ∧
    (∀ part weight, part ≤ 63 → (s.part part).committed = true → 1 ≤ weight → weight ≤ 64 →
      Leads .weightOnlyCommit (.weightOnlyCommit 0 part weight) s fun t =>
        let e := (s.part part).e
        (∀ c w, c ∈ (s.part part).cores → tget (s.coreAt c).dpreg e = some w →
          tget (t.coreAt c).dpreg e = some (BitVec.ofNat 64 (setBits w.1.toNat 10 4 weight), w.2)) ∧
        (∀ c, c ∉ (s.part part).cores → t.coreAt c = s.coreAt c) ∧ (t.part part).cores = (s.part part).cores ∧ t.work = s.work ∧
        t.sys = (setStatus s 0 0).sys) ∧
    (∀ fn part value, fn ≤ 64 → MayShape fn part → part ≤ 63 → bits value.toNat 33 0 = 0 →
      Leads .faultLogClear (.faultLogClear fn part value) s fun t =>
        t.part part = { s.part part with log := if value.getLsbD 63 then 0#64 else (s.part part).log } ∧
        (∀ p, p ≠ part → t.part p = s.part p) ∧ t.sys = (setStatus s fn 0).sys ∧ t.adm.doms = s.adm.doms ∧ t.work = s.work) ∧
    ∀ fn part value, fn ≤ 64 → MayShape fn part → part ≤ 63 → value ≤ 7 →
      Leads .barstatClear (.barstatClear fn part value) s fun t =>
        (∀ b, b < 3 → ((t.part part).barstat.testBit b = ((s.part part).barstat.testBit b && !value.testBit b))) ∧
        t.part part = { s.part part with barstat := (t.part part).barstat } ∧ (∀ p, p ≠ part → t.part p = s.part p) ∧
        t.sys = (setStatus s fn 0).sys ∧ t.adm.doms = s.adm.doms

/-- R383, R197, R215, R208, R384: a register holds what is written to it; the rings of a CLOSED domain are set empty; the inspection
window shows the words of the object selected, one after another. -/
def Sys2Proof.Claims.Registers : Prop :=
  ∀ s fn, fn ≤ 64 → s.sys.fatal = none →
    (∀ r, mayGive s (.registerWrite fn r) → (∀ e ∈ regRefusal s r, e.1 = false) → Leads .registerWrite (.registerWrite fn r) s fun t =>
      registerHolds s t fn r ∧ tget t.sys.status fn = some 0 ∧ t.core = s.core ∧ t.mem = s.mem ∧ t.fly = s.fly ∧ t.ctl = s.ctl ∧
      t.work.groups = s.work.groups ∧ t.work.teams = s.work.teams ∧ t.adm.queues = s.adm.queues ∧ t.adm.parts = s.adm.parts) ∧
    (∀ did w, MayName s fn did → (s.dom did).st = .closed → bits w.toNat 62 57 = 0 → bits w.toNat 11 4 = 0 →
      (bits w.toNat 3 0 ≤ 12 → Leads .curatorRingWrite (.curatorRingWrite fn did w) s fun t =>
        t.dom did = { s.dom did with cur := { (s.dom did).cur with v := w.getLsbD 63, basePage := bits w.toNat 56 12,
                                                                   order := bits w.toNat 3 0, head := 0, ripe := 0, tail := 0, entries := [] } } ∧
        (∀ d, d ≠ did → t.dom d = s.dom d) ∧ t.sys = (setStatus s fn 0).sys ∧ t.work = s.work ∧ t.mem = s.mem) ∧
      Leads .dprovRingWrite (.dprovRingWrite fn did w) s fun t =>
        t.dom did = { s.dom did with provV := w.getLsbD 63, provBase := bits w.toNat 56 12 * 4096, provOrder := bits w.toNat 3 0,
                                     provHead := 0, provTail := 0 } ∧
        (∀ d, d ≠ did → t.dom d = s.dom d) ∧ t.sys = (setStatus s fn 0).sys ∧ t.work = s.work ∧ t.mem = s.mem) ∧
    (∀ v, Leads .iwselWrite (.iwselWrite fn v) s fun t =>
      t.iwsel fn = v ∧ (∀ f, f ≠ fn → t.iwsel f = s.iwsel f) ∧ t.adm = s.adm ∧ t.work = s.work ∧ t.core = s.core ∧ t.mem = s.mem) ∧
    Leads .iwdataRead (.iwdataRead fn) s fun t =>
      let x := (s.iwsel fn).toNat
      let d := s.dom (bits x 58 51)
      (t.iwsel fn).toNat = setBits x 15 0 (bits x 15 0 + 1) ∧ (∀ f, f ≠ fn → t.iwsel f = s.iwsel f) ∧ t.adm = s.adm ∧ t.work = s.work ∧
      t.core = s.core ∧ t.mem = s.mem ∧ t.fly = s.fly ∧
      (fn ≠ 0 → bits x 63 59 ∈ [1, 2, 3, 4, 10, 12, 13] → ¬ MayName s fn (bits x 58 51) → t.sys.iwdata = 0#64) ∧
      (fn ≠ 0 → bits x 63 59 ∈ [5, 6, 7, 8, 9, 11] → t.sys.iwdata = 0#64) ∧
      (bits x 63 59 = 1 → MayName s fn (bits x 58 51) →
        ∀ e ∈ ([(1, d.stinfo), (2, d.root), (3, d.vector), (4, d.gates), (5, d.gateCnt), (7, d.save0.toNat), (8, d.save1.toNat)] :
          List (Nat × Nat)), bits x 15 0 = e.1 → t.sys.iwdata = BitVec.ofNat 64 e.2) ∧
      (bits x 63 59 = 12 → MayName s fn (bits x 58 51) → bits x 15 0 = 3 → t.sys.iwdata.toNat = d.cur.next % 2 ^ 32 * 2 ^ 32 + d.cur.doneTk % 2 ^ 32)

/-- R14 to R16, R72, R218: partitions and the registers of a function. -/
def Obligations.PartitionCommands : Prop :=
  Sys2Proof.Claims.Partitions ∧ Sys2Proof.Claims.Registers

/-- R27, R28, R29: a queue's descriptor as written, its enables, its TAIL by command and by doorbell, and SKIP. -/
def Sys2Proof.Claims.QueueCommands : Prop :=
  ∀ s fn did q,
    let x := s.queue did q
    (∀ w0 w1 : Bits64, QueueTaken s fn did q → x.st = .off →
      let a := w0.toNat
      let b := w1.toNat
      let y := { x with kind := a.testBit 62, qpri := bits a 61 58, base := bits a 56 0, order := bits b 63 60, quota := bits b 55 40,
                        tail := bits b 15 0, errc := if bits b 39 32 = 0 then x.errc else 0, fresh := true }
      let good := a.testBit 57 = false ∧ bits a 7 0 = 0 ∧ bits b 59 56 = 0 ∧ bits b 63 60 ≤ 11 ∧ (a.testBit 62 = true ↔ bits b 55 40 ≠ 0)
      (¬ good → Leads .queueDescriptorWrite (.queueDescriptorWrite fn did q w0 w1) s fun t => t = setStatus s fn 3) ∧
      (good → a.testBit 63 = false → Leads .queueDescriptorWrite (.queueDescriptorWrite fn did q w0 w1) s fun t =>
        QueueBecomes s t fn did q y) ∧
      let same := y.kind = x.kind ∧ y.qpri = x.qpri ∧ y.base = x.base ∧ y.order = x.order ∧ y.quota = x.quota
      (good → a.testBit 63 = true → same → x.fresh = false →
        Leads .queueDescriptorWrite (.queueDescriptorWrite fn did q w0 w1) s fun t =>
          QueueBecomes s t fn did q { y with fresh := false, st := stirred s did x.head (bits b 15 0), record := none,
                                             outst := counted s did q x.head (bits b 15 0) x.kind }) ∧
      (good → a.testBit 63 = true → (¬ same ∨ x.fresh = true) →
        Leads .queueDescriptorWrite (.queueDescriptorWrite fn did q w0 w1) s fun t => ∃ z, QueueBecomes s t fn did q z ∧ z.st = .idle ∧ z.head = 0 ∧ z.tail = 0 ∧ z.kind = y.kind ∧ z.qpri = y.qpri ∧ z.base = y.base ∧
          z.order = y.order ∧ z.quota = y.quota ∧ z.record = none ∧ z.outst = counted s did q 0 0 y.kind)) ∧
    QueueRewrites s fn did q x ∧
    (QueueTaken s fn did q → x.st = .off → x.fresh = false → Leads .queueEnable (.queueEnable fn did q) s fun t =>
      QueueBecomes s t fn did q { x with st := stirred s did x.head x.tail, record := none, outst := counted s did q x.head x.tail x.kind }) ∧
    (QueueTaken s fn did q → x.st ≠ .off → Leads .queueEnable (.queueEnable fn did q) s fun t => t = setStatus s fn 0) ∧
    (QueueTaken s fn did q → Leads .queueDisable (.queueDisable fn did q) s fun t =>
      QueueBecomes s t fn did q { x with st := .off, record := none, waitGen := none }) ∧
    (∀ b, QueueTaken s fn did q → b ≤ 255 → b ≠ 0 → Leads .errcClear (.errcClear fn did q b) s fun t =>
      QueueBecomes s t fn did q { x with errc := 0 }) ∧
    (∀ tail, QueueTaken s fn did q → Leads .queueTailWrite (.queueTailWrite fn did q tail) s fun t =>
      (x.st = .off → tail < 2 ^ 16 → QueueBecomes s t fn did q { x with tail := tail }) ∧
      (x.st = .off → 2 ^ 16 ≤ tail → t = setStatus s fn 3) ∧ (x.st ≠ .off → x.kind = true → t = setStatus s fn 1) ∧
      (x.st ≠ .off → x.kind = false → tail < 2 ^ 16 → (tail + 2 ^ 16 - x.head) % 2 ^ 16 ≤ 2 ^ (x.order + 4) →
        QueueBecomes s t fn did q { x with tail := tail, st := if x.st = .idle then stirred s did x.head tail else
          if x.st = .waiting ∧ (s.dom did).st ≠ .live then .held else x.st }) ∧
      (x.st ≠ .off → x.kind = false → tail < 2 ^ 16 → 2 ^ (x.order + 4) < (tail + 2 ^ 16 - x.head) % 2 ^ 16 →
        (t.queue did q) = { x with errc := 6 } ∧ tget t.sys.status fn = some 3)) ∧
    (QueueTaken s fn did q → x.st = .error → Leads .skip (.skip fn did q) s fun t =>
      QueueBecomes s t fn did q { x with head := (x.head + 1) % 2 ^ 16, errc := 0, record := none, waitGen := none,
                                         outst := if x.kind then x.outst - 1 else x.outst,
                                         st := stirred s did ((x.head + 1) % 2 ^ 16) x.tail }) ∧
    ∀ part slot tail, part < 64 → slot < 256 → q < 16 →
      ((domsOf s part).find? fun e => e.2.slot == slot).map (·.1) = some did →
      Leads .doorbell (.doorbell (part + 1) (0x10000 + 0x40 * (16 * slot + q)) tail) s fun t =>
        (x.kind = true → t = s) ∧
        (x.kind = false → tail < 2 ^ 16 → (tail + 2 ^ 16 - x.head) % 2 ^ 16 ≤ 2 ^ (x.order + 4) →
          t.queue did q = { x with tail := tail, st := if x.st = .idle then stirred s did x.head tail else
            if x.st = .waiting ∧ (s.dom did).st ≠ .live then .held else x.st }) ∧
        (x.kind = false → tail < 2 ^ 16 → 2 ^ (x.order + 4) < (tail + 2 ^ 16 - x.head) % 2 ^ 16 → t.queue did q = { x with errc := 6 }) ∧
        t.work = s.work ∧ t.core = s.core ∧ t.mem = s.mem ∧ t.sys = s.sys

/-- R29, R30, R31, R33: the record at HEAD is read and checked, a turn of its phaser releases it, and the next grid is dispatched from the
queue whose turn it is. -/
def Sys2Proof.Claims.Dispatching : Prop :=
  ∀ s did q, did < 256 → q < 16 →
    let x := s.queue did q
    let s0 := s.modQueue did q fun x => { x with st := .waiting }
    (∀ bs ts s1, (x.st = .idle ∨ x.st = .waiting) → x.head ≠ x.tail → x.record = none → pageWaits s (queueWaiter did q) = false →
      (s.dom did).st = .live → distRead s0 did (x.base + 256 * (x.head % 2 ^ (x.order + 4))) 256 (queueWaiter did q) = .ok bs ts s1 →
      s1.adm.queues = s0.adm.queues → Leads .queueRecordRead (.queueRecordRead did q) s fun t =>
        (∀ code, recordCheck s1 did (leVal bs) = some code →
          t.queue did q = { x with st := .error, errc := code, record := none, waitGen := none }) ∧
        (recordCheck s1 did (leVal bs) = none → (launchFields (leVal bs)).wt = false →
          (t.queue did q).record = some (launchFields (leVal bs)) ∧ (t.queue did q).head = x.head ∧
          (t.queue did q).st = if lastPlaced s1 x then .ready else .waiting)) ∧
    (∀ w, bits w 7 0 ≠ 1 → recordCheck s did w = some 1) ∧
    (∀ r a m, x.st = .waiting → x.record = some r → r.wt = true → x.waitGen = some (a, m) →
      Leads .waitphTurnNotify (.waitphTurnNotify did q) s fun t =>
        (m ≠ 0 → lastPlaced s x = true → t.queue did q = { x with st := .ready }) ∧ (m = 0 ∨ lastPlaced s x = false → t = s)) ∧
    ∀ part r bs ts s1, turnDomain s part = some did → turnQueue s did = some q → x.record = some r →
      distReadRun s did (queueWaiter did q) (r.csize / 16 + 2) r.const (16 * r.csize) = .ok bs ts s1 → AdminKept s s1 →
      s1.work = s.work → (s.dom did).st = .live →
      (∀ p ∈ readyQueues s did, (s.queue did p).qpri ≤ x.qpri) ∧
      Leads .recordDispatch (.recordDispatch part) s fun t =>
        ∃ id g, t.grid id = some g ∧ g.did = did ∧ g.part = part ∧ g.queue = q ∧ g.index = x.head ∧ g.launch = r ∧ g.consts = bs ∧
          g.next = 0 ∧ g.retired = 0 ∧ g.hash = x.hash ∧ g.done = false ∧
          t.queue did q = { x with head := (x.head + 1) % 2 ^ 16, record := none, waitGen := none, lastGrid := some id,
                                   st := stirred s did ((x.head + 1) % 2 ^ 16) x.tail } ∧
          tget (t.dom did).rrQueue x.qpri = some q ∧ (t.part part).rrDom = did ∧ t.work.groups = s.work.groups ∧ t.work.teams = s.work.teams

/-- R30 to R40: launch queues and the distributor. -/
def Obligations.QueuesAndDispatch : Prop :=
  Sys2Proof.Claims.QueueCommands ∧ Sys2Proof.Claims.Dispatching

/-! ## Events: work on the cores -/

/-- R54, R69, R70, R42, R60: an issue slot takes the group of highest level and longest wait and issues a run of its next path, charged to
its partition; a PC that is no multiple of 8 traps; timers make paths due and raise levels. -/
def Sys2Proof.Claims.IssueSlots : Prop :=
  (∀ l e, (∀ f ∈ l, f.2.level ≤ 15 ∧ f.2.wait < 2 ^ 64 ∧ f.2.slot < 64) → chosenGroup l = some e →
    e ∈ l ∧ ∀ f ∈ l, f.2.level ≤ e.2.level ∧ (f.2.level = e.2.level → f.2.wait ≤ e.2.wait)) ∧
  (∀ s core slot k g p, slot < 4 → slotBusy s core slot = false →
    ((onSlot s core slot).filter fun e => competes s e.1 e.2) = [(k, g)] → s.group k = some g →
    0 < deficitOf (s.coreAt core) slot (s.partOf g) → nextPath s k g = some p →
    (∀ ws s1, p.pc % 8 = 0 → fetchRun (s.modCore core id) (s.coreOf g) (s.didOf g) p.pc 24 = .words ws s1 → illegalIn ws = none → ws ≠ [] →
      s1.work = s.work → Leads .issueSlotDecision (.issueSlotDecision core slot) s fun t =>
        ∃ x r, t.group k = some x ∧ x.run = some r ∧ r.words = ws ∧ r.pc = p.pc ∧ r.gang = p.mask ∧ r.depth = p.depth ∧ r.closed = false ∧
          (g.st = .ready → x.st = .issuing) ∧ (g.st = .trap → x.st = .trap) ∧ x.level = g.base ∧ x.wait = 0 ∧ p ∉ x.paths ∧
          deficitOf (t.coreAt core) slot (s.partOf g) = deficitOf (s.coreAt core) slot (s.partOf g) - ws.length) ∧
    (p.pc % 8 ≠ 0 → g.isSeq = false → g.handler = none → Leads .issueSlotDecision (.issueSlotDecision core slot) s fun t =>
      InHandler s t k g { cause := 0x02, sub := 0, info := p.pc, pc := p.pc, depth := p.depth, mask := p.mask, word := true, owner := 0 }
        (g.paths.filter (· != p)))) ∧
  ∀ s k g, s.group k = some g →
    (Leads .pathDue (.pathDue k) s fun t =>
      t.group k = some { g with paths := g.paths.map fun p => if 256 ≤ p.timer then { p with due := true } else p } ∧
      (∀ j, j ≠ k → t.group j = s.group j) ∧ t.sys = s.sys ∧ t.adm = s.adm ∧ t.core = s.core ∧ t.mem = s.mem ∧ t.fly = s.fly) ∧
    (g.st = .ready → Leads .waitAging (.waitAging k) s fun t =>
      t.group k = some { g with wait := (g.wait / 1024 + 1) * 1024, level := min 15 (g.level + 1) } ∧
      t.sys.clk = s.sys.clk + (1024 - g.wait % 1024) ∧ t.mem = s.mem ∧ t.fly = s.fly)

/-- R57 to R59, R67, R201 to R203: at the boundary of its run a group writes its results, its lanes stand in paths at their successors, a
word trap enters the handler, and TRET resumes the trapped lanes at the PC of the trap record. -/
def Sys2Proof.Claims.Boundaries : Prop :=
  ∀ s k g r, RunOver s k g r →
    (r.trap = none → r.tret = 0#32 → r.halt = false → g.handler = none → g.live &&& ~~~r.exits ≠ 0#32 →
      Leads .resultsComplete (.resultsComplete k) s fun t => ∃ x, t.group k = some x ∧ x.run = none ∧ x.results = [] ∧
        x.live = g.live &&& ~~~r.exits ∧ x.st = restState x.paths ∧
        (∀ y ∈ r.succ, y.lane < 32 → ∃ p ∈ x.paths, inMask p.mask y.lane = true ∧ p.pc = y.pc ∧ p.depth = y.depth) ∧
        ∀ y row, g.results = [y] → y.dest = .rows [row] → (∀ l, l < 32 → ∃ e ∈ y.vals, e.1 = l ∨ e.1 = 32) →
          ∀ l, l < 32 → (t.teamRowVals g row).getD l 0#32 =
            if inMask y.lanes l then BitVec.ofNat 32 (resultValue y.vals l) else (s.teamRowVals g row).getD l 0#32) ∧
    (∀ x, r.trap = some x → g.handler = none → Leads .resultsComplete (.resultsComplete k) s fun t => InHandler s t k g x g.paths) ∧
    (∀ x h, r.trap = some x → g.handler = some h → Leads .resultsComplete (.resultsComplete k) s fun t =>
      (t.dom (s.didOf g)).st = .stopped ∧ (t.dom (s.didOf g)).stop = 2) ∧
    ∀ h, r.trap = none → r.tret ≠ 0#32 → r.halt = false → r.exits = 0#32 → g.handler = some h → g.paths = [] → g.results = [] →
      h.trap.mask &&& g.live ≠ 0#32 → Leads .resultsComplete (.resultsComplete k) s fun t =>
        ∃ x, t.group k = some x ∧ x.handler = none ∧ x.run = none ∧ x.st = restState x.paths ∧
          ∀ l, l < 32 → inMask (h.trap.mask &&& g.live) l = true →
            ∃ p ∈ x.paths, inMask p.mask l = true ∧ p.pc = resumePc s g ∧ p.depth = h.trap.depth

/-- R42, R54 to R60, R67 to R70, R199 to R203: a run starts, and ends at its boundary. -/
def Obligations.RunsAndBoundaries : Prop :=
  Sys2Proof.Claims.IssueSlots ∧ Sys2Proof.Claims.Boundaries

/-- R77, R79, R75, R76, R82, R83: PREEMPT and its budget; FROST reserves images and raises PREEMPT; a THAW puts every lane where its
frame says, in place or in new room. -/
def Obligations.FrostAndThaw : Prop :=
  (∀ s k g, s.group k = some g → g.preempt = true → g.handler = none → (g.st = .ready ∨ g.st = .blocked) → g.run = none → g.owed = [] →
    g.paths ≠ [] → Leads .preemptTake (.preemptTake k) s fun t =>
      (g.isSeq = true → ∃ x, t.group k = some x ∧ x.st = .frozen) ∧
      (g.isSeq = false → ∃ p ∈ g.paths, InHandler s t k g
        { cause := 0x15, sub := 0, info := 0, pc := p.resume, depth := p.depth, mask := p.mask, word := false, owner := 0 }
        (g.paths.filter (· != p)))) ∧
  (∀ s k g h b, s.group k = some g → g.st = .trap → g.run = none → g.handler = some h → h.budget = some b → b ≤ s.sys.clk →
    (s.dom (s.didOf g)).cur.marked = [] → Leads .forcedFrost (.forcedFrost k) s fun t =>
      let f := setBits h.frame 3018 3018 1
      (t.dom (s.didOf g)).ffrost = true ∧ ∃ x, t.group k = some x ∧ x.st = .frozen ∧ x.handler = none ∧ x.paths = [] ∧
        x.frame = setBits f 2983 2944 (max (bits f 2983 2944) g.gts.v)) ∧
  (∀ s fn did tgt k m, fn ≤ 64 → s.sys.fatal = none → MayName s fn did → (s.dom did).st ∈ [.live, .draining] → Still s → Calm s →
    namedTeams s did tgt = [k] → s.team k = some m → m.frozen = false → m.image = none →
    (imagePlace s m.did (imageSize s m) = none → Leads .frost (.frost fn did tgt) s fun t => t = setFrost s fn 5) ∧
    ∀ a, imagePlace s m.did (imageSize s m) = some a → (∃ e ∈ s.work.groups, e.2.team = k ∧ e.2.st ∈ [.ready, .blocked, .issuing]) →
      Leads .frost (.frost fn did tgt) s fun t => t.sys.status = tdel s.sys.status fn ∧ t.sys.frost = tdel s.sys.frost fn ∧
        (∃ x im, t.team k = some x ∧ x.freezing = true ∧ x.image = some im ∧ im.addr = a ∧ im.size = imageSize s m) ∧
        ∀ i g, s.group i = some g → g.team = k → g.st ∈ [.ready, .blocked, .issuing, .results, .fault, .rendezvous] → g.handler = none →
          t.group i = some { g with preempt := true }) ∧
  (∀ s fn did tgt k m, fn ≤ 64 → s.sys.fatal = none → MayName s fn did → (s.dom did).st ∈ [.live, .draining] →
    namedTeams s did tgt = [k] → Thawable s k m.core m → InPlace m → Leads .thaw (.thaw fn did tgt) s fun t =>
      tget t.sys.status fn = some 0 ∧ ThawedTeam t k m ∧ ThawedGroups s t k) ∧
  ∀ s k m, m.thawing = true → (s.dom m.did).st ∈ [.live, .draining] →
    (Thawable s k m.core m → InPlace m → Leads .teamThaw (.teamThaw k) s fun t => ThawedTeam t k m ∧ ThawedGroups s t k) ∧
    ∀ c im r room s0 all, Thawable s k c m → m.image = some im → im.evRows ≠ [] → s.launchOf m = some r → thawCores s k m = some [(k, c)] →
      s.sys.retireAt ≤ s.sys.clk → readBack s k m im = (s0, some all) → SameButReads s s0 →
      fitRoom s c m.part r k = some room → (∀ x ∈ teamsOn s c, claimable s m.part x.1 x.2 = true → x.1 = k) →
      Leads .teamThaw (.teamThaw k) s fun t => ThawedTeam t k m ∧
        (∃ x, t.team k = some x ∧ x.core = c ∧ x.slot = room.slot ∧ x.slots = room.slots ∧ x.rowBase = room.rowBase ∧ x.sramBase = room.sramBase) ∧
        (Once all.rows → ∀ e ∈ all.rows, t.row c (room.rowBase + e.1) = e.2 ∧ (t.rowTag c (room.rowBase + e.1)).owner = some m.did)

/-- R48, R50, R52, R21, R65: the next team of a grid takes its room with its groups at ENTRY, or held until rows of another domain are
zeroed; a long wait bars younger grids; a team whose groups have all left retires. -/
def Obligations.Placement : Prop :=
  ∀ s, s.sys.fatal = none →
    (∀ id g, s.grid id = some g → s.sys.retireAt ≤ s.sys.clk → thawFirst s g.part = false →
      (∀ e ∈ s.work.grids, e.2.part = g.part → e.2.order < g.order → gridPlaceable s e.1 e.2 = false) →
      (gridPlaceable s id g = false → Leads .teamPlace (.teamPlace id) s fun t =>
        t.grid id = some { g with wave := false } ∧ t.work.teams = s.work.teams ∧ t.work.groups = s.work.groups ∧ t.core = s.core) ∧
      ∀ c room, gridPlaceable s id g = true → g.launch.clus = 1 → g.launch.threads ≤ 1024 → nextCores s id g = some [c] →
        fitRoom s c g.part g.launch (2 ^ 61) = some room → (∀ x ∈ teamsOn s c, claimable s g.part x.1 x.2 = false) →
        Leads .teamPlace (.teamPlace id) s fun t =>
          let k := s.ctl.nextId
          ∃ m x, t.team k = some m ∧ m.grid = id ∧ m.id = g.next ∧ m.rank = 0 ∧ m.core = c ∧ m.did = g.did ∧ m.part = g.part ∧
            m.slot = room.slot ∧ m.rowBase = room.rowBase ∧ m.rowCnt = g.launch.teamRows ∧ m.sramBase = room.sramBase ∧
            m.sramCnt = g.launch.padRows ∧ t.grid id = some x ∧ x.next = g.next + 1 ∧
            ∀ i, i < (g.launch.threads + 31) / 32 → ∃ y, t.group (k * 64 + i) = some y ∧ y.team = k ∧ y.gid = i ∧
              y.slot = room.slots.getD i 0 ∧ y.roleC = g.launch.roles.testBit i ∧
              (∀ l, l < 32 → y.tids.getD l 0 = 32 * i + l ∧ inMask y.live l = decide (32 * i + l < g.launch.threads)) ∧
              (needsZero s m = true → y.st = .held ∧ y.paths = []) ∧
              (needsZero s m = false → y.st = .ready ∧ y.paths = [Path.new g.launch.entry 0 y.live])) ∧
    (∀ id g a, s.grid id = some g → g.waiting = some a → a + 65536 ≤ s.sys.clk → g.done = false → g.next < g.launch.nteams →
      Leads .placementWaitExpiry (.placementWaitExpiry id) s fun t =>
        t.grid id = some { g with bar := true } ∧ (∀ j, j ≠ id → t.grid j = s.grid j) ∧ t.work.teams = s.work.teams ∧ t.core = s.core) ∧
    (∀ k m g, s.team k = some m → m.zeroing = true → m.retired = false → m.frozen = false → s.grid m.grid = some g → Once s.core.rows →
      Leads .zeroingComplete (.zeroingComplete k) s fun t =>
        (∀ j, j < m.rowCnt → (t.rowTag m.core (m.rowBase + j)).owner = some m.did ∧
          t.row m.core (m.rowBase + j) = if (s.rowTag m.core (m.rowBase + j)).owner = some m.did then s.row m.core (m.rowBase + j)
            else List.replicate 32 0#32) ∧
        (∀ j, j < m.sramCnt → (t.srow m j).owner = some m.did) ∧
        ∀ i x, s.group i = some x → x.team = k → x.st = .held → ∃ y, t.group i = some y ∧ y.st = .ready ∧
          (i / 64 = k → ∀ n, n < 64 → t.sreg i n = 0#32) ∧ y.paths = [Path.new (if x.isSeq then g.launch.mentry else g.launch.entry) 0 x.live]) ∧
    ∀ k m, s.team k = some m → Still s → Calm s → Leads .teamRetire (.teamRetire k) s fun t =>
      (mayRetire s k m = false → t = s) ∧
      (mayRetire s k m = true → t.sys.retireAt = s.sys.clk + 1 ∧ (∃ x, t.team k = some x ∧ x.retired = true) ∧ (∀ i x, t.group i = some x → x.team ≠ k) ∧
        (∀ i n, i < 64 → n < 64 → t.sreg (k * 64 + i) n = 0#32) ∧
        ∀ g, s.grid m.grid = some g → ∃ x, t.grid m.grid = some x ∧ x.retired = g.retired + 1)

/-- R61, R62: a rendezvous that is complete drops the registrations of the groups that will be EMPTY; the repack then moves each thread with
its registers, number and successor to its new lane. -/
def Obligations.Regrouping : Prop :=
  ∀ s k m, s.team k = some m →
    (m.repack = false → Still s → Leads .rendezvousComplete (.rendezvousComplete k) s fun t =>
      (rendezvousReady s k = false → t = s) ∧
      (rendezvousReady s k = true → (∃ x, t.team k = some x ∧ x.repack = true) ∧
        ∀ e ∈ teamPlacement s k, e.2 = [] → ∀ x, t.group e.1 = some x → x.phreg = 0)) ∧
    (m.repack = true → m.drops = none → Once s.work.groups →
      (∀ e ∈ teamGroups s k, e.1 = k * 64 + e.2.gid ∧ e.2.gid < 32 ∧ e.2.btraps = []) →
      Leads .repackDone (.repackDone k) s fun t => (∃ x, t.team k = some x ∧ x.repack = false) ∧
        ∀ e ∈ teamPlacement s k, ∃ x, t.group e.1 = some x ∧ (e.2 = [] → x.st = .empty) ∧
          (∀ th, e.2.head? = some th → ∀ n, n < 64 → t.sreg e.1 n = s.sreg th.k n) ∧
          (∀ l, l < 32 → inMask x.live l = decide (l < e.2.length)) ∧
          ∀ l th, l < 32 → e.2[l]? = some th → x.tids.getD l 0 = th.tid ∧
            (∃ p ∈ x.paths, inMask p.mask l = true ∧ p.pc = th.pc ∧ p.depth = th.depth) ∧
            ∀ j, j < sliceRows (((s.launchOf m).map (·.vregs)).getD 0) →
              (t.row m.core (m.rowBase + e.1 % 64 * sliceRows (((s.launchOf m).map (·.vregs)).getD 0) + j)).getD l 0#32 =
                (s.row m.core (m.rowBase + th.k % 64 * sliceRows (((s.launchOf m).map (·.vregs)).getD 0) + j)).getD th.lane 0#32)

/-- R34, R35, R74, R216, R213, R214, R212, R218, R219: a finished grid is recorded where its domain has a ring and leaves its queue;
snapshots are cut and written; a barometer's window ends with its alarm. -/
def Obligations.GridEnds : Prop :=
  ∀ s,
    (∀ id g, s.grid id = some g → g.done = false → (s.dom g.did).st ≠ .killing → s.sys.fatal = none → pageWaits s id = false → g.stage = 0 →
      gridFinished s id g = true →
      let d := s.dom g.did
      let s1 := (s.setDom g.did { d with wcount := 0 }).modGrid id fun _ => { g with vend := d.vclk }
      (g.launch.dn = false → d.provV = false → d.inbox = [] → Once s.work.grids → Leads .gridComplete (.gridComplete id) s fun t =>
        t.grid id = none ∧ (t.dom g.did).wcount = 0 ∧ (∀ e ∈ t.work.teams, e.2.grid ≠ id) ∧
        (t.queue g.did g.queue).outst = (s.queue g.did g.queue).outst - (if (s.queue g.did g.queue).kind then 1 else 0) ∧
        (d.st = .live → (t.dom g.did).st = .live) ∧
        (d.st = .draining → (∀ e ∈ s.work.grids, e.1 ≠ id → e.2.did = g.did → e.2.done = true) → (t.dom g.did).st = .closed)) ∧
      (g.launch.dn = false → d.provV = true → Leads .gridComplete (.gridComplete id) s fun t =>
        t.grid id = some { g with vend := d.vclk, stage := 2 } ∧ (t.dom g.did).wcount = 0) ∧
      (g.launch.dn = true → ∀ o s2, translateDie0 s1 g.did g.launch.doneph 10 = .alien o s2 → AdminKept s1 s2 → s2.work = s1.work →
        d.provV = true → Leads .gridComplete (.gridComplete id) s fun t =>
          t.grid id = some { g with vend := d.vclk, stage := 2, status := 2 }) ∧
      (g.launch.dn = true → ∀ e pa s2, translateDie0 s1 g.did g.launch.doneph 10 = .ok e pa s2 → AdminKept s1 s2 → s2.work = s1.work →
        d.provV = true → Leads .gridComplete (.gridComplete id) s fun t =>
          t.grid id = some { g with vend := d.vclk, stage := 2,
                                    status := if phaserPage e = true ∧ keyAt s2 pa = pteKey e.pte then g.status else 2 })) ∧
    (∀ g, bits (provBody s g) 7 0 = 1 ∧ bits (provBody s g) 15 8 = g.did % 256 ∧ bits (provBody s g) 21 16 = (s.dom g.did).part % 64 ∧
      bits (provBody s g) 23 22 = g.status % 4 ∧ bits (provBody s g) 127 64 = g.launch.jobtag % 2 ^ 64 ∧
      bits (provBody s g) 191 128 = ((s.dom g.did).pseq + 1) % 2 ^ 64 ∧ bits (provBody s g) 1535 1152 = g.hash % 2 ^ 384) ∧
    (∀ id g, s.grid id = some g → s.sys.fatal = none → pageWaits s id = false → Once s.work.grids →
      let d := s.dom g.did
      let used := (d.provTail + 2 ^ 32 - d.provHead) % 2 ^ 32
      let b := signedRecord s (provBody s g) 4800 1024
      (g.stage = 4 → Leads .provenanceRecordWrite (.provenanceRecordWrite id) s fun t => t.grid id = none) ∧
      (g.stage = 2 → d.st ≠ .killing → d.provV = true → 2 ^ (d.provOrder + 4) ≤ used →
        Leads .provenanceRecordWrite (.provenanceRecordWrite id) s fun t => t = s) ∧
      ∀ s1, g.stage = 2 → d.st ≠ .killing → d.provV = true → used < 2 ^ (d.provOrder + 4) → g.launch.dn = false → d.inbox = [] →
        distWrite b.2 g.did id 4 (d.provBase + 1024 * (d.provTail % 2 ^ (d.provOrder + 4))) b.1 = .ok s1 → AdminKept s s1 →
        Leads .provenanceRecordWrite (.provenanceRecordWrite id) s fun t =>
          (t.dom g.did).provTail = (d.provTail + 1) % 2 ^ 32 ∧ (t.dom g.did).pseq = d.pseq + 1 ∧ (d.part + 1, 4) ∈ t.sys.irqs) ∧
    (∀ fn did nonce addr, fn ≤ 64 → s.sys.fatal = none → MayName s fn did →
      (s.dom did).st ∈ [.closed, .live, .draining, .killing, .stopped] → addr % 64 = 0 → nonce < 2 ^ 128 →
      ((s.dom did).snaps ≠ [] → Leads .snap (.snap fn did nonce addr) s fun t => t = setStatus s fn 6) ∧
      ((s.dom did).snaps = [] → Leads .snap (.snap fn did nonce addr) s fun t => tget t.sys.status fn = some 0 ∧
        (t.dom did).snum = (s.dom did).snum + 1 ∧ ∃ x, (t.dom did).snaps = [x] ∧ x.final = false ∧ x.nonce = nonce ∧ x.addr = addr ∧
          x.fn = fn ∧ x.pieces.getD 16 0 = min ((s.dom did).vclk + (s.dom did).vpend) (2 ^ 64 - 1) ∧ x.pieces.getD 17 0 = (s.dom did).snum + 1)) ∧
    (∀ did x rest, (s.dom did).snaps = x :: rest → Leads .snapshotComplete (.snapshotComplete did) s fun t =>
      (t.dom did).snaps = rest ∧ (x.fn, 3) ∈ t.sys.irqs ∧
      (Memory.wf s.mem.host = true → ∀ i, i < 8 → memByte t.mem.host (x.addr + i) = (leOf 8 (1 + 2 ^ 8 * (did % 256) +
        2 ^ 16 * ((s.dom did).part % 64) + 2 ^ 32 * (if x.final then 1 else 0))).getD i 0#8)) ∧
    (∀ core did l, tget (s.coreAt core).incs did = some l → Leads .counterFlush (.counterFlush core did) s fun t =>
      (∀ i, i < 16 → (t.dom did).counters.getD i 0 = min ((s.dom did).counters.getD i 0 + l.getD i 0) (2 ^ 63 - 1)) ∧
      (t.dom did).vclk = min ((s.dom did).vclk + (s.dom did).vpend) (2 ^ 64 - 1) ∧ (t.dom did).vpend = 0 ∧
      (t.coreAt core).incs = tdel (s.coreAt core).incs did ∧ t.work = s.work ∧ t.mem = s.mem ∧ t.sys = s.sys) ∧
    ∀ part b h, (s.part part).committed = true → b < 3 → (s.part part).hist.length = 3 → (s.part part).histLast.length = 3 →
      (s.part part).winAt.length = 3 → (s.part part).hist.getD b [] = h → Leads .barometerWindowEnd (.barometerWindowEnd part b) s fun t =>
        let due := (s.part part).winAt.getD b 0 + 2 ^ (bits ((s.part part).barb.getD b 0#64).toNat 55 51 + 10)
        (s.sys.fab < due → t = s) ∧ (due ≤ s.sys.fab → (t.part part).winAt.getD b 0 = due ∧
        (t.part part).histLast.getD b [] = h ∧ (t.part part).hist.getD b [] = List.replicate 32 0 ∧
        (breaches ((s.part part).barb.getD b 0#64).toNat h = true → (t.part part).barstat.testBit b = true ∧
          t.sys.irqs = s.sys.irqs ++ [(part + 1, 5), (0, 5)]) ∧
        (breaches ((s.part part).barb.getD b 0#64).toNat h = false → (t.part part).barstat = (s.part part).barstat ∧ t.sys = s.sys))

/-! ## Events: crossbars, ordering points, replies -/

/-- R73, R129: the head of an injection queue is sent once its buckets have given the tokens of all its beats; until then the buckets give
those of the beats that they hold, and a lease renewal passes. -/
def Sys2Proof.Claims.Injection : Prop :=
  ∀ s core part i rest, tget (s.coreAt core).inj part = some (i :: rest) →
    (∀ q, s.req i = some q → q.op.isRange = false → q.paid ≤ q.beats →
      (Affords s core part (costOf q.beatCost (q.beats - q.paid)) → Leads .beatTokenGrant (.beatTokenGrant core part) s fun t =>
        Spent s t core part (costOf q.beatCost (q.beats - q.paid)) (rest.filter (· != i)) ∧
        (∃ x, t.req i = some x ∧ x.stage = .net ∧ x.hops = requestRoute s core q.point) ∧
        t.mem = s.mem ∧ t.work = s.work ∧ t.adm = s.adm) ∧
      (¬ Affords s core part (costOf q.beatCost (q.beats - q.paid)) → NoRenewal s rest → ∀ n, Affords s core part (costOf q.beatCost n) →
        ¬ Affords s core part (costOf q.beatCost (n + 1)) → Leads .beatTokenGrant (.beatTokenGrant core part) s fun t =>
          (n = 0 → t = s) ∧
          (0 < n → Spent s t core part (costOf q.beatCost n) (i :: rest) ∧ t.req i = some { q with paid := q.paid + n } ∧ t.mem = s.mem ∧
            t.work = s.work ∧ t.adm = s.adm)) ∧
      (¬ Affords s core part (costOf q.beatCost 1) → q.paid < q.beats → ∀ a j b p, rest = a ++ j :: b → NoRenewal s a → s.req j = some p →
        p.renew.isSome = true → p.op.isRange = false → (∀ x ∈ i :: a, ∀ y, s.req x = some y → (y.grp, y.point) ≠ (p.grp, p.point)) →
        Leads .beatTokenGrant (.beatTokenGrant core part) s fun t =>
          tget (t.coreAt core).inj part = some ((i :: rest).filter (· != j)) ∧ (t.coreAt core).buckets = (s.coreAt core).buckets ∧
          t.req i = some q ∧ (∃ x, t.req j = some x ∧ x.stage = .net ∧ x.hops = requestRoute s core p.point) ∧ t.mem = s.mem)) ∧
    ∀ m, s.req i = none → tget s.fly.msgs i = some m → m.paid ≤ m.beats →
      (Affords s core part (costOf m.beatCost (m.beats - m.paid)) → Leads .beatTokenGrant (.beatTokenGrant core part) s fun t =>
        Spent s t core part (costOf m.beatCost (m.beats - m.paid)) (rest.filter (· != i)) ∧
        (∃ x, tget t.fly.msgs i = some x ∧ x.sent = true ∧ x.hops = msgRoute s m) ∧ t.mem = s.mem ∧ t.work = s.work ∧ t.adm = s.adm) ∧
      (¬ Affords s core part (costOf m.beatCost (m.beats - m.paid)) → NoRenewal s rest → ∀ n, Affords s core part (costOf m.beatCost n) →
        ¬ Affords s core part (costOf m.beatCost (n + 1)) → Leads .beatTokenGrant (.beatTokenGrant core part) s fun t =>
          (n = 0 → t = s) ∧
          (0 < n → Spent s t core part (costOf m.beatCost n) (i :: rest) ∧ tget t.fly.msgs i = some { m with paid := m.paid + n } ∧
            t.mem = s.mem ∧ t.work = s.work ∧ t.adm = s.adm))

/-- R156, R157: an output grants, of the oldest packets of the inputs that wait for it, that of the input of highest rank; the input's
rank becomes 0 and those below it rise by one. -/
def Sys2Proof.Claims.CrossbarGrants : Prop :=
  ∀ s d resp out,
    (packetsFor s d resp out = [] → Leads .packetGrant (.packetGrant d resp out) s fun t => t = s) ∧
    (packetsFor s d resp out ≠ [] → Leads .packetGrant (.packetGrant d resp out) s fun t =>
      let r := ranksOf s d resp out
      ∃ w ∈ packetsFor s d resp out,
        (∀ p ∈ packetsFor s d resp out, (p.inp = w.inp → w.enq ≤ p.enq) ∧ r.getD p.inp 0 ≤ r.getD w.inp 0) ∧
        (∀ i, i < r.length → (ranksOf t d resp out).getD i 0 =
          if i = w.inp then 0 else if r.getD i 0 < r.getD w.inp 0 then r.getD i 0 + 1 else r.getD i 0) ∧
        (w.msg = false → ∀ q, s.req w.id = some q → ∃ x, t.req w.id = some x ∧ x.hops = q.hops.tail ∧
          x.stage = if q.stage = .net ∧ q.hops.tail = [] then .point else q.stage) ∧
        (w.msg = true → ∀ m, tget s.fly.msgs w.id = some m → ∃ x, tget t.fly.msgs w.id = some x ∧ x.hops = m.hops.tail))

/-- R73, R157: beats leave a core under its partition's tokens, and cross. -/
def Obligations.InjectionAndCrossing : Prop :=
  Sys2Proof.Claims.Injection ∧ Sys2Proof.Claims.CrossbarGrants

/-- R108 to R111, R19, R311, R312, R316: what a load, a store, an atomic and a queue operation do at the line they stand before, and that an
access of another key index is not performed. -/
def Sys2Proof.Claims.OrderingPoints : Prop :=
  (∀ s i q lk l, Stands s i q → LineAt s q.point q.pa lk l → Keyed s lk l q.sectors q.key → Unpoisoned l q.sectors →
    (q.op = .load ∨ q.op = .prefetch false) → max l.wts (tsIn s q.gts l.ep) + 65536 < 2 ^ 40 → Leads .l2Load (.l2Load i) s fun t =>
      let c := if ∃ o, q.renew = some o ∧ tsIn s o l.ep = l.wts ∧ ¬ (o.ep ≠ l.ep ∧ l.ep = newEpoch s ∧ o.v < 2 ^ 38) then
        min (l.cls + 1) 7 else l.cls
      let r := max l.rts (max (l.wts + 4 * 4 ^ c) (tsIn s q.gts l.ep + 4 * 4 ^ c))
      let bs := (l.data.drop (bits q.pa 7 7 * 128)).take 128
      Replies s t i q (l.wts, r, l.ep) (q.lanes.map fun a => (a.lane, loadValue a.size q.sx (bs.drop (a.pa % 128)))) ∧
      (∃ x, t.line lk = some x ∧ x.data = l.data ∧ x.wts = l.wts ∧ x.rts = r ∧ x.cls = c) ∧ t.mem.dram = s.mem.dram) ∧
  (∀ s i q lk l, Writable s i lk q l → (q.op = .store ∨ ∃ n, q.op = .mst n) → Leads .l2Store (.l2Store i) s fun t =>
    LineWritten s t i lk q l (q.lanes.foldl (fun d a => overlay d (a.pa % 256) (leOf a.size a.data)) l.data) []) ∧
  (∀ s i q lk l, Writable s i lk q l → Unpoisoned l q.sectors →
    (((∃ n, q.op = .atomic n) ∨ (∃ n, q.op = .red n) ∨ q.op = .cas) → Leads .l2Atomic (.l2Atomic i) s fun t =>
      let r := q.lanes.foldl (atomStep q.op (q.pa / 256 * 256)) (l.data, [])
      LineWritten s t i lk q l r.1 r.2) ∧
    (q.op = .push → Leads .l2Atomic (.l2Atomic i) s fun t => LineWritten s t i lk q l (queuePush l.data (q.lanes.map (·.data))) []) ∧
    (q.op = .pop → Leads .l2Atomic (.l2Atomic i) s fun t =>
      let r := queuePop l.data q.lanes.length
      LineWritten s t i lk q l r.1 ((q.lanes.map (·.lane)).zip r.2))) ∧
  (∀ s i q lk l o, Stands s i q → LineAt s q.point q.pa lk l → lk < bridgeBase →
    (q.sectors.map (sectorKey s l)).find? (· != q.key) = some o →
    let turned := fun (t : State) =>
      (∃ x, t.req i = some x ∧ x.stage = .back ∧ x.fail.map (·.cause) = some 0x0E ∧ x.fail.map (·.info) = some 4 ∧ x.back = q.back) ∧
      (t.line lk).map (·.data) = some l.data ∧ t.mem.dram = s.mem.dram
    (q.op = .load → Leads .l2Load (.l2Load i) s turned) ∧ (q.op = .store → Leads .l2Store (.l2Store i) s turned) ∧
    (q.op = .cas → Leads .l2Atomic (.l2Atomic i) s turned)) ∧
  ∀ d : Bytes, d.length = 256 →
    let h := leVal (d.take 16)
    let cap := bits h 37 32
    let n := (bits h 31 16 + 65536 - bits h 15 0) % 65536
    let valid := 1 ≤ cap ∧ cap ≤ 60 ∧ bits h 127 39 = 0 ∧ n ≤ cap
    (∀ vs, ¬ valid → queuePush d vs = d) ∧
    (∀ vs, valid → cap < n + vs.length → let x := leVal ((queuePush d vs).take 16)
      x.testBit 38 = true ∧ bits x 37 0 = bits h 37 0 ∧ (queuePush d vs).drop 16 = d.drop 16) ∧
    (∀ v, valid → n + 1 ≤ cap → let x := leVal ((queuePush d [v]).take 16)
      bits x 31 16 = (bits h 31 16 + 1) % 65536 ∧ bits x 15 0 = bits h 15 0 ∧ bits x 127 32 = bits h 127 32 ∧
      leVal (((queuePush d [v]).drop (16 + 4 * (bits h 31 16 % cap))).take 4) = v % 2 ^ 32) ∧
    ∀ k, valid → let x := leVal ((queuePop d k).1.take 16)
      bits x 15 0 = (bits h 15 0 + min n k) % 65536 ∧ bits x 127 16 = bits h 127 16 ∧ (queuePop d k).1.drop 16 = d.drop 16 ∧
      ∀ j, j < k → (queuePop d k).2.getD j 0 =
        if j < min n k then leVal ((d.drop (16 + 4 * ((bits h 15 0 + j) % cap))).take 4) + 2 ^ 32 else 0

/-- R113: an access of an MS page at its stack engine: the engine's clock, the bytes read, the bytes written. -/
def Sys2Proof.Claims.StackEngines : Prop :=
  ∀ s i q, Stands s i q → 128 ≤ q.point → q.point < 136 →
    (∀ j ∈ q.sectors, (s.sector (q.pa / 256 * 2 + j)).key = q.key ∧ (s.sector (q.pa / 256 * 2 + j)).poison = false) →
    let c := s.engineClock (q.point - 128)
    let g := tsIn s q.gts c.ep
    let d := engineBytes s q
    max (c.v + 1) g < 2 ^ 40 →
    (q.op = .load → Leads .msAccess (.msAccess i) s fun t =>
      Replies s t i q (max c.v g, max c.v g, c.ep) (q.lanes.map fun a => (a.lane, loadValue a.size q.sx (d.drop (a.pa % 256)))) ∧
      t.engineClock (q.point - 128) = ⟨max c.v g, c.ep⟩ ∧ t.mem.dram = s.mem.dram) ∧
    ((∀ n ∈ s.mem.bridge.snoop, ∀ a ∈ q.lanes, ¬ (a.pa < 64 * (n + 1) ∧ 64 * n < a.pa + a.size)) → Memory.wf s.mem.dram = true →
      (∀ a ∈ q.lanes, a.pa % 256 + a.size ≤ 256) → q.op = .store → Leads .msAccess (.msAccess i) s fun t =>
        let w := max (c.v + 1) g
        let new := q.lanes.foldl (fun d a => overlay d (a.pa % 256) (leOf a.size a.data)) d
        Replies s t i q (w, w, c.ep) q.back ∧ t.engineClock (q.point - 128) = ⟨w, c.ep⟩ ∧
        ∀ j ∈ q.sectors, memBytes t.mem.dram ((q.pa / 256 * 2 + j) * 128) 128 = (new.drop (128 * j)).take 128)

/-- R110 to R119, R99, R136: what the ordering points do with a request. -/
def Obligations.PointsOfOrder : Prop :=
  Sys2Proof.Claims.OrderingPoints ∧ Sys2Proof.Claims.StackEngines

/-- R106, R307: a reply raises its group's timestamp, delivers its values and leaves; an answer of a peer device delivers without a timestamp,
and a failure of one is a LINK trap. -/
def Sys2Proof.Claims.RepliesArrive : Prop :=
  ∀ s i q g rid, Alone s i q → Unmarked s q.grp g → q.res = some rid → (∀ b, q.op ≠ .prefetch b) →
    (∀ w r ep p, q.stage = .back → q.hops = [] → q.fail = none → q.ts = some (w, r, ep) → g.gts.ep = ep →
      Leads .replyReceived (.replyReceived i p) s fun t => t.req i = none ∧
        t.group q.grp = some { g with gts := ⟨max g.gts.v w, ep⟩, results := gains g.results rid q.back }) ∧
    (q.stage = .point → 137 ≤ q.point → q.point < 145 → q.fail = none →
      (Leads .replyReceived (.replyReceived i .none) s fun t => t = s) ∧
      (∀ old, Leads .replyReceived (.replyReceived i (.done old)) s fun t => t.req i = none ∧
        t.group q.grp = some { g with results := gains g.results rid ((q.lanes.map (·.lane)).zip old) }) ∧
      ∀ n, g.btraps = [] → Leads .replyReceived (.replyReceived i (.failed n)) s fun t => t.req i = none ∧
        ∃ x, t.group q.grp = some x ∧ x.results = gains g.results rid [] ∧ x.btraps.map (·.cause) = [0x12] ∧
          x.btraps.map (·.info) = [q.rmt.getD 0 + n * 256])

/-! ## Events: the host at memory -/

/-- R118 to R120, R143, R382, R207, R307: the host reads and writes device memory at the home slice, writes host memory over the bridge's lines,
fills the table windows and the frame key table; what a frame without an entry, or a table page of another function, makes of it; an
uncorrectable error; an access from a peer device. -/
def Obligations.HostAccess : Prop :=
  ∀ s,
    (∀ pa n, MeetsTables s pa n → Leads .hostRead (.hostRead pa n) s fun t => t = s) ∧
    (∀ pa n lk l, ¬ MeetsTables s pa n → HostLine s pa n lk l → awaitsBirsp s l.pa = false → writeAwaits s l.pa = false →
      max l.wts (tsIn s ⟨s.mem.bridge.hts, s.mem.bridge.ep⟩ l.ep) + 65536 < 2 ^ 40 → tsIn s ⟨l.wts, l.ep⟩ s.mem.bridge.ep < 2 ^ 40 →
      Unpoisoned l (sectorsOf pa n) →
      Leads .hostRead (.hostRead pa n) s fun t =>
        t.sys.hostRead = (l.data.drop (pa % 256)).take n ∧
        t.mem.bridge.hts = max s.mem.bridge.hts (tsIn s ⟨l.wts, l.ep⟩ s.mem.bridge.ep) ∧
        ∃ x, t.line lk = some x ∧ x.data = l.data ∧ x.h = true ∧ x.wts = l.wts) ∧
    (∀ pa bs lk l key, HostLine s pa bs.length lk l → Still s → Calm s → HostStamps s l → inTables s pa = false →
      tget s.sys.frameKeys (pa / 2 ^ 14) = some (true, key) → Leads .hostWrite (.hostWrite pa bs) s fun t => HostWrote t lk key pa l bs) ∧
    (∀ pa bs, bs ≠ [] → pa % 256 + bs.length ≤ 256 → pa + bs.length ≤ 2 ^ 39 → Still s → Calm s →
      (inTables s pa = true ∨ tget s.sys.frameKeys (pa / 2 ^ 14) = none ∨ ∃ k, tget s.sys.frameKeys (pa / 2 ^ 14) = some (false, k)) →
      Leads .hostWrite (.hostWrite pa bs) s fun t => t = logPf s pa) ∧
    (∀ ha bs, ha % 256 + bs.length ≤ 256 → Memory.wf s.mem.host = true →
      (tget s.mem.bridge.lines (ha / 256) = none → Leads .hostSnoop (.hostSnoop ha bs) s fun t =>
        (∀ i, i < bs.length → memByte t.mem.host (ha + i) = bs.getD i 0#8) ∧
        ∀ a, a < ha ∨ ha + bs.length ≤ a → memByte t.mem.host a = memByte s.mem.host a) ∧
      ∀ l, tget s.mem.bridge.lines (ha / 256) = some l → Once s.mem.bridge.lines →
        tsIn s ⟨l.rts, l.ep⟩ s.mem.bridge.ep + 1 < 2 ^ 40 → Leads .hostSnoop (.hostSnoop ha []) s fun t =>
        tget t.mem.bridge.lines (ha / 256) = none ∧ tsIn s ⟨l.rts, l.ep⟩ s.mem.bridge.ep + 1 ≤ t.mem.bridge.hts) ∧
    (∀ pa w lk l, pa < 2 ^ 39 → s.mem.bridge.bisnp = [(pa / 64, w)] → LineAt s (homeSlice s (64 * (pa / 64))) (64 * (pa / 64)) lk l →
      l.h = true → homeWaits s pa = false → Leads .birspReceived (.birspReceived pa) s fun t =>
        t.mem.bridge.bisnp = [] ∧ t.line lk = some { l with h := false, snooped := l.snooped || w }) ∧
    (∀ ha, ha < 2 ^ 51 → (∃ e ∈ s.fly.reqs, e.2.point = 136 ∧ e.2.stage = .point ∧ ∃ a ∈ e.2.lanes, (a.pa - 2 ^ 51) / 256 = ha / 256) →
      s.mem.bridge.lines.length < 16384 → tget s.mem.bridge.lines (ha / 256) = none →
      Leads .bridgeLineFetch (.bridgeLineFetch ha) s fun t => ∃ x, tget t.mem.bridge.lines (ha / 256) = some x ∧
        x.data = memBytes s.mem.host (ha / 256 * 256) 256 ∧ x.wts = s.mem.bridge.hts ∧ x.rts = s.mem.bridge.hts ∧ x.cls = 2) ∧
    (∀ first n key v z, s.sys.fkey = none → s.sys.fatal = none → key ≤ 255 → first + n ≤ 2 ^ 25 → ¬ MeetsTables s (first * 2 ^ 14) (n * 2 ^ 14) →
      Leads .fkey (.fkey 0 first n key v z) s fun t =>
        (∀ f, first ≤ f → f < first + n → tget t.sys.frameKeys f = some (v, key)) ∧
        (∀ f, f < first ∨ first + n ≤ f → tget t.sys.frameKeys f = tget s.sys.frameKeys f) ∧
        (z = false → tget t.sys.status 0 = some 0 ∧ t.sys.fkey = none) ∧ (z = true → t.sys.fkey = some (first, n)) ∧ t.mem = s.mem) ∧
    (∀ first n, s.sys.fkey = some (first, n) → s.sys.fatal = none → Memory.wf s.mem.dram = true →
      (∀ e ∈ s.mem.lines, e.2.v = true → e.2.pa / 64 < first ∨ first + n ≤ e.2.pa / 64) → Leads .fkeyZeroDone .fkeyZeroDone s fun t =>
        t.sys.fkey = none ∧ tget t.sys.status 0 = some 0 ∧
        (∀ a, first * 2 ^ 14 ≤ a → a < (first + n) * 2 ^ 14 → memByte t.mem.dram a = 0#8) ∧
        (∀ a, a < first * 2 ^ 14 ∨ (first + n) * 2 ^ 14 ≤ a → memByte t.mem.dram a = memByte s.mem.dram a) ∧
        ∀ f k j, first ≤ f → f < first + n → tget s.sys.frameKeys f = some k → j < 128 → (t.sector (f * 128 + j)).key = k.2) ∧
    (∀ pa core r, (pa < 2 ^ 39 → Leads .eccUncorrectable (.eccUncorrectable (.dram pa) true) s fun t =>
        (t.sector (pa / 128)).poison = true ∧ (0, 2) ∈ t.sys.irqs ∧ t.mem.dram = s.mem.dram) ∧
      (∀ lk l, LineAt s (homeSlice s pa) pa lk l → l.dirty.testBit (bits pa 7 7) = true → ∀ b,
        Leads .eccUncorrectable (.eccUncorrectable (.l2 pa) b) s fun t =>
          ∃ x, t.line lk = some x ∧ x.poison.testBit (bits pa 7 7) = true ∧ x.data = l.data) ∧
      (r < 6144 → ∀ b, Leads .eccUncorrectable (.eccUncorrectable (.row core r) b) s fun t =>
        t.rowTag core r = { s.rowTag core r with poison := true } ∧ t.core.rows = s.core.rows ∧ t.sys = s.sys) ∧
      (r < 4096 → ∀ b, Leads .eccUncorrectable (.eccUncorrectable (.scratch core r) b) s fun t =>
        (∃ x, tget t.core.sramTags (core * 4096 + r) = some x ∧ x.poison = true) ∧ t.core.sram = s.core.sram ∧ t.sys = s.sys)) ∧
    (∀ fn pa v,
      ((inTables s pa = false ∨ pa % 8 ≠ 0 ∨ (fn ≠ 0 ∧ tget s.sys.tablePages (pa / 2 ^ 14) = none)) →
        Leads .tableWindowWrite (.tableWindowWrite fn pa v) s fun t => t = logPf s pa) ∧
      ∀ lk l, inTables s pa = true → pa % 8 = 0 →
        (fn = 0 ∨ ∃ d, tget s.sys.tablePages (pa / 2 ^ 14) = some d ∧ (s.dom d).st ≠ .free ∧ fn = (s.dom d).part + 1) →
        LineAt s (homeSlice s pa) pa lk l → HostStamps s l →
        Leads .tableWindowWrite (.tableWindowWrite fn pa v) s fun t => HostWrote t lk tableKey pa l (leOf 8 v.toNat)) ∧
    ∀ a : RemoteAcc, s.sys.fatal = none → Still s → Calm s →
      let s0 := s.fresh.2.setFly { s.fresh.2.fly with remotes := tset s.fresh.2.fly.remotes s.ctl.nextId ⟨a, false⟩ }
      (linkUp s a.link = false ∨ remoteLegal a = false → Leads .remoteAccess (.remoteAccess a) s fun t => t = s) ∧
      (linkUp s a.link = true → remoteLegal a = true → (∀ e ∈ s.sys.peers, e.2 ≠ (a.link, a.ldid, a.rdid)) →
        Leads .remoteAccess (.remoteAccess a) s fun t =>
          t.sys.peerOut = s.sys.peerOut ++ [(a.link, .failed 1)] ∧ t.mem = s.mem ∧ t.core = s.core ∧ t.work = s.work ∧ t.fly = s.fly) ∧
      (linkUp s a.link = true → remoteLegal a = true → (∃ x ∈ s.sys.peers, x.2 = (a.link, a.ldid, a.rdid)) →
        ((s.dom a.ldid).st = .free ∨ (s.dom a.ldid).st = .retiring) → Leads .remoteAccess (.remoteAccess a) s fun t =>
          t.sys.peerOut = s.sys.peerOut ++ [(a.link, .failed 3)] ∧ t.mem = s.mem) ∧
      (∀ r lv s1, linkUp s a.link = true → remoteLegal a = true → (∃ x ∈ s.sys.peers, x.2 = (a.link, a.ldid, a.rdid)) →
        (s.dom a.ldid).st ≠ .free → (s.dom a.ldid).st ≠ .retiring → freshWalk s0 a.die [] a.ldid a.va (remoteUse a) = .failed r lv s1 →
        Leads .remoteAccess (.remoteAccess a) s fun t => t.sys.peerOut = s.sys.peerOut ∧
          ∃ i x, tget t.fly.remotes i = some x ∧ x.acc = a ∧ x.parked = true ∧ pageWaits t i = true) ∧
      ∀ e pa s1 lk l, linkUp s a.link = true → remoteLegal a = true → (∃ x ∈ s.sys.peers, x.2 = (a.link, a.ldid, a.rdid)) →
        (s.dom a.ldid).st ≠ .free → (s.dom a.ldid).st ≠ .retiring → a.kind = 0 →
        freshWalk s0 a.die [] a.ldid a.va 10 = .ok e pa s1 → pteMs e.pte = false → isHost pa = false →
        LineAt s1 (homeSlice s1 pa) pa lk l → l.h = false → l.snooped = false → l.ep = newEpoch s → l.rts + 1 < 2 ^ 40 →
        (∀ j ∈ sectorsOf pa a.size, sectorKey s1 l j = pteKey e.pte) →
        Leads .remoteAccess (.remoteAccess a) s fun t => (∃ x, t.line lk = some x ∧
          x.data = overlay l.data (pa % 256) (leOf a.size a.data) ∧ l.rts < x.wts) ∧
          t.sys.peerOut = s.sys.peerOut ++ [(a.link, .done [])] ∧ t.fly.remotes = []

/-! ## Events: translation -/

/-- R147, R148, R150 to R154, R204 to R206: the end of a walk; a TLBINV and what it waits for; the pending table and the page request rings; what
RETRY and ERROR do; the catalogue and the end of FAULT. -/
def Obligations.Paging : Prop :=
  ∀ s,
    (∀ die did page,
      ((did, page) ∉ (s.die die).walks → Leads .pageWalkComplete (.pageWalkComplete die did page) s fun t => t = s) ∧
      ∀ i q, (did, page) ∈ (s.die die).walks → (s.dom did).tlbinv = [] → (s.die die).walkWait = [] → Alone s i q → q.stage = .walk → q.core / 48 = die → q.did = did →
        q.page = page → q.op = .load → q.waits = [] → (s.coreAt q.core).l1 = [] →
        let s0 := s.modDie die fun d => { d with walks := d.walks.filter (· != (did, page)) }
        (∀ e p, walk s0 die did (page * 2 ^ 14) = (.leaf e, p) → allowed e.pte 1 = true →
          Leads .pageWalkComplete (.pageWalkComplete die did page) s fun t =>
            Queued t i q e ∧ e ∈ (t.die die).tlb ∧ e ∈ (t.coreAt q.core).tlb ∧ (did, page) ∉ (t.die die).walks) ∧
        ∀ r lv p, walk s0 die did (page * 2 ^ 14) = (.failed r lv, p) →
          Leads .pageWalkComplete (.pageWalkComplete die did page) s fun t =>
            (∃ x, t.req i = some x ∧ x.stage = .catalogued) ∧ (did, page) ∉ (t.die die).walks ∧
            ∃ p ∈ (t.die die).pend ++ (t.die die).pendWait, p.did = did ∧ p.page = page ∧ p.reason = r ∧ i ∈ p.waiters) ∧
    (∀ fn did range, fn ≤ 64 → s.sys.fatal = none → MayName s fn did → did < 256 →
      (∀ va n, range = .pages va n → va % 2 ^ 14 = 0 ∧ va < 2 ^ 57 ∧ 1 ≤ n ∧ n ≤ 2 ^ 32) → Leads .tlbinv (.tlbinv fn did range) s fun t =>
        (∀ e ∈ t.mem.dies, ∀ x ∈ e.2.tlb, x.did = did → rangeMeets range x.page x.pages = false) ∧
        (∀ e ∈ t.core.cores, ∀ x ∈ e.2.tlb, x.did = did → rangeMeets range x.page x.pages = false) ∧
        (∃ x, (t.dom did).tlbinv = (s.dom did).tlbinv ++ [x] ∧ x.fn = fn ∧ x.range = range ∧
          ∀ e ∈ s.fly.reqs, e.2.did = did → e.2.pte.isSome = true → inFlight e.2 = true →
            (∃ a ∈ e.2.lanes, rangeMeets range (a.va / 2 ^ (14 + 11 * e.2.lvl) * 2 ^ (11 * e.2.lvl)) (2 ^ (11 * e.2.lvl)) = true) → e.1 ∈ x.reqs) ∧
        t.sys.status = tdel s.sys.status fn ∧ t.work = s.work ∧ t.fly = s.fly) ∧
    (∀ did x, (s.dom did).tlbinv = [x] →
      (x.walks = [] → (∀ i ∈ x.reqs, s.req i = none) → Leads .tlbinvDone (.tlbinvDone did) s fun t =>
        (t.dom did).tlbinv = [] ∧ tget t.sys.status x.fn = some 0) ∧
      (x.walks ≠ [] → Leads .tlbinvDone (.tlbinvDone did) s fun t => t = s)) ∧
    (∀ fn die reqid e, (s.die die).pend.find? (·.id == reqid) = some e → fn ≤ 64 → s.sys.fatal = none → MayName s fn e.did →
      (∀ code, 1 < code → Leads .pgrespError (.pgrespError fn die reqid code) s fun t => t = setStatus s fn 3) ∧
      (e.waiters = [] → Still s → Calm s → Leads .pgrespRetry (.pgrespRetry fn die reqid) s fun t => t = setStatus (withoutEntry s die reqid) fn 0) ∧
      (∀ i q g x pa s1, e.waiters = [i] → Parked s i q g → q.op = .load → q.waits = [] → (s.coreAt q.core).l1 = [] →
        translateNow (withoutEntry s die reqid) q.core q.did q.va 1 = .ok x pa s1 → Leads .pgrespRetry (.pgrespRetry fn die reqid) s fun t =>
          Queued t i q x ∧ tget t.sys.status fn = some 0 ∧ ∀ y ∈ (t.die die).pend, y.id ≠ reqid) ∧
      (∀ d n, e.waiters = [2 ^ 60 + d * 16 + n] → n < 16 → Still s → Calm s → s.fly.upds = [] → (s.queue d n).st = .waiting →
        Leads .pgrespError (.pgrespError fn die reqid 1) s fun t =>
          t.queue d n = { s.queue d n with st := .error, errc := 7, record := none, waitGen := none } ∧ tget t.sys.status fn = some 0) ∧
      ∀ i q g p, e.waiters = [i] → Parked s i q g → q.op = .fetch → q.res = none → q.lanes.map (·.va) = [p.pc] → p.pc / 2 ^ 14 = e.page →
        p.pc < 2 ^ 57 → e.reason < 16 → g.run = none → g.handler = none → g.isSeq = false → AtPeace s g → g.paths = [p] → p.waits = [] →
        p.rdv = none → (s.dom (s.didOf g)).cur.marked = [] → Leads .pgrespError (.pgrespError fn die reqid 1) s fun t =>
          t.req i = none ∧ InHandler s t q.grp g
            { cause := 0x0F, sub := 0, info := p.pc + e.reason * 2 ^ 60, pc := p.pc, depth := p.depth, mask := p.mask, word := false,
              owner := 0 } []) ∧
    (∀ die p r, (s.die die).pendWait = p :: r → (s.die die).pend.length < 256 →
      (∀ e ∈ (s.die die).pend, ¬ (e.did = p.did ∧ e.page = p.page ∧ e.reason = p.reason)) →
      Leads .pendingEntryFree (.pendingEntryFree die) s fun t =>
        (t.die die).pendWait = r ∧ ∃ n, (t.die die).pend = (s.die die).pend ++ [{ p with id := n }] ∧ ∀ e ∈ (s.die die).pend, e.id ≠ n) ∧
    (∀ die reqid fn p, (s.die die).pend.find? (·.id == reqid) = some p → (fn = 0 ∨ fn = (s.dom p.did).part + 1) → fn ∉ p.written →
      let r := s.prq fn
      let used := (r.tail + 2 ^ 32 - r.head) % 2 ^ 32
      let at' := r.base + 32 * (r.tail % 2 ^ (r.order + 4))
      (2 ^ (r.order + 4) ≤ used → Leads .pageRequestWrite (.pageRequestWrite die reqid fn) s fun t => t = s) ∧
      (used < 2 ^ (r.order + 4) → Memory.wf s.mem.host = true → s.mem.bridge.lines = [] →
        Leads .pageRequestWrite (.pageRequestWrite die reqid fn) s fun t =>
          let v := leVal (memBytes t.mem.host at' 32)
          bits v 7 0 = p.did % 256 ∧ bits v 11 8 = p.reason % 16 ∧ bits v 15 12 = p.access % 16 ∧ bits v 17 16 = p.level % 4 ∧
          bits v 19 18 = die % 4 ∧ bits v 27 20 = p.core % 256 ∧ bits v 47 32 = p.id % 65536 ∧ bits v 120 64 = p.page * 2 ^ 14 % 2 ^ 57 ∧
          t.prq fn = { r with tail := (r.tail + 1) % 2 ^ 32 } ∧ t.sys.irqs = s.sys.irqs ++ [(fn, 9)])) ∧
    (∀ core e, (s.coreAt core).catWait = [e] →
      ((s.coreAt core).catalogue.length < 256 → Leads .catalogueEntryFree (.catalogueEntryFree core) s fun t =>
        (t.coreAt core).catWait = [] ∧ (t.coreAt core).catalogue = (s.coreAt core).catalogue ++ [e]) ∧
      (256 ≤ (s.coreAt core).catalogue.length → Leads .catalogueEntryFree (.catalogueEntryFree core) s fun t =>
        (t.coreAt core).catWait = [e] ∧ (t.coreAt core).catalogue = (s.coreAt core).catalogue)) ∧
    (∀ core e f r, (s.coreAt core).catWait = e :: f :: r → e.part ≠ f.part → (s.coreAt core).catalogue.length = 255 →
      128 ≤ ((s.coreAt core).catalogue.filter (·.part == e.part)).length →
      ((s.coreAt core).catalogue.filter (·.part == f.part)).length < 128 →
      Leads .catalogueEntryFree (.catalogueEntryFree core) s fun t =>
        (t.coreAt core).catWait = e :: r ∧ (t.coreAt core).catalogue = (s.coreAt core).catalogue ++ [f]) ∧
    ∀ k g, s.group k = some g → g.st = .fault → g.run = none → g.handler = none → AtPeace s g →
      (s.dom (s.didOf g)).cur.marked = [] →
      ((∃ i ∈ g.parked, (s.req i).isSome = true) → (∃ i ∈ g.parked, pageWaits s i = true) → Leads .replayComplete (.replayComplete k) s fun t => t = s) ∧
      ((∀ i ∈ g.parked, s.req i = none ∧ s.post i = none ∧ s.cmd i = none) → Leads .replayComplete (.replayComplete k) s fun t =>
        t.group k = some { g with st := restState g.paths, parked := [] })

/-! ## Events: engines and other units -/

/-- R163, R166, R178, R179, R177: a message lands in the receive it matches and counts down its phaser, is kept, or is answered by a peer; a
phaser update is applied, held or refused; a wait that found no record ends once its phaser has turned. -/
def Sys2Proof.Claims.Arrivals : Prop :=
  (∀ s i m rid, s.fly.msgs = [(i, m)] → m.sent = true → m.hops = [] → m.res = some rid → Still s → Calm s → s.fly.upds = [] → NoneOwed s →
    (∀ tk t r, m.link = none → m.dst = some tk → t.did = m.did → Receives s tk t r m.steam m.slink m.tag m.data.length →
      Leads .messageArrival (.messageArrival i) s fun u => u.fly.msgs = [] ∧ Landed u t r m.data ∧ Answered s u m.grp rid 0 ∧
        ∀ q, phApply (sramPhaser s (phaserKey s t r.phaser)) (newEpoch s) { inb := -m.data.length, ts := some m.gts } = .ok q →
          sramPhaser u (phaserKey s t r.phaser) = afterPhase { inb := -m.data.length, ts := some m.gts } q) ∧
    (∀ tk t, m.link = none → m.dst = some tk → s.team tk = some t → t.retired = false → t.did = m.did → (s.coreAt t.core).recvs = [] →
      ((tget (s.coreAt t.core).ovf t.part).getD []).length < ovfRoom (s.coreAt t.core) t.part →
      Leads .messageArrival (.messageArrival i) s fun u => u.fly.msgs = [] ∧ Answered s u m.grp rid 0 ∧ u.core.sram = s.core.sram ∧
        ∃ x, (tget (u.coreAt t.core).ovf t.part).getD [] = (tget (s.coreAt t.core).ovf t.part).getD [] ++ [x] ∧ x.data = m.data ∧
          x.steam = m.steam ∧ x.tag = m.tag ∧ x.dteam = tk ∧ x.bound = none) ∧
    (∀ tk t g, m.link = none → m.dst = some tk → s.team tk = some t → t.retired = false → t.did ≠ m.did → s.group m.grp = some g →
      g.run ≠ none → g.btraps = [] → Leads .messageArrival (.messageArrival i) s fun u => u.fly.msgs = [] ∧ u.core.sram = s.core.sram ∧
        ∃ x, u.group m.grp = some x ∧ x.btraps.map (·.cause) = [0x0E] ∧ x.btraps.map (·.info) = [6] ∧
          ∀ y ∈ x.results, y.src = some rid → y.done = true) ∧
    (m.link = none → m.dst = none → Leads .messageArrival (.messageArrival i) s fun u => u.fly.msgs = [] ∧ Answered s u m.grp rid 5) ∧
    (∀ l, m.link = some l → Leads .messageArrival (.messageArrival i) s fun u => u.fly.msgs = [] ∧
      ∃ v, (v = 0 ∨ v = 1 ∨ v = 3 ∨ v = 5) ∧ Answered s u m.grp rid v)) ∧
  (∀ s a, Still s → Calm s →
    (linkUp s a.link = false → Leads .peerArrival (.peerArrival a) s fun u => u = s) ∧
    (linkUp s a.link = true → a.tag < 0xFFF0 → 0 < a.payload.length → a.payload.length ≤ 256 →
      (∀ e ∈ s.sys.peers, e.2 ≠ (a.link, a.ldid, a.rdid)) → Leads .peerArrival (.peerArrival a) s fun u =>
        u.sys.peerOut = s.sys.peerOut ++ [(a.link, .done [3])] ∧ u.core = s.core ∧ u.work = s.work ∧ u.mem = s.mem) ∧
    ∀ gid g tk t r, (∃ e ∈ s.sys.peers, e.2 = (a.link, a.ldid, a.rdid)) → linkUp s a.link = true → a.tag < 0xFFF0 → 0 < a.payload.length →
      a.payload.length ≤ 256 → s.fly.upds = [] →
      (s.work.grids.filter fun e => e.2.did == a.ldid && e.2.launch.jobtag == a.jobtag && !e.2.done && e.2.stage == 0) = [(gid, g)] →
      teamOfGrid s gid a.dteam = some (tk, t) → Receives s tk t r a.steam (a.link + 1) a.tag a.payload.length →
      Leads .peerArrival (.peerArrival a) s fun u => Landed u t r a.payload ∧ u.sys.peerOut = s.sys.peerOut ++ [(a.link, .done [0])]) ∧
  (∀ s i u, s.fly.upds = [(i, u)] → Still s → Calm s → u.dev = false → u.addr < 2 ^ 50 → u.held = false → u.parked = false → u.order = 0 →
    let p := sramPhaser s u.addr
    let o : PhOp := if u.kind = 1 then { inb := -u.n } else if u.kind = 2 then { outb := -u.n } else { pend := -1, ts := some u.ts }
    (∀ q, u.gen = phGen p → phApply p (newEpoch s) o = .ok q → Leads .enginePhaserUpdate (.enginePhaserUpdate i) s fun t =>
      t.fly.upds = [] ∧ ∀ x, memByte t.core.sram x = memByte (memPut s.core.sram u.addr (leOf 16 (afterPhase o q))) x) ∧
    (u.gen ≠ phGen p → u.gen = (phGen p + 1) % 16 → Leads .enginePhaserUpdate (.enginePhaserUpdate i) s fun t =>
      (∃ x, tget t.fly.upds i = some x ∧ x.held = true ∧ x.addr = u.addr ∧ x.gen = u.gen) ∧ t.core = s.core) ∧
    (u.gen ≠ phGen p → u.gen ≠ (phGen p + 1) % 16 → Leads .enginePhaserUpdate (.enginePhaserUpdate i) s fun t =>
      t.fly.upds = [] ∧ t.core.sram = s.core.sram)) ∧
  ∀ s k g p w a, s.group k = some g → g.run = none → g.handler = none → g.st = .blocked → g.owed = [] → g.paths = [p] → p.rdv = none →
    (p.waits = [(w, .retest a true)] → Leads .phaserWaitRetest (.phaserWaitRetest k) s fun t => ∃ x y, t.group k = some x ∧ x.st = .ready ∧
      x.paths = [y] ∧ y.waits = [] ∧ y.pc = p.pc ∧ y.mask = p.mask ∧
      ((phTs (leVal (peek s a 16))).ep = g.gts.ep → x.gts = ⟨max g.gts.v (phTs (leVal (peek s a 16))).v, g.gts.ep⟩)) ∧
    (p.waits = [(w, .retest a false)] → Leads .phaserWaitRetest (.phaserWaitRetest k) s fun t => t = s)

/-- Replies, and what arrives at a phaser, a mailbox or a gate. -/
def Obligations.RepliesAndArrivals : Prop :=
  Sys2Proof.Claims.RepliesArrive ∧ Sys2Proof.Claims.Arrivals

/-- R191, R192, R194: START marks the groups of a domain on a die that are not quiescent, and sees the others; a die without an unseen group
reports CLEAR; the fourth CLEAR completes the tickets and ends their waits. -/
def Sys2Proof.Claims.GracePeriods : Prop :=
  ∀ s did, let c := (s.dom did).cur
    (∀ die, (c.running = none ∨ 4 ≤ die ∨ ∃ l, c.running = some l ∧ die ∈ l) → Leads .curatorStart (.curatorStart die did) s fun t => t = s) ∧
    (∀ die l, c.running = some l → die ∉ l → die < 4 → Leads .curatorStart (.curatorStart die did) s fun t =>
      (t.dom did).cur.running = some (die :: l) ∧
      ∀ k g, s.group k = some g → s.didOf g = did → s.coreOf g / 48 = die → g.st ≠ .held → g.st ≠ .empty → g.st ≠ .exited →
        (¬ (seenIn g.st = true ∧ quiescent s k g = true) → k * 4 + die ∈ (t.dom did).cur.marked) ∧
        (seenIn g.st = true → quiescent s k g = true → (∀ e ∈ s.work.groups, e.1 = k → e.2 = g) →
          ∀ m ∈ (t.dom did).cur.marked, m / 4 ≠ k)) ∧
    (∀ die l, c.running = some l → die ∈ l → die ∉ c.clear →
      ((∀ m ∈ c.marked, m % 4 ≠ die) → Leads .dieCuratorClear (.dieCuratorClear die did) s fun t =>
        (t.dom did).cur = { c with clear := die :: c.clear } ∧ t.work = s.work) ∧
      ((∃ m ∈ c.marked, m % 4 = die) → Leads .dieCuratorClear (.dieCuratorClear die did) s fun t => t = s)) ∧
    ((∃ d, d < 4 ∧ d ∉ c.clear) → Leads .gracePeriodComplete (.gracePeriodComplete did) s fun t => t = s) ∧
    (c.running ≠ none → (∀ d, d < 4 → d ∈ c.clear) → Leads .gracePeriodComplete (.gracePeriodComplete did) s fun t =>
      let x := (t.dom did).cur
      x.doneTk = c.last ∧ x.clear = [] ∧ x.marked = [] ∧ x.entries = c.entries ∧
      (c.pendv = false → x.running = none) ∧ (c.pendv = true → x.running = some [] ∧ x.last = c.pendLast ∧ x.trun = c.tpend) ∧
      ∀ k y, t.group k = some y → ∀ p ∈ y.paths, ∀ w ∈ p.waits, ∀ tk, w.2 = .ticket did tk → ¬ doneBy c.last tk)

/-- R192 to R196: the deaccession ring, and the curator's events. -/
def Obligations.GraceRing : Prop :=
  Sys2Proof.Claims.Deaccession ∧ Sys2Proof.Claims.GracePeriods

/-- R170 to R176, R178: a phaser instruction that the counts of its phaser admit leaves those counts, and turns the phaser where its phase
is complete. -/
def Sys2Proof.Claims.PhaserCompletions : Prop :=
  ∀ e ∈ phaserRows, ∀ w s c t k, Issuing s w.h c → TeamPhaser s c w t → Memory.wf s.core.sram = true →
    let n := phaserNumber s c w
    let key := phaserKey s t n
    let m := w.hint.toNat % 4
    let o := e.change m (sopd s c w.data 1) c.g.gts
    let p := sramPhaser s key
    let sr := (phSreg p : Int) + o.sreg
    let wr := (phWreg p : Int) + o.wreg
    let pe := (phPend p : Int) + o.pend
    let i := phInb p + o.inb
    let u := phOutb p + o.outb
    let ends := (o.pend ≠ 0 ∨ o.inb ≠ 0 ∨ o.outb ≠ 0) ∧ pe = 0 ∧ i = 0 ∧ u = 0
    e.refuses m (sopd s c w.data 1) = none → e.after m (heldOf c.g n) = some k → 0 ≤ pe → pe < 4096 → 0 ≤ sr → sr ≤ 1023 → 0 ≤ wr →
    wr ≤ 1023 → -(2 ^ 23) ≤ i → i < 2 ^ 23 → -(2 ^ 23) ≤ u → u < 2 ^ 23 → (phTs p).ep = newEpoch s → c.g.gts.ep = newEpoch s →
    c.g.gts.v < 2 ^ 40 →
    ∃ x g, exec (e.make w) s = .next x ∧ Moved s x c w.h ∧ x.group c.k = some g ∧ g.phreg = setBits c.g.phreg (2 * n + 1) (2 * n) k ∧
      let q := sramPhaser x key
      (phSreg q : Int) = sr ∧ (phWreg q : Int) = wr ∧ phInb q = i ∧ phOutb q = u ∧
      (¬ ends → phGen q = phGen p ∧ (phPend q : Int) = pe) ∧ (ends → phGen q = (phGen p + 1) % 16 ∧ (phPend q : Int) = sr)

/-- A word of the curator has ended with a value, and the state is such. -/
def Sys2Proof.Claims.EndsWith (i : Instr) (s : State) (c : Ctx) (h : Head) (d : Dest) (vals : List (Nat × Nat)) (p : State → Prop) : Prop :=
  ∃ x g r, exec i s = .next x ∧ Moved s x c h ∧ x.group c.k = some g ∧ g.results.getLast? = some r ∧ r.dest = d ∧ r.lanes = c.act ∧
    r.done = true ∧ r.vals = vals ∧ p x

/-- R195, R196: DACC ends with the status of its ring and enters its entry at TAIL; DFPOP takes the ripe entry at HEAD, or delivers zeros. -/
def Sys2Proof.Claims.DeaccessionCompletions : Prop :=
  (∀ w s c t, Issuing s w.h c → SyncReady s c w ⟨1, 2, 1, 1⟩ false false → Idle s c t →
    let d := s.didOf c.g
    let cur := (s.dom d).cur
    let addr := sopd s c w.a 2 % 2 ^ 57
    let len := sopd s c w.b 1
    let tk := sopd s c w.c 1
    let va := cur.basePage * 4096 + 16 * (cur.tail % 2 ^ (cur.order + 8))
    let full := (cur.tail + 2 ^ 32 - cur.head) % 2 ^ 32 = 2 ^ (cur.order + 8)
    let ends := fun (v : Nat) (p : Curator → Prop) =>
      Sys2Proof.Claims.EndsWith (.dacc w) s c w.h (destOf s c w.d 1) [(32, v)] fun x => p (x.dom d).cur
    (cur.v = false → ends 1 fun x => x = cur) ∧
    ∀ e pa s2, cur.v = true → freshWalk (sending s c w.d 1 false) (d % 4) [] d va 2 = .ok e pa s2 →
      (len = 0 → ends 2 fun x => x = cur) ∧ (len ≠ 0 → full → ends 3 fun x => x = cur) ∧
      ∀ bs ts s3, len ≠ 0 → ¬ full → issued cur tk = true →
        unitAccess s2 e pa va 16 c.g.gts (some (leOf 16 (addr + len * 2 ^ 64 + tk * 2 ^ 96))) = .done bs ts s3 → (s3.dom d).cur = cur →
        ends 0 fun x => x.tail = (cur.tail + 1) % 2 ^ 32 ∧ x.head = cur.head ∧ x.entries = cur.entries ++ [(addr, len, tk)]) ∧
  ∀ w s c t, Issuing s w.h c → SyncReady s c w ⟨4, 1, 1, 1⟩ false false → Idle s c t →
    let d := s.didOf c.g
    let cur := (s.dom d).cur
    let ends := fun (v : Nat) (p : Curator → Prop) =>
      Sys2Proof.Claims.EndsWith (.dfpop w) s c w.h (destOf s c w.d 4) [(32, v)] fun x => p (x.dom d).cur
    (cur.head = cur.ripe → ends 0 fun x => x = cur) ∧
    ∀ e r, cur.head ≠ cur.ripe → cur.entries = e :: r →
      ends (e.1 + e.2.1 * 2 ^ 64) fun x => x = { cur with head := (cur.head + 1) % 2 ^ 32, entries := r }

/-- R191, R192: a die's curator that receives START marks the live groups on its die; it reports CLEAR once none is unseen; and the fourth CLEAR
completes the grace period. -/
def Sys2Proof.Claims.CuratorCompletions : Prop :=
  ∀ s did, s.sys.up = true → let c := (s.dom did).cur
    (∀ die l, s.ctl.ev = some (.curatorStart die did) → c.running = some l → die ∉ l → die < 4 →
      ∃ t, exec .curatorStart s = .next t ∧ (t.dom did).cur.running = some (die :: l) ∧
        ∀ k g, s.group k = some g → s.didOf g = did → s.coreOf g / 48 = die → marksAtStart g.st = true → seenIn g.st = false →
          k * 4 + die ∈ (t.dom did).cur.marked) ∧
    (∀ die l, s.ctl.ev = some (.dieCuratorClear die did) → c.running = some l → die ∈ l → die ∉ c.clear → (∀ m ∈ c.marked, m % 4 ≠ die) →
      ∃ t, exec .dieCuratorClear s = .next t ∧ (t.dom did).cur = { c with clear := die :: c.clear }) ∧
    (s.ctl.ev = some (.gracePeriodComplete did) → c.running ≠ none → (∀ d, d < 4 → d ∈ c.clear) →
      ∃ t, exec .gracePeriodComplete s = .next t ∧ (t.dom did).cur.doneTk = c.last ∧ (t.dom did).cur.clear = [] ∧
        (t.dom did).cur.marked = [] ∧ (c.pendv = false → (t.dom did).cur.running = none) ∧
        (c.pendv = true → (t.dom did).cur.running = some [] ∧ (t.dom did).cur.last = c.pendLast))

/-- R340, R342, R343, R347, R348, R358, R93: a beat of a copy, an element of a BANKOP, a step of a job, the finish of a command, the start and the
timeout of a pair, a scrub of rows and of a bank. -/
def Obligations.Engines : Prop :=
  (∀ s i c t, Running s i c → c.kind = 0xB8 → c.pos < c.len → c.ssp = 1 → c.dsp = 1 → c.accounts = [] → c.owed = [] → s.team c.team = some t →
    let src := c.f 56 0 + c.pos
    let dst := c.f 120 64 + c.pos
    let n := min (min (128 - src % 128) (128 - dst % 128)) (c.len - c.pos)
    (∀ r ∈ rowsOf src n ++ rowsOf dst n, (s.srow t r).owner = some c.did ∧ (s.srow t r).scrub = false) →
    (∀ r ∈ rowsOf src n, (s.srow t r).pend = 0 ∧ (s.srow t r).poison = false ∧ ∀ e ∈ c.rowsLeft, e.1 ≠ c.team * 4096 + r) →
    Memory.wf s.core.sram = true → Leads .copyBeat (.copyBeat i) s fun u =>
      memBytes u.core.sram (padKey t dst) n = memBytes s.core.sram (padKey t src) n ∧ (∃ y, u.cmd i = some y ∧ y.pos = c.pos + n) ∧
      (∀ a, a < padKey t dst ∨ padKey t dst + n ≤ a → memByte u.core.sram a = memByte s.core.sram a) ∧ u.mem = s.mem) ∧
  (∀ s i c j, Running s i c → c.kind = 0xBB → c.accounts = [] → elemNext s c j = true →
    (∀ x y z s1 s2 s3 s4, c.bop < 3 → Eng.dram i c (c.f 120 64 + j * c.elemBytes) c.elemBytes none s = .ok (x, s1) →
      Eng.dram i c (c.f 184 128 + j * c.elemBytes) c.elemBytes none s1 = .ok (y, s2) →
      (if c.bop = 2 then Eng.dram i c (c.f 56 0 + j * c.elemBytes) c.elemBytes none s2 = .ok (z, s3) else s3 = s2) →
      PutsElement s3 s4 i j c (bankNum c (leVal x) (leVal y) (leVal z)) → Pays s4 i → Leads .bankopElement (.bankopElement i j) s fun t =>
        ElementDone t s4 i j c (round c.bankFmt .rne (bankNum c (leVal x) (leVal y) (leVal z))).2) ∧
    (∀ s1, c.bop = 3 → PutsElement s s1 i j c (decodeNum fp32 (c.f 287 256)) → Pays s1 i → Leads .bankopElement (.bankopElement i j) s fun t =>
      ElementDone t s1 i j c (round c.bankFmt .rne (decodeNum fp32 (c.f 287 256))).2) ∧
    (∀ x s1, c.bop = 4 → j < c.cnt → Eng.dram i c (c.f 120 64 + j * c.elemBytes) c.elemBytes none s = .ok (x, s1) →
      Pays s1 i → Leads .bankopElement (.bankopElement i j) s fun t => ElementDone t s1 i j c 0#8 ∧
        ∃ y, t.cmd i = some y ∧ y.acc = c.acc ++ [leVal x]) ∧
    ∀ s1, c.bop = 4 → j = c.cnt → PutsElement s s1 i 0 c (sumN false (c.acc.map (decodeNum c.bankFmt))) → Pays s1 i →
      Leads .bankopElement (.bankopElement i j) s fun t =>
        ElementDone t s1 i j c (round c.bankFmt .rne (sumN false (c.acc.map (decodeNum c.bankFmt)))).2) ∧
  (∀ s i c s1, Running s i c → (c.kind = 0xBC ∨ c.kind = 0xBD) → c.mate = none → c.pos < c.steps → fullStep s i c s = .ok ((), s1) → Pays s1 i →
    Leads .jobStepCommit (.jobStepCommit i) s fun t =>
      (∃ y, t.cmd i = some y ∧ y.pos = c.pos + 1) ∧ (t.coreAt c.core).tileOwner = some c.did ∧ t.core.rows = s1.core.rows ∧ t.mem = s1.mem) ∧
  (∀ s i c m, Running s i c → c.kind = 0xB8 → s.team c.team = some m → c.handle < 65536 →
    (c.pos < c.len → Leads .engineCommandFinish (.engineCommandFinish i) s fun t => t = s) ∧
    (c.len ≤ c.pos → c.accounts = [] → Leads .engineCommandFinish (.engineCommandFinish i) s fun t => t.cmd i = none ∧
      ∃ x v, t.team c.team = some x ∧ x.finished = ((c.handle, v) :: m.finished).take 64 ∧ bits v 7 0 = 0 ∧ bits v 31 16 = c.handle ∧
        v.testBit 8 = decide (c.flags &&& fINVALID ≠ 0#8) ∧ v.testBit 9 = decide (c.flags &&& fOVERFLOW ≠ 0#8) ∧
        v.testBit 10 = decide (c.flags &&& fSAT ≠ 0#8))) ∧
  (∀ s i m c p, Pair s i m c p → NoneOwed s →
    (s.sys.clk < max c.t1 p.t1 + 4 → Leads .mpairStart (.mpairStart c.core) s fun t => t = s) ∧
    (max c.t1 p.t1 + 4 ≤ s.sys.clk → cardsAgree c p = false → Leads .mpairStart (.mpairStart c.core) s fun t => t.fly.cmds = [] ∧
      ∀ rid, c.res = some rid → c.grp ≠ p.grp → Answered s t c.grp rid 12) ∧
    (max c.t1 p.t1 + 4 ≤ s.sys.clk → cardsAgree c p = true → canRaise s (c.rowsLeft ++ p.rowsLeft) = true → c.team ≠ p.team →
      Leads .mpairStart (.mpairStart c.core) s fun t =>
        (∃ x, t.cmd i = some x ∧ x.phase = 4 ∧ x.mate = some m) ∧ (∃ y, t.cmd m = some y ∧ y.phase = 4 ∧ y.mate = some i) ∧
        ∀ rid u, c.res = some rid → c.grp ≠ p.grp → s.team c.team = some u → Answered s t c.grp rid ((u.handle % 65535 + 1) * 2 ^ 16))) ∧
  (∀ s i c rid, s.fly.cmds = [(i, c)] → s.fly.reqs = [] → s.fly.posts = [] → c.kind = 0xBD → c.phase ≤ 3 → c.res = some rid → NoneOwed s →
    (c.t0 + 4096 ≤ s.sys.clk → Leads .mpairTimeout (.mpairTimeout i) s fun t => t.fly.cmds = [] ∧ Answered s t c.grp rid 11) ∧
    (s.sys.clk < c.t0 + 4096 → Leads .mpairTimeout (.mpairTimeout i) s fun t => t = s)) ∧
  (∀ s i x t, s.fly.scrubs = [(i, x)] → Still s → Calm s → s.team x.team = some t → Memory.wf s.core.sram = true →
    Leads .scrubZero (.scrubZero i) s fun u => u.fly.scrubs = [] ∧ ∀ r ∈ x.rows, (u.srow t r).scrub = false ∧ (u.srow t r).poison = false ∧
      ∀ b, b < 256 → memByte u.core.sram (padKey t (256 * r) + b) = 0#8) ∧
  ∀ s core bank,
    ((∀ n h, roleOf (s.coreAt core) bank ≠ .scrub n h) → Leads .bankScrubDone (.bankScrubDone core bank) s fun t => t = s) ∧
    ∀ n h, roleOf (s.coreAt core) bank = .scrub n h → NoneOwed s → Leads .bankScrubDone (.bankScrubDone core bank) s fun t =>
      roleOf (t.coreAt core) bank = (if n = 0 then .partL1 else if n = 1 then .scratch else .fifo) ∧
      (∀ a, core * 2 ^ 20 + bank * 2 ^ 15 ≤ a → a < core * 2 ^ 20 + (bank + 1) * 2 ^ 15 → memByte t.core.sram a = 0#8) ∧
      (∀ j, j < 128 → tget t.core.sramTags (core * 4096 + bank * 128 + j) = some ⟨0, false, h.map (fun x => x.2.2), false⟩) ∧
      ∀ k rid d, h = some (k, rid, d) → Answered s t k rid 0

/-! ## Events: time, links, the package -/

/-- R112, R115, R116: reconciliation of the quarter clocks; the phases of a rebase, from a report to the end. -/
def Obligations.Rebasing : Prop :=
  ∀ s,
    (s.sys.fab % 4096 ≠ 0 → Leads .qclkReconcile .qclkReconcile s fun t => t = s) ∧
    (s.sys.fab % 4096 = 0 → (∀ q, q < 4 → (s.dir q).ep = (s.dir 0).ep) → Leads .qclkReconcile .qclkReconcile s fun t =>
      let top := max (max (s.dir 0).qclk (s.dir 1).qclk) (max (s.dir 2).qclk (s.dir 3).qclk)
      ∀ q, q < 4 → (t.dir q).qfloor = max (s.dir q).qfloor top ∧ (t.dir q).regions = (s.dir q).regions ∧ (t.dir q).ep = (s.dir q).ep) ∧
    (s.sys.tsReport = true → s.sys.rebase = none → Leads .rebaseStart .rebaseStart s fun t => ∃ r, t.sys.rebase = some r ∧ r.phase = 2 ∧
      t.sys.tsReport = false ∧ (∀ n, n < 128 → .slice n ∈ r.units) ∧ (∀ n, n < 4 → .directory n ∈ r.units ∧ .curator n ∈ r.units) ∧
      (∀ n, n < 8 → .stack n ∈ r.units) ∧ (∀ n, n < 192 → .msgUnit n ∈ r.units ∧ .engines n ∈ r.units) ∧ .distributor ∈ r.units ∧
      .control ∈ r.units ∧ .bridge ∈ r.units ∧ t.mem = s.mem) ∧
    (s.sys.tsReport = false ∨ s.sys.rebase ≠ none → Leads .rebaseStart .rebaseStart s fun t => t = s) ∧
    (∀ u, (∀ r, s.sys.rebase = some r → r.phase ≠ 2 ∨ u ∉ r.units) → Leads .unitRebase (.unitRebase u) s fun t => t = s) ∧
    (∀ u r, s.sys.rebase = some r → r.phase = 2 → u ∈ r.units → Leads .unitRebase (.unitRebase u) s fun t =>
      let ep := newEpoch s
      t.sys.rebase = some { r with units := r.units.filter (· != u) } ∧ t.mem.dram = s.mem.dram ∧ t.work.groups = s.work.groups ∧
      (∀ n, u = .slice n → (t.slice n).ep = ep ∧ ∀ lk l, tget s.mem.lines lk = some l → lk / 8192 = n →
        ∃ x, tget t.mem.lines lk = some x ∧ (⟨x.wts, x.ep⟩ : Ts) = inEpoch ⟨l.wts, l.ep⟩ ep ∧ (⟨x.rts, x.ep⟩ : Ts) = inEpoch ⟨l.rts, l.ep⟩ ep ∧
          x.data = l.data) ∧
      (∀ n, u = .directory n → (s.dir n).ep ≠ ep → (t.dir n).qclk = (s.dir n).qclk - 2 ^ 38 ∧ (t.dir n).qfloor = (s.dir n).qfloor - 2 ^ 38 ∧
        (t.dir n).ep = ep) ∧
      (∀ n, u = .stack n → t.engineClock n = inEpoch (s.engineClock n) ep) ∧
      (u = .bridge → (⟨t.mem.bridge.hts, t.mem.bridge.ep⟩ : Ts) = inEpoch ⟨s.mem.bridge.hts, s.mem.bridge.ep⟩ ep) ∧
      (u = .distributor → ∀ id g, s.grid id = some g → ∃ x, t.grid id = some x ∧ x.gts = inEpoch g.gts ep ∧ x.rel = inEpoch g.rel ep) ∧
      (∀ n d, u = .curator n → d % 4 = n → ∀ x, tget s.adm.doms d = some x → (t.dom d).cur.gfloor = inEpoch x.cur.gfloor ep) ∧
      (∀ n i m, u = .msgUnit n → tget s.fly.msgs i = some m → m.core = n → ∃ x, tget t.fly.msgs i = some x ∧ x.gts = inEpoch m.gts ep) ∧
      (∀ n i c, u = .engines n → s.cmd i = some c → c.core = n → ∃ x, t.cmd i = some x ∧ x.cts = inEpoch c.cts ep ∧
        x.maxts = inEpoch c.maxts ep) ∧
      (u = .control → ∀ d x, tget s.adm.doms d = some x → ((t.dom d).inbox.map fun c => c.gts) = x.inbox.map fun c => inEpoch c.gts ep)) ∧
    (∀ r, s.sys.rebase = some r → r.phase = 2 →
      (r.units = [] → Leads .rebaseEpochBroadcast .rebaseEpochBroadcast s fun t => t.sys.rbc = (s.sys.rbc + 1) % 2 ^ 16 ∧
        newEpoch t = ((s.sys.rbc + 1) % 2 == 1) ∧ ∃ x, t.sys.rebase = some x ∧ x.phase = 4 ∧ ∀ n, n < 192 → n ∈ x.cores) ∧
      (r.units ≠ [] → Leads .rebaseEpochBroadcast .rebaseEpochBroadcast s fun t => t = s)) ∧
    (∀ core r, s.sys.rebase = some r → r.phase = 4 → core ∈ r.cores → Leads .coreRebase (.coreRebase core) s fun t =>
      let ep := newEpoch s
      t.sys.rebase = some { r with cores := r.cores.filter (· != core) } ∧ (t.coreAt core).epoch = ep ∧
      ∀ k g, s.group k = some g →
        (s.coreOf g = core → g.st ∈ [.ready, .blocked, .fault, .rendezvous, .stopped] → t.group k = some { g with gts := inEpoch g.gts ep }) ∧
        (s.coreOf g ≠ core ∨ g.st ∈ [.issuing, .results, .held, .frozen, .evicted] → t.group k = some g)) ∧
    ∀ r, s.sys.rebase = some r → r.phase = 4 →
      (r.cores = [] → Leads .rebaseComplete .rebaseComplete s fun t => t = s.setSys { s.sys with rebase := none, tsReport := false }) ∧
      (r.cores ≠ [] → Leads .rebaseComplete .rebaseComplete s fun t => t = s)

/-- R167, R168, R307: the states of a peer link, and what becomes of a message that is out on one that goes down. -/
def Sys2Proof.Claims.Links : Prop :=
  ∀ s n,
    (∀ f : Nat → Nat → Happening, ∀ i, ((f = .linkEnable ∧ i = .linkEnable) ∨ (f = .linkDisable ∧ i = .linkDisable)) → s.sys.fatal = none →
      7 < n → Leads i (f 0 n) s fun t => t = setStatus s 0 3) ∧
    (n < 8 → s.sys.fatal = none → (s.link n).st ≠ 0 → Leads .linkEnable (.linkEnable 0 n) s fun t => t = setStatus s 0 1) ∧
    (n < 8 → s.sys.fatal = none → ((s.link n).st = 0 ∨ (s.link n).st = 1) → Leads .linkDisable (.linkDisable 0 n) s fun t => t = setStatus s 0 1) ∧
    (LinksIdle s n →
      (s.sys.fatal = none → (s.link n).st = 0 → Leads .linkEnable (.linkEnable 0 n) s fun t => LinkNow s t n 1 0 ∧ tget t.sys.status 0 = some 0) ∧
      (s.sys.fatal = none → (s.link n).st ∈ [2, 3, 4] → Leads .linkDisable (.linkDisable 0 n) s fun t =>
        LinkNow s t n 0 0 ∧ tget t.sys.status 0 = some 0) ∧
      (∀ lanes hash, (s.link n).st = 1 → Leads .linkTrained (.linkTrained n lanes hash) s fun t =>
        (lanes = 4 → LinkNow s t n 2 4 ∧ (t.link n).hash = hash % 2 ^ 384) ∧
        (lanes = 2 ∨ lanes = 3 → LinkNow s t n 3 2 ∧ (t.link n).hash = hash % 2 ^ 384) ∧ (lanes < 2 → t = s)) ∧
      ((s.link n).st = 1 → Leads .linkTrainingFail (.linkTrainingFail n) s fun t => LinkNow s t n 4 0 ∧ t.sys.irqs = s.sys.irqs ++ [(0, 8)]) ∧
      ((s.link n).st = 2 → Leads .laneFail (.laneFail n) s fun t => LinkNow s t n 3 2) ∧
      ((s.link n).st = 3 → Leads .linkRetrainUp (.linkRetrainUp n) s fun t => LinkNow s t n 2 4) ∧
      ((s.link n).st = 3 → Leads .linkFault (.linkFault n) s fun t => LinkNow s t n 4 0)) ∧
    ((s.link n).st ≠ 1 → (∀ lanes hash, Leads .linkTrained (.linkTrained n lanes hash) s fun t => t = s) ∧
      Leads .linkTrainingFail (.linkTrainingFail n) s fun t => t = s) ∧
    ((s.link n).st ≠ 2 → Leads .laneFail (.laneFail n) s fun t => t = s) ∧
    ((s.link n).st ≠ 3 → (Leads .linkRetrainUp (.linkRetrainUp n) s fun t => t = s) ∧ Leads .linkFault (.linkFault n) s fun t => t = s) ∧
    ∀ i m rid g, n < 8 → s.sys.links.length = 8 → s.fly.msgs = [(i, m)] → m.link = some n → m.res = some rid → Still s → NoneOwed s →
      s.group m.grp = some g → g.run ≠ none → g.btraps = [] → (s.link n).st = 3 → Leads .linkFault (.linkFault n) s fun t =>
        LinkNow s t n 4 0 ∧ t.fly.msgs = [] ∧ Answered s t m.grp rid 4 ∧
        ∃ x, t.group m.grp = some x ∧ x.btraps.map (·.cause) = [0x12] ∧ x.btraps.map (·.info) = [n]

/-- R22, R158, R377 to R380: the fatal errors; the steps of the arithmetic clock; a rail out of tolerance and a reset, which leave nothing but the
bytes of memory, and bring-up. -/
def Sys2Proof.Claims.Package : Prop :=
  ∀ s,
    (s.sys.fatal = none → (Leads .fabricError .fabricError s fun t => FatalNow s t 4 6) ∧
      Leads .thermalStop .thermalStop s fun t => FatalNow s t 5 7) ∧
    (s.sys.fatal ≠ none → (Leads .fabricError .fabricError s fun t => t = s) ∧ Leads .thermalStop .thermalStop s fun t => t = s) ∧
    (Leads .thermalClockStep (.thermalClockStep true) s fun t =>
      t = s.setSys { s.sys with mhz := max 500 (s.sys.mhz - 50), throttle := true }) ∧
    (Leads .thermalClockStep (.thermalClockStep false) s fun t => t = s.setSys { s.sys with throttle := false }) ∧
    (Leads .powerClockStep (.powerClockStep false) s fun t => t = s.setSys { s.sys with mhz := max 500 (s.sys.mhz - 50) }) ∧
    (Leads .powerClockStep (.powerClockStep true) s fun t =>
      t = if s.sys.throttle then s else s.setSys { s.sys with mhz := min 1000 (s.sys.mhz + 50) }) ∧
    (Always .railFault .railFault s fun t => t.sys.up = false ∧ t.sys.rail = true ∧ t.adm = State.reset.adm ∧ t.work = State.reset.work ∧
      t.core = State.reset.core ∧ t.fly = State.reset.fly ∧ t.mem.dram = s.mem.dram ∧ t.mem.host = s.mem.host) ∧
    ∀ b : BringUp, Always .deviceReset (.deviceReset b) s fun t =>
      t.adm = State.reset.adm ∧ t.work = State.reset.work ∧ t.core = State.reset.core ∧ t.fly = State.reset.fly ∧ t.mem.dram = s.mem.dram ∧
      t.mem.host = s.mem.host ∧ t.mem.lines = [] ∧ t.sys.keys = [] ∧ t.sys.frameKeys = [] ∧ t.sys.fatal = none ∧
      t.sys.resets = s.sys.resets + 1 ∧ (∀ n, n < 8 → (t.link n).st = 0) ∧ (∀ d, (t.dom d).st = .free) ∧ (∀ p, (t.part p).committed = false) ∧
      (b.bypass = [] → (b.hostLanes = 16 ∨ b.hostLanes = 8) → (∀ d, d < 4 → ∃ n, n < 32 ∧ (d, n) ∉ b.harvest) → b.tbase % 2 ^ 14 = 0 →
        b.tsize % 2 ^ 14 = 0 → b.tbase + b.tsize ≤ 2 ^ 39 → t.sys.up = true ∧ t.sys.tbase = b.tbase ∧ t.sys.tsize = b.tsize) ∧
      (b.hostLanes ≠ 16 → b.hostLanes ≠ 8 → t.sys.up = false) ∧
      ∀ d, d < 4 → (∀ n, n < 32 → (d, n) ∈ b.harvest) → t.sys.up = false

/-- R167 to R169, R377 to R380: peer links, and the package. -/
def Obligations.LinksAndPackage : Prop :=
  Sys2Proof.Claims.Links ∧ Sys2Proof.Claims.Package

/-! ## The encoding, the fetch, the step, reset and the invariant -/

/-- 16 R253, R254 and the worked encodings of 16 to 19: the words that the specification writes out decode to what it says they are,
and those it calls illegal do not decode; the all-zero word is a NOP (R252). -/
def Obligations.WorkedEncodings : Prop :=
  (∀ e ∈ workedWords, decodeWord e.1 = .ok e.2) ∧ (∀ w ∈ illegalWords, Refused w) ∧
  decodeWord 0#64 = .ok (.nop (plainR (bare false) .none .none .none .none 0#4))

/-- R253 clauses 1, 2, 3 and 8, R242, R247: a reserved opcode of a full form, of a scalar or of a vector pair operation, a guard that says
never, an I-form word with a bit set in [9:4], a terminator without B, and an M-form word with a width or scope code above 4 are illegal. -/
def Obligations.IllegalWords : Prop :=
  ∀ w : Bits64,
    let n := w.toNat
    let op := fld n 50 8
    (fld n 62 1 = 0 → (op ∈ [0x4F, 0x6F, 0x77, 0x7F, 0xAF, 0xB7] ∨ (0x57 ≤ op ∧ op ≤ 0x5F) ∨ (0x94 ≤ op ∧ op ≤ 0x9F) ∨
      (0xC2 ≤ op ∧ op ≤ 0xCF) ∨ 0xD9 ≤ op) → decodeWord w = .error .reservedOpcode) ∧
    (fld n 62 1 = 1 → (0x0F ≤ fld n 52 6 ∨ 0x1B ≤ fld n 25 7) → decodeWord w = .error .reservedOpcode) ∧
    (fld n 61 1 = 1 → fld n 58 3 = 0 → Refused w) ∧
    (fld n 62 1 = 0 → op ∈ [0x01, 0x02, 0x04, 0x06, 0x08, 0x0A, 0x0F, 0x29, 0x2A, 0xD0, 0xD1, 0xD4] → fld n 4 6 ≠ 0 → Refused w) ∧
    (fld n 62 1 = 0 → op ∈ terminators → fld n 63 1 = 0 → Refused w) ∧
    (fld n 62 1 = 0 → ((0x80 ≤ op ∧ op ≤ 0x93) ∨ (0xA0 ≤ op ∧ op ≤ 0xA5)) → (5 ≤ fld n 9 3 ∨ 5 ≤ fld n 4 3) → Refused w)

/-- Decoding what the encoder writes for a legal word of any form gives that instruction back, with every operand (16 R240 to R253). -/
def Obligations.DecodeAfterEncode : Prop :=
  ∀ i : Instr, i.wf = true → i.isWord = true → ∃ w, encode i = some w ∧ decodeWord w = .ok i

/-- A word that decodes has one meaning, which is legal, and its encoding is that word: no bit of a legal word is ignored. -/
def Obligations.EncodeAfterDecode : Prop :=
  ∀ w i, decodeWord w = .ok i → i.wf = true ∧ i.isWord = true ∧ encode i = some w

/-- R42, R54, R140, R145, R151: a run that is fetched is at most 24 words long and ends at its first word with B = 1; each word holds the 8
bytes, lowest first, that stand at its address, or, of a word that the host has rewritten under a grid in progress, that stood there
before, under a translation that permits execution, with that page's key; the fetch changes no memory and no cache. -/
def Obligations.FetchedRun : Prop :=
  ∀ s core did pc ws s1, pc < 2 ^ 57 → fetchRun s core did pc 24 = .words ws s1 →
    s1.mem.dram = s.mem.dram ∧ s1.mem.host = s.mem.host ∧ s1.mem.lines = s.mem.lines ∧ s1.work = s.work ∧ ws.length ≤ 24 ∧
    (∀ w, ws.length < 24 → ws.getLast? = some w → w.getLsbD 63 = true) ∧
    ∀ i w, ws[i]? = some w → (i + 1 < ws.length → w.getLsbD 63 = false) ∧
      let a := (pc + 8 * i) % 2 ^ 57
      ∃ e, FetchEntry s core did a e ∧ (w = BitVec.ofNat 64 (leVal (peek s (physOf e (core / 48) a) 8)) ∨
        ∃ old, tget s.mem.oldText (physOf e (core / 48) a / 8) = some old ∧ w = BitVec.ofNat 64 old)

/-- The step takes the turn that is due. A word's turn runs the instruction that the next word of the run encodes, with the unit named as
the one that issues; a word that encodes none traps with ILLEGAL_OPCODE (16 R254); an event's turn lets time pass and runs the event;
with nothing due, the turn is one that nothing constrains. -/
def Obligations.StepRunsTheWord : Prop :=
  (∀ s k rest g r w ws, s.ctl.agenda = .word k :: rest → s.group k = some g → g.run = some r → r.closed = false → g.st ≠ .stopped →
    r.words = w :: ws →
    let s1 := s.setCtl { s.ctl with agenda := rest, ev := none, cur := some k }
    (∀ i, decodeWord w = .ok i → step s = exec i s1) ∧
    (Refused w → ∃ t x q y, step s = .next t ∧ t.group k = some x ∧ x.run = some q ∧ q.trap = some y ∧ y.cause = 0x01 ∧ y.pc = r.pc ∧
      y.info = w.toNat ∧ q.closed = true)) ∧
  (∀ s h rest, s.ctl.agenda = .event h :: rest → step s = exec h.row (offer (elapse (s.setCtl { s.ctl with agenda := rest })) h)) ∧
  ∀ s, s.ctl.agenda = [] →
    let s1 := s.setCtl { s.ctl with agenda := [Config.freeTurn s.ctl.free], free := s.ctl.free + 1 }
    step s = step s1

/-- R22, R380 and the model's choices for what they leave open (log 3, 5): right at reset the device is not up, nothing is fatal, every
domain is FREE, every partition uncommitted, no group, grid or team exists, every register row, s-register and byte of SRAM is 0 and
nobody's, every key is gone, every clock is 0, and nothing is cached or in flight. -/
def Obligations.ResetValues : Prop :=
  let s := State.reset
  s.sys.up = false ∧ s.sys.fatal = none ∧ s.sys.clk = 0 ∧ s.sys.rbc = 0 ∧ s.sys.keys = [] ∧ s.sys.peers = [] ∧
  (∀ d, (s.dom d).st = .free ∧ (s.dom d).counters = List.replicate 16 0) ∧ (∀ p, (s.part p).committed = false) ∧
  (∀ k, s.group k = none ∧ s.team k = none ∧ s.grid k = none) ∧
  (∀ core r, s.rowTag core r = ⟨none, false⟩) ∧ (∀ core g r l, l < 32 → (s.teamRowVals g r).getD l 0#32 = 0#32 ∧ (s.coreAt core).tlb = []) ∧
  (∀ k, tget s.core.sregs k = none) ∧ (∀ a, memByte s.core.sram a = 0#8) ∧ s.mem.lines = [] ∧ s.mem.bridge.hts = 0 ∧
  s.fly.reqs = [] ∧ s.fly.posts = [] ∧ s.fly.msgs = [] ∧ s.fly.cmds = [] ∧ s.ctl.agenda = []

/-- The byte memories stand in their canonical form right at reset. -/
def Obligations.MemoriesCanonicalAtReset : Prop := Safety.MemoriesWf State.reset

/-- Every step keeps the canonical form of device memory, host memory and SRAM: addresses rise strictly, and no byte is listed that an
unlisted address would read as. -/
def Obligations.MemoriesStayCanonical : Prop := ∀ s t, Safety.MemoriesWf s → step s = .next t → Safety.MemoriesWf t

/-! ## What words and events leave that complete -/

/-- R306 to R316, R129, R131: each access of a store, a prefetch, a probe, an atomic or a queue word stands as a request of its own line with
its lane, address and data when the word has issued; a range operation holds its group until it has acted on its range, after the
accesses before it; FENCE holds the later writes of its path, and its group, for the accesses before it. -/
def Obligations.MemoryRequests : Prop :=
  (∀ x ∈ requestRows, ∀ w s c, Issuing s w.h c → x.1.Ready w s c → x.1.Reach w s c → (x.1.op ∈ [0x8C, 0x8D, 0x8E] → x.1.Apart w s c) →
    (x.1.remote w = true → remoteRefusal s c (linkOf s c w) = none) → x.1.PagesServe w s c (x.2 w) →
    ∃ t, exec (x.1.make w) s = .next t ∧ Moved s t c w.h ∧ SameValues s t c ∧
      ∀ l ∈ accessLanes c w, x.1.Asks w s t c l fun o => o = x.2 w) ∧
  (∀ w s c, Issuing s w.h c → mstRow.Ready w s c → mstRow.Reach w s c →
    ∃ t, exec (.mst w) s = .next t ∧ Moved s t c w.h ∧ SameValues s t c ∧
      ∀ l ∈ accessLanes c w, mstRow.Asks w s t c l fun o => o = .mst 0 ∨ o = .store) ∧
  (∀ e ∈ rangeRows, ∀ w s c, Issuing s w.h c → e.Ready w s c → e.Reach w s c → Quiet s →
    (∀ l ∈ accessLanes c w, dataAt s c w 0 1 l ≠ 0 → (e.addr w s c l).toNat + dataAt s c w 0 1 l < 2 ^ 57) →
    ∃ t g r, exec (e.make w) s = .next t ∧ Moved s t c w.h ∧ SameValues s t c ∧ t.group c.k = some g ∧ g.run = some r ∧
      ∀ l ∈ accessLanes c w, dataAt s c w 0 1 l ≠ 0 → ∃ i ∈ r.fence, s.ctl.nextId ≤ i ∧
        ((groupAccesses s c.k ≠ [] ∨ bits (s.part (((s.teamOf c.g).map (·.part)).getD 0)).lim0.toNat 47 32 ≠ 0) →
          ∃ q, t.req i = some q ∧ q.grp = c.k ∧ q.waits = groupAccesses s c.k ∧
            q.op = (if e.op = 0x89 then .clean else if e.op = 0x8A then .inval else .flush) ∧
            q.lanes.map (fun a => (a.lane, a.va, a.data)) = [(l, (e.addr w s c l).toNat, dataAt s c w 0 1 l)])) ∧
  ∀ w s c, Issuing s w.h c → ∃ t g r, exec (.fence w) s = .next t ∧ Moved s t c w.h ∧ SameValues s t c ∧ t.group c.k = some g ∧
    g.run = some r ∧
    (c.act = 0#32 ∨ w.order = .acq → r.hold = c.r.hold ∧ r.fence = c.r.fence) ∧
    (c.act ≠ 0#32 → w.order ≠ .acq → ∀ i ∈ lanesAccesses s c.k c.r.gang, i ∈ r.hold) ∧
    (c.act ≠ 0#32 → w.order = .plain → ∀ i ∈ groupAccesses s c.k, i ∈ r.fence)

/-- R170 to R178, R191 to R196: what a phaser instruction, a word of the deaccession ring and each event of a grace period leave. -/
def Obligations.PhaserAndCuratorCompletions : Prop :=
  Sys2Proof.Claims.PhaserCompletions ∧ Sys2Proof.Claims.DeaccessionCompletions ∧ Sys2Proof.Claims.CuratorCompletions
end

