-- ==== Sys2Proof/Laws/State.lean ====
section
/-! SUPPORT. What each update of the state leaves: one lemma per field per update, true by unfolding. -/

namespace Sys2Proof.Machine

@[simp] theorem State.setSys_sys (s : State) (x : Sys) : (s.setSys x).sys = x := rfl
@[simp] theorem State.setSys_adm (s : State) (x : Sys) : (s.setSys x).adm = s.adm := rfl
@[simp] theorem State.setSys_work (s : State) (x : Sys) : (s.setSys x).work = s.work := rfl
@[simp] theorem State.setSys_core (s : State) (x : Sys) : (s.setSys x).core = s.core := rfl
@[simp] theorem State.setSys_mem (s : State) (x : Sys) : (s.setSys x).mem = s.mem := rfl
@[simp] theorem State.setSys_fly (s : State) (x : Sys) : (s.setSys x).fly = s.fly := rfl
@[simp] theorem State.setSys_ctl (s : State) (x : Sys) : (s.setSys x).ctl = s.ctl := rfl
@[simp] theorem State.setAdm_sys (s : State) (x : Admin) : (s.setAdm x).sys = s.sys := rfl
@[simp] theorem State.setAdm_adm (s : State) (x : Admin) : (s.setAdm x).adm = x := rfl
@[simp] theorem State.setAdm_work (s : State) (x : Admin) : (s.setAdm x).work = s.work := rfl
@[simp] theorem State.setAdm_core (s : State) (x : Admin) : (s.setAdm x).core = s.core := rfl
@[simp] theorem State.setAdm_mem (s : State) (x : Admin) : (s.setAdm x).mem = s.mem := rfl
@[simp] theorem State.setAdm_fly (s : State) (x : Admin) : (s.setAdm x).fly = s.fly := rfl
@[simp] theorem State.setAdm_ctl (s : State) (x : Admin) : (s.setAdm x).ctl = s.ctl := rfl
@[simp] theorem State.setWork_sys (s : State) (x : Work) : (s.setWork x).sys = s.sys := rfl
@[simp] theorem State.setWork_adm (s : State) (x : Work) : (s.setWork x).adm = s.adm := rfl
@[simp] theorem State.setWork_work (s : State) (x : Work) : (s.setWork x).work = x := rfl
@[simp] theorem State.setWork_core (s : State) (x : Work) : (s.setWork x).core = s.core := rfl
@[simp] theorem State.setWork_mem (s : State) (x : Work) : (s.setWork x).mem = s.mem := rfl
@[simp] theorem State.setWork_fly (s : State) (x : Work) : (s.setWork x).fly = s.fly := rfl
@[simp] theorem State.setWork_ctl (s : State) (x : Work) : (s.setWork x).ctl = s.ctl := rfl
@[simp] theorem State.setCore_sys (s : State) (x : CoreSpace) : (s.setCore x).sys = s.sys := rfl
@[simp] theorem State.setCore_adm (s : State) (x : CoreSpace) : (s.setCore x).adm = s.adm := rfl
@[simp] theorem State.setCore_work (s : State) (x : CoreSpace) : (s.setCore x).work = s.work := rfl
@[simp] theorem State.setCore_core (s : State) (x : CoreSpace) : (s.setCore x).core = x := rfl
@[simp] theorem State.setCore_mem (s : State) (x : CoreSpace) : (s.setCore x).mem = s.mem := rfl
@[simp] theorem State.setCore_fly (s : State) (x : CoreSpace) : (s.setCore x).fly = s.fly := rfl
@[simp] theorem State.setCore_ctl (s : State) (x : CoreSpace) : (s.setCore x).ctl = s.ctl := rfl
@[simp] theorem State.setMem_sys (s : State) (x : MemSys) : (s.setMem x).sys = s.sys := rfl
@[simp] theorem State.setMem_adm (s : State) (x : MemSys) : (s.setMem x).adm = s.adm := rfl
@[simp] theorem State.setMem_work (s : State) (x : MemSys) : (s.setMem x).work = s.work := rfl
@[simp] theorem State.setMem_core (s : State) (x : MemSys) : (s.setMem x).core = s.core := rfl
@[simp] theorem State.setMem_mem (s : State) (x : MemSys) : (s.setMem x).mem = x := rfl
@[simp] theorem State.setMem_fly (s : State) (x : MemSys) : (s.setMem x).fly = s.fly := rfl
@[simp] theorem State.setMem_ctl (s : State) (x : MemSys) : (s.setMem x).ctl = s.ctl := rfl
@[simp] theorem State.setFly_sys (s : State) (x : Flight) : (s.setFly x).sys = s.sys := rfl
@[simp] theorem State.setFly_adm (s : State) (x : Flight) : (s.setFly x).adm = s.adm := rfl
@[simp] theorem State.setFly_work (s : State) (x : Flight) : (s.setFly x).work = s.work := rfl
@[simp] theorem State.setFly_core (s : State) (x : Flight) : (s.setFly x).core = s.core := rfl
@[simp] theorem State.setFly_mem (s : State) (x : Flight) : (s.setFly x).mem = s.mem := rfl
@[simp] theorem State.setFly_fly (s : State) (x : Flight) : (s.setFly x).fly = x := rfl
@[simp] theorem State.setFly_ctl (s : State) (x : Flight) : (s.setFly x).ctl = s.ctl := rfl
@[simp] theorem State.setCtl_sys (s : State) (x : Control) : (s.setCtl x).sys = s.sys := rfl
@[simp] theorem State.setCtl_adm (s : State) (x : Control) : (s.setCtl x).adm = s.adm := rfl
@[simp] theorem State.setCtl_work (s : State) (x : Control) : (s.setCtl x).work = s.work := rfl
@[simp] theorem State.setCtl_core (s : State) (x : Control) : (s.setCtl x).core = s.core := rfl
@[simp] theorem State.setCtl_mem (s : State) (x : Control) : (s.setCtl x).mem = s.mem := rfl
@[simp] theorem State.setCtl_fly (s : State) (x : Control) : (s.setCtl x).fly = s.fly := rfl
@[simp] theorem State.setCtl_ctl (s : State) (x : Control) : (s.setCtl x).ctl = x := rfl
@[simp] theorem State.setGroup_sys (s : State) (k : Nat) (g : Group) : (s.setGroup k g).sys = s.sys := rfl
@[simp] theorem State.setGroup_adm (s : State) (k : Nat) (g : Group) : (s.setGroup k g).adm = s.adm := rfl
@[simp] theorem State.setGroup_core (s : State) (k : Nat) (g : Group) : (s.setGroup k g).core = s.core := rfl
@[simp] theorem State.setGroup_mem (s : State) (k : Nat) (g : Group) : (s.setGroup k g).mem = s.mem := rfl
@[simp] theorem State.setGroup_fly (s : State) (k : Nat) (g : Group) : (s.setGroup k g).fly = s.fly := rfl
@[simp] theorem State.setGroup_ctl (s : State) (k : Nat) (g : Group) : (s.setGroup k g).ctl = s.ctl := rfl
@[simp] theorem State.setGroup_work_grids (s : State) (k : Nat) (g : Group) : (s.setGroup k g).work.grids = s.work.grids := rfl
@[simp] theorem State.setGroup_work_teams (s : State) (k : Nat) (g : Group) : (s.setGroup k g).work.teams = s.work.teams := rfl
@[simp] theorem State.setGroup_work_groups (s : State) (k : Nat) (g : Group) : (s.setGroup k g).work.groups = tset s.work.groups k g := rfl
@[simp] theorem State.modGroup_sys (s : State) (k : Nat) (f : Group → Group) : (s.modGroup k f).sys = s.sys := rfl
@[simp] theorem State.modGroup_adm (s : State) (k : Nat) (f : Group → Group) : (s.modGroup k f).adm = s.adm := rfl
@[simp] theorem State.modGroup_core (s : State) (k : Nat) (f : Group → Group) : (s.modGroup k f).core = s.core := rfl
@[simp] theorem State.modGroup_mem (s : State) (k : Nat) (f : Group → Group) : (s.modGroup k f).mem = s.mem := rfl
@[simp] theorem State.modGroup_fly (s : State) (k : Nat) (f : Group → Group) : (s.modGroup k f).fly = s.fly := rfl
@[simp] theorem State.modGroup_ctl (s : State) (k : Nat) (f : Group → Group) : (s.modGroup k f).ctl = s.ctl := rfl
@[simp] theorem State.modGroup_work_grids (s : State) (k : Nat) (f : Group → Group) : (s.modGroup k f).work.grids = s.work.grids := rfl
@[simp] theorem State.modGroup_work_teams (s : State) (k : Nat) (f : Group → Group) : (s.modGroup k f).work.teams = s.work.teams := rfl
@[simp] theorem State.modGroup_work_groups (s : State) (k : Nat) (f : Group → Group) : (s.modGroup k f).work.groups = tmod s.work.groups k f := rfl
@[simp] theorem State.mapGroups_sys (s : State) (f : Nat → Group → Group) : (s.mapGroups f).sys = s.sys := rfl
@[simp] theorem State.mapGroups_adm (s : State) (f : Nat → Group → Group) : (s.mapGroups f).adm = s.adm := rfl
@[simp] theorem State.mapGroups_core (s : State) (f : Nat → Group → Group) : (s.mapGroups f).core = s.core := rfl
@[simp] theorem State.mapGroups_mem (s : State) (f : Nat → Group → Group) : (s.mapGroups f).mem = s.mem := rfl
@[simp] theorem State.mapGroups_fly (s : State) (f : Nat → Group → Group) : (s.mapGroups f).fly = s.fly := rfl
@[simp] theorem State.mapGroups_ctl (s : State) (f : Nat → Group → Group) : (s.mapGroups f).ctl = s.ctl := rfl
@[simp] theorem State.mapGroups_work_grids (s : State) (f : Nat → Group → Group) : (s.mapGroups f).work.grids = s.work.grids := rfl
@[simp] theorem State.mapGroups_work_teams (s : State) (f : Nat → Group → Group) : (s.mapGroups f).work.teams = s.work.teams := rfl
@[simp] theorem State.mapGroups_work_groups (s : State) (f : Nat → Group → Group) : (s.mapGroups f).work.groups = s.work.groups.map fun e => (e.1, f e.1 e.2) := rfl
@[simp] theorem State.modRun_sys (s : State) (k : Nat) (f : Run → Run) : (s.modRun k f).sys = s.sys := rfl
@[simp] theorem State.modRun_adm (s : State) (k : Nat) (f : Run → Run) : (s.modRun k f).adm = s.adm := rfl
@[simp] theorem State.modRun_core (s : State) (k : Nat) (f : Run → Run) : (s.modRun k f).core = s.core := rfl
@[simp] theorem State.modRun_mem (s : State) (k : Nat) (f : Run → Run) : (s.modRun k f).mem = s.mem := rfl
@[simp] theorem State.modRun_fly (s : State) (k : Nat) (f : Run → Run) : (s.modRun k f).fly = s.fly := rfl
@[simp] theorem State.modRun_ctl (s : State) (k : Nat) (f : Run → Run) : (s.modRun k f).ctl = s.ctl := rfl
@[simp] theorem State.modRun_work_grids (s : State) (k : Nat) (f : Run → Run) : (s.modRun k f).work.grids = s.work.grids := rfl
@[simp] theorem State.modRun_work_teams (s : State) (k : Nat) (f : Run → Run) : (s.modRun k f).work.teams = s.work.teams := rfl
@[simp] theorem State.modRun_work_groups (s : State) (k : Nat) (f : Run → Run) : (s.modRun k f).work.groups = tmod s.work.groups k fun g => { g with run := g.run.map f } := rfl
@[simp] theorem State.setTeam_sys (s : State) (k : Nat) (t : Team) : (s.setTeam k t).sys = s.sys := rfl
@[simp] theorem State.setTeam_adm (s : State) (k : Nat) (t : Team) : (s.setTeam k t).adm = s.adm := rfl
@[simp] theorem State.setTeam_core (s : State) (k : Nat) (t : Team) : (s.setTeam k t).core = s.core := rfl
@[simp] theorem State.setTeam_mem (s : State) (k : Nat) (t : Team) : (s.setTeam k t).mem = s.mem := rfl
@[simp] theorem State.setTeam_fly (s : State) (k : Nat) (t : Team) : (s.setTeam k t).fly = s.fly := rfl
@[simp] theorem State.setTeam_ctl (s : State) (k : Nat) (t : Team) : (s.setTeam k t).ctl = s.ctl := rfl
@[simp] theorem State.setTeam_work_grids (s : State) (k : Nat) (t : Team) : (s.setTeam k t).work.grids = s.work.grids := rfl
@[simp] theorem State.setTeam_work_teams (s : State) (k : Nat) (t : Team) : (s.setTeam k t).work.teams = tset s.work.teams k t := rfl
@[simp] theorem State.setTeam_work_groups (s : State) (k : Nat) (t : Team) : (s.setTeam k t).work.groups = s.work.groups := rfl
@[simp] theorem State.modTeam_sys (s : State) (k : Nat) (f : Team → Team) : (s.modTeam k f).sys = s.sys := rfl
@[simp] theorem State.modTeam_adm (s : State) (k : Nat) (f : Team → Team) : (s.modTeam k f).adm = s.adm := rfl
@[simp] theorem State.modTeam_core (s : State) (k : Nat) (f : Team → Team) : (s.modTeam k f).core = s.core := rfl
@[simp] theorem State.modTeam_mem (s : State) (k : Nat) (f : Team → Team) : (s.modTeam k f).mem = s.mem := rfl
@[simp] theorem State.modTeam_fly (s : State) (k : Nat) (f : Team → Team) : (s.modTeam k f).fly = s.fly := rfl
@[simp] theorem State.modTeam_ctl (s : State) (k : Nat) (f : Team → Team) : (s.modTeam k f).ctl = s.ctl := rfl
@[simp] theorem State.modTeam_work_grids (s : State) (k : Nat) (f : Team → Team) : (s.modTeam k f).work.grids = s.work.grids := rfl
@[simp] theorem State.modTeam_work_teams (s : State) (k : Nat) (f : Team → Team) : (s.modTeam k f).work.teams = tmod s.work.teams k f := rfl
@[simp] theorem State.modTeam_work_groups (s : State) (k : Nat) (f : Team → Team) : (s.modTeam k f).work.groups = s.work.groups := rfl
@[simp] theorem State.modGrid_sys (s : State) (k : Nat) (f : Grid → Grid) : (s.modGrid k f).sys = s.sys := rfl
@[simp] theorem State.modGrid_adm (s : State) (k : Nat) (f : Grid → Grid) : (s.modGrid k f).adm = s.adm := rfl
@[simp] theorem State.modGrid_core (s : State) (k : Nat) (f : Grid → Grid) : (s.modGrid k f).core = s.core := rfl
@[simp] theorem State.modGrid_mem (s : State) (k : Nat) (f : Grid → Grid) : (s.modGrid k f).mem = s.mem := rfl
@[simp] theorem State.modGrid_fly (s : State) (k : Nat) (f : Grid → Grid) : (s.modGrid k f).fly = s.fly := rfl
@[simp] theorem State.modGrid_ctl (s : State) (k : Nat) (f : Grid → Grid) : (s.modGrid k f).ctl = s.ctl := rfl
@[simp] theorem State.modGrid_work_grids (s : State) (k : Nat) (f : Grid → Grid) : (s.modGrid k f).work.grids = tmod s.work.grids k f := rfl
@[simp] theorem State.modGrid_work_teams (s : State) (k : Nat) (f : Grid → Grid) : (s.modGrid k f).work.teams = s.work.teams := rfl
@[simp] theorem State.modGrid_work_groups (s : State) (k : Nat) (f : Grid → Grid) : (s.modGrid k f).work.groups = s.work.groups := rfl
@[simp] theorem State.setDom_sys (s : State) (d : Nat) (x : Dom) : (s.setDom d x).sys = s.sys := rfl
@[simp] theorem State.setDom_work (s : State) (d : Nat) (x : Dom) : (s.setDom d x).work = s.work := rfl
@[simp] theorem State.setDom_core (s : State) (d : Nat) (x : Dom) : (s.setDom d x).core = s.core := rfl
@[simp] theorem State.setDom_mem (s : State) (d : Nat) (x : Dom) : (s.setDom d x).mem = s.mem := rfl
@[simp] theorem State.setDom_fly (s : State) (d : Nat) (x : Dom) : (s.setDom d x).fly = s.fly := rfl
@[simp] theorem State.setDom_ctl (s : State) (d : Nat) (x : Dom) : (s.setDom d x).ctl = s.ctl := rfl
@[simp] theorem State.setDom_adm_parts (s : State) (d : Nat) (x : Dom) : (s.setDom d x).adm.parts = s.adm.parts := rfl
@[simp] theorem State.setDom_adm_doms (s : State) (d : Nat) (x : Dom) : (s.setDom d x).adm.doms = tset s.adm.doms d x := rfl
@[simp] theorem State.setDom_adm_queues (s : State) (d : Nat) (x : Dom) : (s.setDom d x).adm.queues = s.adm.queues := rfl
@[simp] theorem State.modDom_sys (s : State) (d : Nat) (f : Dom → Dom) : (s.modDom d f).sys = s.sys := rfl
@[simp] theorem State.modDom_work (s : State) (d : Nat) (f : Dom → Dom) : (s.modDom d f).work = s.work := rfl
@[simp] theorem State.modDom_core (s : State) (d : Nat) (f : Dom → Dom) : (s.modDom d f).core = s.core := rfl
@[simp] theorem State.modDom_mem (s : State) (d : Nat) (f : Dom → Dom) : (s.modDom d f).mem = s.mem := rfl
@[simp] theorem State.modDom_fly (s : State) (d : Nat) (f : Dom → Dom) : (s.modDom d f).fly = s.fly := rfl
@[simp] theorem State.modDom_ctl (s : State) (d : Nat) (f : Dom → Dom) : (s.modDom d f).ctl = s.ctl := rfl
@[simp] theorem State.modDom_adm_parts (s : State) (d : Nat) (f : Dom → Dom) : (s.modDom d f).adm.parts = s.adm.parts := rfl
@[simp] theorem State.modDom_adm_doms (s : State) (d : Nat) (f : Dom → Dom) : (s.modDom d f).adm.doms = tset s.adm.doms d (f (s.dom d)) := rfl
@[simp] theorem State.modDom_adm_queues (s : State) (d : Nat) (f : Dom → Dom) : (s.modDom d f).adm.queues = s.adm.queues := rfl
@[simp] theorem State.modPart_sys (s : State) (p : Nat) (f : Part → Part) : (s.modPart p f).sys = s.sys := rfl
@[simp] theorem State.modPart_work (s : State) (p : Nat) (f : Part → Part) : (s.modPart p f).work = s.work := rfl
@[simp] theorem State.modPart_core (s : State) (p : Nat) (f : Part → Part) : (s.modPart p f).core = s.core := rfl
@[simp] theorem State.modPart_mem (s : State) (p : Nat) (f : Part → Part) : (s.modPart p f).mem = s.mem := rfl
@[simp] theorem State.modPart_fly (s : State) (p : Nat) (f : Part → Part) : (s.modPart p f).fly = s.fly := rfl
@[simp] theorem State.modPart_ctl (s : State) (p : Nat) (f : Part → Part) : (s.modPart p f).ctl = s.ctl := rfl
@[simp] theorem State.modPart_adm_parts (s : State) (p : Nat) (f : Part → Part) : (s.modPart p f).adm.parts = tset s.adm.parts p (f (s.part p)) := rfl
@[simp] theorem State.modPart_adm_doms (s : State) (p : Nat) (f : Part → Part) : (s.modPart p f).adm.doms = s.adm.doms := rfl
@[simp] theorem State.modPart_adm_queues (s : State) (p : Nat) (f : Part → Part) : (s.modPart p f).adm.queues = s.adm.queues := rfl
@[simp] theorem State.modQueue_sys (s : State) (d q : Nat) (f : Queue → Queue) : (s.modQueue d q f).sys = s.sys := rfl
@[simp] theorem State.modQueue_work (s : State) (d q : Nat) (f : Queue → Queue) : (s.modQueue d q f).work = s.work := rfl
@[simp] theorem State.modQueue_core (s : State) (d q : Nat) (f : Queue → Queue) : (s.modQueue d q f).core = s.core := rfl
@[simp] theorem State.modQueue_mem (s : State) (d q : Nat) (f : Queue → Queue) : (s.modQueue d q f).mem = s.mem := rfl
@[simp] theorem State.modQueue_fly (s : State) (d q : Nat) (f : Queue → Queue) : (s.modQueue d q f).fly = s.fly := rfl
@[simp] theorem State.modQueue_ctl (s : State) (d q : Nat) (f : Queue → Queue) : (s.modQueue d q f).ctl = s.ctl := rfl
@[simp] theorem State.modQueue_adm_parts (s : State) (d q : Nat) (f : Queue → Queue) : (s.modQueue d q f).adm.parts = s.adm.parts := rfl
@[simp] theorem State.modQueue_adm_doms (s : State) (d q : Nat) (f : Queue → Queue) : (s.modQueue d q f).adm.doms = s.adm.doms := rfl
@[simp] theorem State.modCore_sys (s : State) (c : Nat) (f : Core → Core) : (s.modCore c f).sys = s.sys := rfl
@[simp] theorem State.modCore_adm (s : State) (c : Nat) (f : Core → Core) : (s.modCore c f).adm = s.adm := rfl
@[simp] theorem State.modCore_work (s : State) (c : Nat) (f : Core → Core) : (s.modCore c f).work = s.work := rfl
@[simp] theorem State.modCore_mem (s : State) (c : Nat) (f : Core → Core) : (s.modCore c f).mem = s.mem := rfl
@[simp] theorem State.modCore_fly (s : State) (c : Nat) (f : Core → Core) : (s.modCore c f).fly = s.fly := rfl
@[simp] theorem State.modCore_ctl (s : State) (c : Nat) (f : Core → Core) : (s.modCore c f).ctl = s.ctl := rfl
@[simp] theorem State.modCore_core_cores (s : State) (c : Nat) (f : Core → Core) : (s.modCore c f).core.cores = tset s.core.cores c (f (s.coreAt c)) := rfl
@[simp] theorem State.modCore_core_rows (s : State) (c : Nat) (f : Core → Core) : (s.modCore c f).core.rows = s.core.rows := rfl
@[simp] theorem State.modCore_core_rowTags (s : State) (c : Nat) (f : Core → Core) : (s.modCore c f).core.rowTags = s.core.rowTags := rfl
@[simp] theorem State.modCore_core_sregs (s : State) (c : Nat) (f : Core → Core) : (s.modCore c f).core.sregs = s.core.sregs := rfl
@[simp] theorem State.modCore_core_sram (s : State) (c : Nat) (f : Core → Core) : (s.modCore c f).core.sram = s.core.sram := rfl
@[simp] theorem State.modCore_core_sramTags (s : State) (c : Nat) (f : Core → Core) : (s.modCore c f).core.sramTags = s.core.sramTags := rfl
@[simp] theorem State.modCore_core_fileTags (s : State) (c : Nat) (f : Core → Core) : (s.modCore c f).core.fileTags = s.core.fileTags := rfl
@[simp] theorem State.setRow_sys (s : State) (c r : Nat) (v : List Word) : (s.setRow c r v).sys = s.sys := rfl
@[simp] theorem State.setRow_adm (s : State) (c r : Nat) (v : List Word) : (s.setRow c r v).adm = s.adm := rfl
@[simp] theorem State.setRow_work (s : State) (c r : Nat) (v : List Word) : (s.setRow c r v).work = s.work := rfl
@[simp] theorem State.setRow_mem (s : State) (c r : Nat) (v : List Word) : (s.setRow c r v).mem = s.mem := rfl
@[simp] theorem State.setRow_fly (s : State) (c r : Nat) (v : List Word) : (s.setRow c r v).fly = s.fly := rfl
@[simp] theorem State.setRow_ctl (s : State) (c r : Nat) (v : List Word) : (s.setRow c r v).ctl = s.ctl := rfl
@[simp] theorem State.setRow_core_cores (s : State) (c r : Nat) (v : List Word) : (s.setRow c r v).core.cores = s.core.cores := rfl
@[simp] theorem State.setRow_core_rows (s : State) (c r : Nat) (v : List Word) : (s.setRow c r v).core.rows = tset s.core.rows (c * 6144 + r) v := rfl
@[simp] theorem State.setRow_core_rowTags (s : State) (c r : Nat) (v : List Word) : (s.setRow c r v).core.rowTags = s.core.rowTags := rfl
@[simp] theorem State.setRow_core_sregs (s : State) (c r : Nat) (v : List Word) : (s.setRow c r v).core.sregs = s.core.sregs := rfl
@[simp] theorem State.setRow_core_sram (s : State) (c r : Nat) (v : List Word) : (s.setRow c r v).core.sram = s.core.sram := rfl
@[simp] theorem State.setRow_core_sramTags (s : State) (c r : Nat) (v : List Word) : (s.setRow c r v).core.sramTags = s.core.sramTags := rfl
@[simp] theorem State.setRow_core_fileTags (s : State) (c r : Nat) (v : List Word) : (s.setRow c r v).core.fileTags = s.core.fileTags := rfl
@[simp] theorem State.setSreg_sys (s : State) (k n : Nat) (v : Word) : (s.setSreg k n v).sys = s.sys := rfl
@[simp] theorem State.setSreg_adm (s : State) (k n : Nat) (v : Word) : (s.setSreg k n v).adm = s.adm := rfl
@[simp] theorem State.setSreg_work (s : State) (k n : Nat) (v : Word) : (s.setSreg k n v).work = s.work := rfl
@[simp] theorem State.setSreg_mem (s : State) (k n : Nat) (v : Word) : (s.setSreg k n v).mem = s.mem := rfl
@[simp] theorem State.setSreg_fly (s : State) (k n : Nat) (v : Word) : (s.setSreg k n v).fly = s.fly := rfl
@[simp] theorem State.setSreg_ctl (s : State) (k n : Nat) (v : Word) : (s.setSreg k n v).ctl = s.ctl := rfl
@[simp] theorem State.setSreg_core_cores (s : State) (k n : Nat) (v : Word) : (s.setSreg k n v).core.cores = s.core.cores := rfl
@[simp] theorem State.setSreg_core_rows (s : State) (k n : Nat) (v : Word) : (s.setSreg k n v).core.rows = s.core.rows := rfl
@[simp] theorem State.setSreg_core_rowTags (s : State) (k n : Nat) (v : Word) : (s.setSreg k n v).core.rowTags = s.core.rowTags := rfl
@[simp] theorem State.setSreg_core_sregs (s : State) (k n : Nat) (v : Word) : (s.setSreg k n v).core.sregs = tset s.core.sregs (k * 64 + n) v := rfl
@[simp] theorem State.setSreg_core_sram (s : State) (k n : Nat) (v : Word) : (s.setSreg k n v).core.sram = s.core.sram := rfl
@[simp] theorem State.setSreg_core_sramTags (s : State) (k n : Nat) (v : Word) : (s.setSreg k n v).core.sramTags = s.core.sramTags := rfl
@[simp] theorem State.setSreg_core_fileTags (s : State) (k n : Nat) (v : Word) : (s.setSreg k n v).core.fileTags = s.core.fileTags := rfl
@[simp] theorem State.setDir_sys (s : State) (q : Nat) (d : Dir) : (s.setDir q d).sys = s.sys := rfl
@[simp] theorem State.setDir_adm (s : State) (q : Nat) (d : Dir) : (s.setDir q d).adm = s.adm := rfl
@[simp] theorem State.setDir_work (s : State) (q : Nat) (d : Dir) : (s.setDir q d).work = s.work := rfl
@[simp] theorem State.setDir_core (s : State) (q : Nat) (d : Dir) : (s.setDir q d).core = s.core := rfl
@[simp] theorem State.setDir_fly (s : State) (q : Nat) (d : Dir) : (s.setDir q d).fly = s.fly := rfl
@[simp] theorem State.setDir_ctl (s : State) (q : Nat) (d : Dir) : (s.setDir q d).ctl = s.ctl := rfl
@[simp] theorem State.setDir_mem_dram (s : State) (q : Nat) (d : Dir) : (s.setDir q d).mem.dram = s.mem.dram := rfl
@[simp] theorem State.setDir_mem_host (s : State) (q : Nat) (d : Dir) : (s.setDir q d).mem.host = s.mem.host := rfl
@[simp] theorem State.setDir_mem_sectors (s : State) (q : Nat) (d : Dir) : (s.setDir q d).mem.sectors = s.mem.sectors := rfl
@[simp] theorem State.setDir_mem_lines (s : State) (q : Nat) (d : Dir) : (s.setDir q d).mem.lines = s.mem.lines := rfl
@[simp] theorem State.setDir_mem_slices (s : State) (q : Nat) (d : Dir) : (s.setDir q d).mem.slices = s.mem.slices := rfl
@[simp] theorem State.setDir_mem_dirs (s : State) (q : Nat) (d : Dir) : (s.setDir q d).mem.dirs = tset s.mem.dirs q d := rfl
@[simp] theorem State.setDir_mem_clocks (s : State) (q : Nat) (d : Dir) : (s.setDir q d).mem.clocks = s.mem.clocks := rfl
@[simp] theorem State.setDir_mem_bridge (s : State) (q : Nat) (d : Dir) : (s.setDir q d).mem.bridge = s.mem.bridge := rfl
@[simp] theorem State.setDir_mem_dies (s : State) (q : Nat) (d : Dir) : (s.setDir q d).mem.dies = s.mem.dies := rfl
@[simp] theorem State.setDir_mem_oldText (s : State) (q : Nat) (d : Dir) : (s.setDir q d).mem.oldText = s.mem.oldText := rfl
@[simp] theorem State.modDie_sys (s : State) (d : Nat) (f : Die → Die) : (s.modDie d f).sys = s.sys := rfl
@[simp] theorem State.modDie_adm (s : State) (d : Nat) (f : Die → Die) : (s.modDie d f).adm = s.adm := rfl
@[simp] theorem State.modDie_work (s : State) (d : Nat) (f : Die → Die) : (s.modDie d f).work = s.work := rfl
@[simp] theorem State.modDie_core (s : State) (d : Nat) (f : Die → Die) : (s.modDie d f).core = s.core := rfl
@[simp] theorem State.modDie_fly (s : State) (d : Nat) (f : Die → Die) : (s.modDie d f).fly = s.fly := rfl
@[simp] theorem State.modDie_ctl (s : State) (d : Nat) (f : Die → Die) : (s.modDie d f).ctl = s.ctl := rfl
@[simp] theorem State.modDie_mem_dram (s : State) (d : Nat) (f : Die → Die) : (s.modDie d f).mem.dram = s.mem.dram := rfl
@[simp] theorem State.modDie_mem_host (s : State) (d : Nat) (f : Die → Die) : (s.modDie d f).mem.host = s.mem.host := rfl
@[simp] theorem State.modDie_mem_sectors (s : State) (d : Nat) (f : Die → Die) : (s.modDie d f).mem.sectors = s.mem.sectors := rfl
@[simp] theorem State.modDie_mem_lines (s : State) (d : Nat) (f : Die → Die) : (s.modDie d f).mem.lines = s.mem.lines := rfl
@[simp] theorem State.modDie_mem_slices (s : State) (d : Nat) (f : Die → Die) : (s.modDie d f).mem.slices = s.mem.slices := rfl
@[simp] theorem State.modDie_mem_dirs (s : State) (d : Nat) (f : Die → Die) : (s.modDie d f).mem.dirs = s.mem.dirs := rfl
@[simp] theorem State.modDie_mem_clocks (s : State) (d : Nat) (f : Die → Die) : (s.modDie d f).mem.clocks = s.mem.clocks := rfl
@[simp] theorem State.modDie_mem_bridge (s : State) (d : Nat) (f : Die → Die) : (s.modDie d f).mem.bridge = s.mem.bridge := rfl
@[simp] theorem State.modDie_mem_oldText (s : State) (d : Nat) (f : Die → Die) : (s.modDie d f).mem.oldText = s.mem.oldText := rfl
@[simp] theorem setStatus_adm (s : State) (fn v : Nat) : (setStatus s fn v).adm = s.adm := rfl
@[simp] theorem setStatus_work (s : State) (fn v : Nat) : (setStatus s fn v).work = s.work := rfl
@[simp] theorem setStatus_core (s : State) (fn v : Nat) : (setStatus s fn v).core = s.core := rfl
@[simp] theorem setStatus_mem (s : State) (fn v : Nat) : (setStatus s fn v).mem = s.mem := rfl
@[simp] theorem setStatus_fly (s : State) (fn v : Nat) : (setStatus s fn v).fly = s.fly := rfl
@[simp] theorem setStatus_ctl (s : State) (fn v : Nat) : (setStatus s fn v).ctl = s.ctl := rfl
@[simp] theorem setFrost_adm (s : State) (fn v : Nat) : (setFrost s fn v).adm = s.adm := rfl
@[simp] theorem setFrost_work (s : State) (fn v : Nat) : (setFrost s fn v).work = s.work := rfl
@[simp] theorem setFrost_core (s : State) (fn v : Nat) : (setFrost s fn v).core = s.core := rfl
@[simp] theorem setFrost_mem (s : State) (fn v : Nat) : (setFrost s fn v).mem = s.mem := rfl
@[simp] theorem setFrost_fly (s : State) (fn v : Nat) : (setFrost s fn v).fly = s.fly := rfl
@[simp] theorem setFrost_ctl (s : State) (fn v : Nat) : (setFrost s fn v).ctl = s.ctl := rfl

end Sys2Proof.Machine
end

