-- ==== Sys2Proof/Laws/Tables.lean ====
section
/-! SUPPORT. What the sparse tables and the byte memories return after an update, and that a write keeps the canonical form. -/

namespace Sys2Proof.Machine

/-- An entry just set is read back. -/
@[simp] theorem tget_tset_same {β : Type} (t : Tab β) (k : Nat) (v : β) : tget (tset t k v) k = some v := by
  induction t with
  | nil => simp [tset, tget]
  | cons e r ih =>
    obtain ⟨j, u⟩ := e
    simp only [tset]
    split
    · simp [tget]
    · split
      · simp [tget]
      · next h => simp [tget, h, ih]

/-- Setting an entry leaves every other one. -/
theorem tget_tset_ne {β : Type} (t : Tab β) {k j : Nat} (v : β) (h : j ≠ k) : tget (tset t k v) j = tget t j := by
  induction t with
  | nil => simp [tset, tget, Ne.symm h]
  | cons e r ih =>
    obtain ⟨i, u⟩ := e
    simp only [tset]
    split
    · simp [tget, Ne.symm h]
    · split
      · next h2 => subst h2; simp [tget, Ne.symm h]
      · by_cases hi : i = j <;> simp [tget, hi, ih]

/-- Changing an entry leaves every other one. -/
theorem tget_tmod_ne {β : Type} (t : Tab β) {k j : Nat} (f : β → β) (h : j ≠ k) : tget (tmod t k f) j = tget t j := by
  induction t with
  | nil => rfl
  | cons e r ih =>
    obtain ⟨i, u⟩ := e
    simp only [tmod]
    split
    · next h2 => subst h2; simp [tget, Ne.symm h]
    · by_cases hi : i = j <;> simp [tget, hi, ih]

/-- An entry changed is read back changed. -/
@[simp] theorem tget_tmod_same {β : Type} (t : Tab β) (k : Nat) (f : β → β) : tget (tmod t k f) k = (tget t k).map f := by
  induction t with
  | nil => rfl
  | cons e r ih =>
    obtain ⟨i, u⟩ := e
    simp only [tmod]
    by_cases h : i = k <;> simp [tget, h, ih]

/-- Deleting an entry leaves every other one. -/
theorem tget_tdel_ne {β : Type} (t : Tab β) {k j : Nat} (h : j ≠ k) : tget (tdel t k) j = tget t j := by
  induction t with
  | nil => rfl
  | cons e r ih =>
    obtain ⟨i, u⟩ := e
    simp only [tdel]
    split
    · next h2 => subst h2; simp [tget, Ne.symm h]
    · by_cases hi : i = j <;> simp [tget, hi, ih]

/-- A table changed by a function of number and entry. -/
theorem tget_map {β γ : Type} (t : Tab β) (f : Nat → β → γ) (k : Nat) :
    tget (t.map fun e => (e.1, f e.1 e.2)) k = (tget t k).map (f k) := by
  induction t with
  | nil => rfl
  | cons e r ih =>
    obtain ⟨i, u⟩ := e
    by_cases h : i = k
    · subst h; simp [tget]
    · simp [tget, h, ih]

/-! ## Byte memories -/

/-- Every address below the bound of a canonical memory reads as 0. -/
theorem memByte_below (m : Mem) (lo a : Nat) (h : Memory.wfFrom lo m = true) (ha : a < lo) : memByte m a = 0#8 := by
  induction m generalizing lo with
  | nil => rfl
  | cons e r ih =>
    obtain ⟨i, b⟩ := e
    simp only [Memory.wfFrom, Bool.and_eq_true, decide_eq_true_eq] at h
    have hne : i ≠ a := by omega
    simp only [memByte, hne, if_false]
    exact ih (i + 1) h.2 (by omega)

/-- A byte just written is read back. -/
theorem memByte_memSet_same (m : Mem) (lo a : Nat) (b : Byte) (h : Memory.wfFrom lo m = true) : memByte (memSet m a b) a = b := by
  induction m generalizing lo with
  | nil => by_cases hb : b = 0#8 <;> simp [memSet, memByte, hb]
  | cons e r ih =>
    obtain ⟨i, c⟩ := e
    simp only [Memory.wfFrom, Bool.and_eq_true, decide_eq_true_eq] at h
    simp only [memSet]
    split
    · next hlt =>
      split
      · next hb =>
        subst hb
        have hne : i ≠ a := by omega
        simp only [memByte, hne, if_false]
        exact memByte_below r (i + 1) a h.2 (by omega)
      · simp [memByte]
    · split
      · next heq =>
        subst heq
        split
        · next hb => subst hb; exact memByte_below r (i + 1) i h.2 (by omega)
        · simp [memByte]
      · next hne => simp only [memByte, hne, if_false]; exact ih (i + 1) h.2

/-- A write leaves every other byte. -/
theorem memByte_memSet_ne (m : Mem) {a x : Nat} (b : Byte) (h : x ≠ a) : memByte (memSet m a b) x = memByte m x := by
  induction m with
  | nil => by_cases hb : b = 0#8 <;> simp [memSet, memByte, hb, Ne.symm h]
  | cons e r ih =>
    obtain ⟨i, c⟩ := e
    simp only [memSet]
    split
    · split
      · rfl
      · simp [memByte, Ne.symm h]
    · split
      · next heq =>
        subst heq
        split <;> simp [memByte, Ne.symm h]
      · by_cases hi : i = x <;> simp [memByte, hi, ih]

/-- A write keeps the form of a memory above a bound. -/
theorem wfFrom_memSet (m : Mem) (lo a : Nat) (b : Byte) (h : Memory.wfFrom lo m = true) (ha : lo ≤ a) :
    Memory.wfFrom lo (memSet m a b) = true := by
  induction m generalizing lo with
  | nil => by_cases hb : b = 0#8 <;> simp [memSet, Memory.wfFrom, hb, ha]
  | cons e r ih =>
    obtain ⟨i, c⟩ := e
    have h0 := h
    simp only [Memory.wfFrom, Bool.and_eq_true, decide_eq_true_eq, bne_iff_ne] at h
    simp only [memSet]
    split
    · next hlt =>
      split
      · exact h0
      · next hb =>
        simp only [Memory.wfFrom, Bool.and_eq_true, decide_eq_true_eq, bne_iff_ne]
        exact ⟨⟨ha, hb⟩, ⟨hlt, h.1.2⟩, h.2⟩
    · next hge =>
      split
      · next heq =>
        subst heq
        split
        · revert h; intro h
          have := h.2
          clear ih h0
          cases r with
          | nil => rfl
          | cons e2 r2 =>
            obtain ⟨j, d⟩ := e2
            simp only [Memory.wfFrom, Bool.and_eq_true, decide_eq_true_eq] at this ⊢
            exact ⟨⟨by omega, this.1.2⟩, this.2⟩
        · next hb =>
          simp only [Memory.wfFrom, Bool.and_eq_true, decide_eq_true_eq, bne_iff_ne]
          exact ⟨⟨ha, hb⟩, h.2⟩
      · next hne =>
        simp only [Memory.wfFrom, Bool.and_eq_true, decide_eq_true_eq, bne_iff_ne]
        exact ⟨h.1, ih (i + 1) h.2 (by omega)⟩

/-- A write of one byte keeps the canonical form. -/
theorem wf_memSet (m : Mem) (a : Nat) (b : Byte) (h : Memory.wf m = true) : Memory.wf (memSet m a b) = true :=
  wfFrom_memSet m 0 a b h (Nat.zero_le a)

/-- A write of bytes keeps the canonical form. -/
theorem wf_memPut (m : Mem) (a : Nat) (bs : Bytes) (h : Memory.wf m = true) : Memory.wf (memPut m a bs) = true := by
  induction bs generalizing m a with
  | nil => exact h
  | cons b r ih => exact ih _ _ (wf_memSet m a b h)

/-- Bytes written leave every byte outside them. -/
theorem memByte_memPut_ne (m : Mem) (a : Nat) (bs : Bytes) (x : Nat) (h : x < a ∨ a + bs.length ≤ x) :
    memByte (memPut m a bs) x = memByte m x := by
  induction bs generalizing m a with
  | nil => rfl
  | cons b r ih =>
    simp only [List.length_cons] at h
    rw [memPut, ih _ _ (by omega), memByte_memSet_ne m b (by omega)]

/-- Bytes written are read back. -/
theorem memByte_memPut (m : Mem) (a : Nat) (bs : Bytes) (i : Nat) (hm : Memory.wf m = true) (h : i < bs.length) :
    memByte (memPut m a bs) (a + i) = bs.getD i 0#8 := by
  induction bs generalizing m a i with
  | nil => simp at h
  | cons b r ih =>
    cases i with
    | zero =>
      rw [memPut, memByte_memPut_ne _ _ _ _ (by omega)]
      simpa using memByte_memSet_same m 0 a b hm
    | succ j =>
      have := ih (memSet m a b) (a + 1) j (wf_memSet m a b hm) (by simpa using h)
      rw [memPut, show a + (j + 1) = a + 1 + j by omega, this]
      simp

end Sys2Proof.Machine
end

