-- ==== Sys2Proof/Laws/Words.lean ====
section
/-! SUPPORT. What issuing one word does: the context it sees, the two ways it ends, and what the end of a word, the commit of a run and a
word trap leave. -/

namespace Sys2Proof.Machine

/-- What a word sees is the unit at issue, its group and its run. -/
theorem wordCtx_some {h : Head} {s : State} {c : Ctx} (e : wordCtx h s = some c) :
    s.ctl.cur = some c.k ∧ s.group c.k = some c.g ∧ c.g.run = some c.r ∧ c.r.closed = false ∧ c.pc = c.r.pc ∧
      c.act = c.r.gang &&& guardMask c.g h := by
  simp only [wordCtx] at e
  split at e
  · cases e
  · next k hk =>
    split at e
    · cases e
    · next g hg =>
      split at e
      · cases e
      · next r hr =>
        split at e
        · cases e
        · next hc => cases e; simp_all

/-- A word that acts moves on. -/
theorem issueCounted_ok {h : Head} {s s1 : State} {c : Ctx} {n : Ctx → Nat × Nat} {f : Ctx → State → Except Trap State}
    (e : wordCtx h s = some c) (hf : f c s = .ok s1) :
    issueCounted h n f s = .next (wordDone s1 c.k h.last (n c).1 (n c).2) := by
  obtain ⟨h1, h2, h3, h4, h5, h6⟩ := wordCtx_some e
  have hc : (⟨c.k, c.g, c.r, c.r.pc, c.r.gang &&& guardMask c.g h⟩ : Ctx) = c := by
    obtain ⟨k, g, r, pc, act⟩ := c; simp_all
  simp only [issueCounted, h1, h2, h3, h4, Bool.false_eq_true, if_false, hc, hf]

/-- A word that traps ends its run. -/
theorem issueCounted_error {h : Head} {s : State} {c : Ctx} {n : Ctx → Nat × Nat} {f : Ctx → State → Except Trap State} {t : Trap}
    (e : wordCtx h s = some c) (hf : f c s = .error t) : issueCounted h n f s = .next (wordTrap s c.k t) := by
  obtain ⟨h1, h2, h3, h4, h5, h6⟩ := wordCtx_some e
  have hc : (⟨c.k, c.g, c.r, c.r.pc, c.r.gang &&& guardMask c.g h⟩ : Ctx) = c := by
    obtain ⟨k, g, r, pc, act⟩ := c; simp_all
  simp only [issueCounted, h1, h2, h3, h4, Bool.false_eq_true, if_false, hc, hf]

/-! ## Commit, end and trap -/

/-- A commit touches the counters that grids have used and the increments of a core, and nothing else. -/
theorem useCounters_fields (s : State) (tm : Nat) (cs : List Nat) :
    (useCounters s tm cs).sys = s.sys ∧ (useCounters s tm cs).adm = s.adm ∧ (useCounters s tm cs).mem = s.mem ∧
    (useCounters s tm cs).fly = s.fly ∧ (useCounters s tm cs).ctl = s.ctl ∧ (useCounters s tm cs).core = s.core ∧
    (useCounters s tm cs).work.groups = s.work.groups ∧ (useCounters s tm cs).work.teams = s.work.teams := by
  simp only [useCounters]
  split <;> simp

/-- A grid but for the counters it has used. -/
theorem useCounters_grid (s : State) (tm : Nat) (cs : List Nat) (n : Nat) :
    ((useCounters s tm cs).grid n).map (fun g => { g with used := [] }) = (s.grid n).map fun g => { g with used := [] } := by
  simp only [useCounters]
  split
  · rfl
  · next t _ =>
    simp only [State.grid, State.modGrid_work_grids]
    by_cases h : n = t.grid
    · subst h; simp [Option.map_map, Function.comp_def]
    · rw [tget_tmod_ne _ _ h]

/-- What a commit leaves. -/
theorem commitCounts_fields (s : State) (k : Nat) :
    (commitCounts s k).sys = s.sys ∧ (commitCounts s k).adm = s.adm ∧ (commitCounts s k).mem = s.mem ∧
    (commitCounts s k).fly = s.fly ∧ (commitCounts s k).ctl = s.ctl ∧
    (commitCounts s k).work.groups = s.work.groups ∧ (commitCounts s k).work.teams = s.work.teams ∧
    (commitCounts s k).core.rows = s.core.rows ∧ (commitCounts s k).core.rowTags = s.core.rowTags ∧
    (commitCounts s k).core.sregs = s.core.sregs ∧ (commitCounts s k).core.sram = s.core.sram ∧
    (commitCounts s k).core.sramTags = s.core.sramTags := by
  simp only [commitCounts]
  split
  · simp
  · next g _ =>
    split
    · simp
    · next r _ =>
      obtain ⟨a, b, d, e, f, i, j, l⟩ := useCounters_fields s g.team (r.counts.map (·.1))
      simp [a, b, d, e, f, i, j, l]

/-- Grids but for the counters they have used, after a commit. -/
theorem commitCounts_grid (s : State) (k n : Nat) :
    ((commitCounts s k).grid n).map (fun g => { g with used := [] }) = (s.grid n).map fun g => { g with used := [] } := by
  simp only [commitCounts]
  split
  · rfl
  · next g _ =>
    split
    · rfl
    · next r _ => exact useCounters_grid s g.team (r.counts.map (·.1)) n

/-- Cores but for the increments not yet sent, after a commit. -/
theorem commitCounts_core (s : State) (k n : Nat) :
    { (commitCounts s k).coreAt n with incs := [] } = { s.coreAt n with incs := [] } := by
  simp only [commitCounts]
  split
  · rfl
  · next g _ =>
    split
    · rfl
    next r _ =>
      have hc := (useCounters_fields s g.team (r.counts.map (·.1))).2.2.2.2.2.1
      simp only [State.coreAt, State.modCore_core_cores]
      by_cases h : n = s.coreOf g
      · subst h; simp [hc]
      · rw [tget_tset_ne _ _ h, hc]

/-- A run after a word of it has issued. -/
def Run.after (r : Run) (cls n : Nat) : Run :=
  { r with pc := r.pc + 8, words := r.words.tail, issued := r.issued + 1,
           counts := if n = 0 then r.counts else tset r.counts cls ((tget r.counts cls).getD 0 + n) }

/-- A run once it is over. -/
def Run.over (r : Run) : Run := { r with closed := true, succ := if r.trap.isSome then [] else r.succ ++ fallThrough r }

/-- A group after a word of its run has issued. -/
def Group.after (g : Group) (last : Bool) (cls n : Nat) : Group :=
  { g with paths := g.paths.map fun p => { p with timer := p.timer + 1 },
           st := if last && g.st == .issuing then .results else g.st,
           run := g.run.map fun r => if last then (r.after cls n).over else r.after cls n }

/-- A group whose run a word trap has ended. -/
def Group.trapped (g : Group) (t : Trap) : Group :=
  { g with st := if g.st = .issuing then .results else g.st, paths := g.paths.map fun p => { p with timer := p.timer + 1 },
           run := g.run.map fun r => ({ r with trap := some t } : Run).over }

/-- The group of a word that has issued. -/
theorem wordDone_group (s : State) (k : Nat) (last : Bool) (cls n : Nat) :
    (wordDone s k last cls n).group k = (s.group k).map fun g => g.after last cls n := by
  cases last
  · simp [wordDone, State.group, Group.after, Run.after]
  · simp only [wordDone, if_true, closeRun, State.group, State.modGroup_work_groups, tget_tmod_same,
      (commitCounts_fields _ _).2.2.2.2.2.1, Option.map_map]
    congr 1
    funext g
    simp only [Function.comp, Group.after, Run.after, Run.over, Option.map_map]
    cases hs : g.st <;> simp [Function.comp_def] <;> rfl

/-- Every other group. -/
theorem wordDone_group_ne (s : State) {k j : Nat} (last : Bool) (cls n : Nat) (h : j ≠ k) :
    (wordDone s k last cls n).group j = s.group j := by
  cases last
  · simp [wordDone, State.group, tget_tmod_ne _ _ h]
  · simp [wordDone, closeRun, State.group, (commitCounts_fields _ _).2.2.2.2.2.1, tget_tmod_ne _ _ h]

/-- What the end of a word leaves outside its group. -/
theorem wordDone_fields (s : State) (k : Nat) (last : Bool) (cls n : Nat) :
    (wordDone s k last cls n).sys = s.sys ∧ (wordDone s k last cls n).adm = s.adm ∧ (wordDone s k last cls n).mem = s.mem ∧
    (wordDone s k last cls n).fly = s.fly ∧ (wordDone s k last cls n).ctl = s.ctl ∧
    (wordDone s k last cls n).work.teams = s.work.teams ∧
    (wordDone s k last cls n).core.rows = s.core.rows ∧ (wordDone s k last cls n).core.rowTags = s.core.rowTags ∧
    (wordDone s k last cls n).core.sregs = s.core.sregs ∧ (wordDone s k last cls n).core.sram = s.core.sram ∧
    (wordDone s k last cls n).core.sramTags = s.core.sramTags := by
  cases last
  · simp [wordDone]
  · have h := commitCounts_fields (s.modGroup k fun g =>
      { g with paths := g.paths.map fun p => { p with timer := p.timer + 1 },
               run := g.run.map fun r =>
                 { r with pc := r.pc + 8, words := r.words.tail, issued := r.issued + 1,
                          counts := if n = 0 then r.counts else tset r.counts cls ((tget r.counts cls).getD 0 + n) } }) k
    simp [wordDone, closeRun, h]

/-- Grids but for the counters they have used, after a word. -/
theorem wordDone_grid (s : State) (k : Nat) (last : Bool) (cls n m : Nat) :
    ((wordDone s k last cls n).grid m).map (fun g => { g with used := [] }) = (s.grid m).map fun g => { g with used := [] } := by
  cases last
  · rfl
  · exact commitCounts_grid _ k m

/-- Cores but for the increments not yet sent, after a word. -/
theorem wordDone_core (s : State) (k : Nat) (last : Bool) (cls n m : Nat) :
    { (wordDone s k last cls n).coreAt m with incs := [] } = { s.coreAt m with incs := [] } := by
  cases last
  · rfl
  · exact commitCounts_core _ k m

/-- The state in which a word trap has counted the word and noted itself in the run, before the run closes. -/
abbrev noted (x : State) (k : Nat) (t : Trap) : State :=
  x.modGroup k fun g =>
    { g with paths := g.paths.map fun p => { p with timer := p.timer + 1 }, run := g.run.map fun r => { r with trap := some t } }

/-- The state in which a word trap closes the run: the fault log may have taken a DOMAIN fault. -/
theorem wordTrap_group (s : State) (k : Nat) (t : Trap) : (wordTrap s k t).group k = (s.group k).map fun g => g.trapped t := by
  have key : ∀ x : State, x.work.groups = s.work.groups →
      (closeRun (noted x k t) k).group k = (s.group k).map fun g => g.trapped t := by
    intro x hx
    simp only [closeRun, State.group, State.modGroup_work_groups, tget_tmod_same, (commitCounts_fields _ _).2.2.2.2.2.1,
      hx, Option.map_map]
    congr 1
    funext g
    simp only [Function.comp, Group.trapped, Run.over, Option.map_map]
    cases hs : g.st <;> simp [Function.comp_def] <;> rfl
  simp only [wordTrap]
  split
  · split
    · exact key _ rfl
    · exact key _ rfl
  · exact key _ rfl

/-- Every other group, after a word trap. -/
theorem wordTrap_group_ne (s : State) {k j : Nat} (t : Trap) (h : j ≠ k) : (wordTrap s k t).group j = s.group j := by
  have key : ∀ x : State, x.work.groups = s.work.groups →
      (closeRun (noted x k t) k).group j = s.group j := by
    intro x hx
    simp [closeRun, State.group, (commitCounts_fields _ _).2.2.2.2.2.1, tget_tmod_ne _ _ h, hx]
  simp only [wordTrap]
  split
  · split
    · exact key _ rfl
    · exact key _ rfl
  · exact key _ rfl

/-- What a word trap leaves outside its group and the fault logs. -/
theorem wordTrap_fields (s : State) (k : Nat) (t : Trap) :
    (wordTrap s k t).sys = s.sys ∧ (wordTrap s k t).adm.doms = s.adm.doms ∧ (wordTrap s k t).adm.queues = s.adm.queues ∧
    (wordTrap s k t).mem = s.mem ∧ (wordTrap s k t).fly = s.fly ∧ (wordTrap s k t).ctl = s.ctl ∧
    (wordTrap s k t).work.teams = s.work.teams ∧
    (wordTrap s k t).core.rows = s.core.rows ∧ (wordTrap s k t).core.rowTags = s.core.rowTags ∧
    (wordTrap s k t).core.sregs = s.core.sregs ∧ (wordTrap s k t).core.sram = s.core.sram ∧
    (wordTrap s k t).core.sramTags = s.core.sramTags ∧ (∀ p, { (wordTrap s k t).part p with log := 0#64 } = { s.part p with log := 0#64 }) := by
  have key : ∀ x : State, x.core = s.core → x.sys = s.sys → x.mem = s.mem → x.fly = s.fly → x.ctl = s.ctl →
      x.work.teams = s.work.teams → x.adm.doms = s.adm.doms → x.adm.queues = s.adm.queues →
      (∀ p, { x.part p with log := 0#64 } = { s.part p with log := 0#64 }) →
      let y := closeRun (noted x k t) k
      y.sys = s.sys ∧ y.adm.doms = s.adm.doms ∧ y.adm.queues = s.adm.queues ∧ y.mem = s.mem ∧ y.fly = s.fly ∧ y.ctl = s.ctl ∧
      y.work.teams = s.work.teams ∧ y.core.rows = s.core.rows ∧ y.core.rowTags = s.core.rowTags ∧ y.core.sregs = s.core.sregs ∧
      y.core.sram = s.core.sram ∧ y.core.sramTags = s.core.sramTags ∧ ∀ p, { y.part p with log := 0#64 } = { s.part p with log := 0#64 } := by
    intro x h1 h2 h3 h4 h5 h6 h7 h8 h9
    have h := commitCounts_fields (noted x k t) k
    refine ⟨?_, ?_, ?_, ?_, ?_, ?_, ?_, ?_, ?_, ?_, ?_, ?_, ?_⟩
    case refine_13 =>
      intro p
      have e : (closeRun (noted x k t) k).adm = x.adm := by simp [closeRun, h]
      have e2 : (closeRun (noted x k t) k).part p = x.part p := by simp only [State.part, e]
      simp only [e2]
      exact h9 p
    all_goals simp [closeRun, h, h1, h2, h3, h4, h5, h6, h7, h8]
  simp only [wordTrap]
  split
  · next g _ =>
    split
    · refine key _ rfl rfl rfl rfl rfl rfl rfl rfl ?_
      intro p
      simp only [logDomain, State.part, State.modPart_adm_parts]
      by_cases h : p = (s.dom (s.didOf g)).part
      · subst h; simp
      · rw [tget_tset_ne _ _ h]
    · exact key _ rfl rfl rfl rfl rfl rfl rfl rfl fun _ => rfl
  · exact key _ rfl rfl rfl rfl rfl rfl rfl rfl fun _ => rfl

/-- The commit of a run that a trap ends touches grids and cores as any commit. -/
theorem wordTrap_grid (s : State) (k : Nat) (t : Trap) (m : Nat) :
    ((wordTrap s k t).grid m).map (fun g => { g with used := [] }) = (s.grid m).map fun g => { g with used := [] } := by
  have key : ∀ x : State, x.work.grids = s.work.grids →
      ((closeRun (noted x k t) k).grid m).map (fun g => { g with used := [] }) =
        (s.grid m).map fun g => { g with used := [] } := by
    intro x hx
    have h := commitCounts_grid (noted x k t) k m
    simp only [closeRun, State.grid, State.modGroup_work_grids, hx] at h ⊢
    exact h
  simp only [wordTrap]
  split
  · split
    · exact key _ rfl
    · exact key _ rfl
  · exact key _ rfl

/-- Cores but for the increments not yet sent, after a word trap. -/
theorem wordTrap_core (s : State) (k : Nat) (t : Trap) (m : Nat) :
    { (wordTrap s k t).coreAt m with incs := [] } = { s.coreAt m with incs := [] } := by
  have key : ∀ x : State, x.core = s.core →
      { (closeRun (noted x k t) k).coreAt m with incs := [] } = { s.coreAt m with incs := [] } := by
    intro x hx
    have h := commitCounts_core (noted x k t) k m
    simp only [closeRun, State.coreAt, State.modGroup_core, hx] at h ⊢
    exact h
  simp only [wordTrap]
  split
  · split
    · exact key _ rfl
    · exact key _ rfl
  · exact key _ rfl

end Sys2Proof.Machine
end

