-- ==== Sys2Proof/Laws/Operands.lean ====
section
/-! SUPPORT. What the operand operations do: the checks that pass, the rows and scalar registers that a write reaches, and what a lane-wise
word does with them. -/

namespace Sys2Proof.Machine

/-! ## Checks -/

/-- Registers that are in range and the domain's own pass. -/
theorem checkRegs_ok {s : State} {c : Ctx} {op : Nat} {ns : List Nat} (h0 : c.g.isSeq = true → ns = [])
    (h : ∀ n ∈ ns, ∃ r, teamRow s c.g n = some r ∧ (s.rowTag (s.coreOf c.g) (physRow s c.g r)).owner = some (s.didOf c.g)) :
    checkRegs s c op ns = .ok () := by
  have hs : (c.g.isSeq && !ns.isEmpty) = false := by
    cases hq : c.g.isSeq
    · rfl
    · simp [h0 hq]
  have h1 : ns.find? (fun n => (teamRow s c.g n).isNone) = none := by
    simp only [List.find?_eq_none]
    intro n hn
    obtain ⟨r, hr, _⟩ := h n hn
    simp [hr]
  simp only [checkRegs, hs, Bool.false_eq_true, if_false, h1]
  split
  · next n hn =>
    have hp := List.find?_some hn
    obtain ⟨r, hr, ho⟩ := h n (List.mem_of_find?_eq_some hn)
    simp [hr, ho] at hp
  · rfl

/-- Rows without poison are read. -/
theorem poisonedRow_none {s : State} {c : Ctx} {ns : List Nat}
    (h : ∀ n ∈ ns, ∀ r, teamRow s c.g n = some r → (s.rowTag (s.coreOf c.g) (physRow s c.g r)).poison = false) :
    poisonedRow s c ns = none := by
  simp only [poisonedRow, List.find?_eq_none, List.mem_filterMap]
  rintro r ⟨n, hn, hr⟩
  simp [h n hn r hr]

/-! ## Writing rows -/

/-- Poison aside, clearing it leaves everything but tags. -/
theorem clearPoison_fields (s : State) (core r : Nat) (m : Mask) :
    (clearPoison s core r m).sys = s.sys ∧ (clearPoison s core r m).adm = s.adm ∧ (clearPoison s core r m).work = s.work ∧
    (clearPoison s core r m).mem = s.mem ∧ (clearPoison s core r m).fly = s.fly ∧ (clearPoison s core r m).ctl = s.ctl ∧
    (clearPoison s core r m).core.rows = s.core.rows ∧ (clearPoison s core r m).core.sregs = s.core.sregs ∧
    (clearPoison s core r m).core.sram = s.core.sram ∧ (clearPoison s core r m).core.sramTags = s.core.sramTags ∧
    (clearPoison s core r m).core.cores = s.core.cores ∧
    ∀ x, x ≠ core * 6144 + r → tget (clearPoison s core r m).core.rowTags x = tget s.core.rowTags x := by
  simp only [clearPoison]
  split
  · refine ⟨rfl, rfl, rfl, rfl, rfl, rfl, rfl, rfl, rfl, rfl, rfl, ?_⟩
    intro x hx
    exact tget_tset_ne _ _ hx
  · simp

/-- Writing rows leaves everything but rows and tags. -/
theorem writeRows_fields (rows : List Nat) (s : State) (g : Group) (m : Mask) (v : Nat → Nat) :
    (writeRows s g rows m v).sys = s.sys ∧ (writeRows s g rows m v).adm = s.adm ∧ (writeRows s g rows m v).work = s.work ∧
    (writeRows s g rows m v).mem = s.mem ∧ (writeRows s g rows m v).fly = s.fly ∧ (writeRows s g rows m v).ctl = s.ctl ∧
    (writeRows s g rows m v).core.sregs = s.core.sregs ∧ (writeRows s g rows m v).core.sram = s.core.sram ∧
    (writeRows s g rows m v).core.sramTags = s.core.sramTags ∧ (writeRows s g rows m v).core.cores = s.core.cores := by
  induction rows generalizing s v with
  | nil => simp [writeRows]
  | cons r rs ih =>
    simp only [writeRows]
    have h := ih (clearPoison (s.setTeamRow g r m fun l => BitVec.ofNat 32 (v l))
      ((s.setTeamRow g r m fun l => BitVec.ofNat 32 (v l)).coreOf g)
      (physRow (s.setTeamRow g r m fun l => BitVec.ofNat 32 (v l)) g r) m) fun l => v l / 2 ^ 32
    have c := clearPoison_fields (s.setTeamRow g r m fun l => BitVec.ofNat 32 (v l))
      ((s.setTeamRow g r m fun l => BitVec.ofNat 32 (v l)).coreOf g)
      (physRow (s.setTeamRow g r m fun l => BitVec.ofNat 32 (v l)) g r) m
    exact ⟨h.1.trans c.1, h.2.1.trans c.2.1, h.2.2.1.trans c.2.2.1, h.2.2.2.1.trans c.2.2.2.1, h.2.2.2.2.1.trans c.2.2.2.2.1,
      h.2.2.2.2.2.1.trans c.2.2.2.2.2.1, h.2.2.2.2.2.2.1.trans c.2.2.2.2.2.2.2.1,
      h.2.2.2.2.2.2.2.1.trans c.2.2.2.2.2.2.2.2.1, h.2.2.2.2.2.2.2.2.1.trans c.2.2.2.2.2.2.2.2.2.1,
      h.2.2.2.2.2.2.2.2.2.trans c.2.2.2.2.2.2.2.2.2.2.1⟩

/-- Core and physical row of a group depend on the work alone. -/
theorem coreOf_congr {s t : State} (h : t.work = s.work) (g : Group) : t.coreOf g = s.coreOf g := by
  simp [State.coreOf, State.teamOf, State.team, h]
/-- The physical row of a team row depends on the work alone. -/
theorem physRow_congr {s t : State} (h : t.work = s.work) (g : Group) (r : Nat) : physRow t g r = physRow s g r := by
  simp [physRow, State.teamOf, State.team, h]
/-- The team row of a register depends on the work alone. -/
theorem teamRow_congr {s t : State} (h : t.work = s.work) (g : Group) (n : Nat) : teamRow t g n = teamRow s g n := by
  simp [teamRow, State.teamOf, State.team, State.launchOf, State.grid, h]

/-- Rows that are not written, and their tags, are unchanged. -/
theorem writeRows_other (rows : List Nat) (s : State) (g : Group) (m : Mask) (v : Nat → Nat) (x : Nat)
    (hx : ∀ r ∈ rows, x ≠ s.coreOf g * 6144 + physRow s g r) :
    tget (writeRows s g rows m v).core.rows x = tget s.core.rows x ∧
    tget (writeRows s g rows m v).core.rowTags x = tget s.core.rowTags x := by
  induction rows generalizing s v with
  | nil => simp [writeRows]
  | cons r rs ih =>
    simp only [writeRows]
    have hw : (s.setTeamRow g r m fun l => BitVec.ofNat 32 (v l)).work = s.work := rfl
    have c := clearPoison_fields (s.setTeamRow g r m fun l => BitVec.ofNat 32 (v l))
      ((s.setTeamRow g r m fun l => BitVec.ofNat 32 (v l)).coreOf g)
      (physRow (s.setTeamRow g r m fun l => BitVec.ofNat 32 (v l)) g r) m
    have h := ih (clearPoison (s.setTeamRow g r m fun l => BitVec.ofNat 32 (v l))
      ((s.setTeamRow g r m fun l => BitVec.ofNat 32 (v l)).coreOf g)
      (physRow (s.setTeamRow g r m fun l => BitVec.ofNat 32 (v l)) g r) m) (fun l => v l / 2 ^ 32) (by
        intro r' hr'
        rw [coreOf_congr (s := s) (by rw [c.2.2.1, hw]), physRow_congr (s := s) (by rw [c.2.2.1, hw])]
        exact hx r' (by simp [hr']))
    have hx0 := hx r (by simp)
    rw [h.1, h.2, c.2.2.2.2.2.2.1, c.2.2.2.2.2.2.2.2.2.2.2 x (by
      rw [coreOf_congr (s := s) hw, physRow_congr (s := s) hw]; exact hx0)]
    refine ⟨?_, rfl⟩
    simp only [State.setTeamRow, State.setRow_core_rows]
    exact tget_tset_ne _ _ hx0

/-- The values of one row after a write that reaches it first and no later row of the list. -/
theorem writeRows_head (r : Nat) (rs : List Nat) (s : State) (g : Group) (m : Mask) (v : Nat → Nat)
    (hx : ∀ r' ∈ rs, physRow s g r ≠ physRow s g r') :
    (writeRows s g (r :: rs) m v).row (s.coreOf g) (physRow s g r) =
      lanes32.map fun l => if inMask m l then BitVec.ofNat 32 (v l) else (s.teamRowVals g r).getD l 0#32 := by
  simp only [writeRows]
  have hw : (s.setTeamRow g r m fun l => BitVec.ofNat 32 (v l)).work = s.work := rfl
  have c := clearPoison_fields (s.setTeamRow g r m fun l => BitVec.ofNat 32 (v l))
    ((s.setTeamRow g r m fun l => BitVec.ofNat 32 (v l)).coreOf g)
    (physRow (s.setTeamRow g r m fun l => BitVec.ofNat 32 (v l)) g r) m
  have hcw := c.2.2.1.trans hw
  have h := writeRows_other rs (clearPoison (s.setTeamRow g r m fun l => BitVec.ofNat 32 (v l))
    ((s.setTeamRow g r m fun l => BitVec.ofNat 32 (v l)).coreOf g)
    (physRow (s.setTeamRow g r m fun l => BitVec.ofNat 32 (v l)) g r) m) g m (fun l => v l / 2 ^ 32)
    (s.coreOf g * 6144 + physRow s g r) (by
      intro r' hr'
      rw [coreOf_congr (s := s) hcw, physRow_congr (s := s) hcw]
      have := hx r' hr'
      omega)
  unfold State.row
  rw [h.1, c.2.2.2.2.2.2.1]
  simp only [State.setTeamRow, State.setRow_core_rows, tget_tset_same, Option.getD_some]

/-- Writing scalar registers leaves everything else. -/
theorem writeSregs_fields (cnt : Nat) (s : State) (k n v : Nat) :
    (writeSregs s k n cnt v).sys = s.sys ∧ (writeSregs s k n cnt v).adm = s.adm ∧ (writeSregs s k n cnt v).work = s.work ∧
    (writeSregs s k n cnt v).mem = s.mem ∧ (writeSregs s k n cnt v).fly = s.fly ∧ (writeSregs s k n cnt v).ctl = s.ctl ∧
    (writeSregs s k n cnt v).core.rows = s.core.rows ∧ (writeSregs s k n cnt v).core.rowTags = s.core.rowTags ∧
    (writeSregs s k n cnt v).core.sram = s.core.sram ∧ (writeSregs s k n cnt v).core.sramTags = s.core.sramTags ∧
    (writeSregs s k n cnt v).core.cores = s.core.cores := by
  induction cnt generalizing s n v with
  | zero => simp [writeSregs]
  | succ c ih => simp [writeSregs, ih]

/-- A scalar register outside those written is unchanged. -/
theorem writeSregs_other (cnt : Nat) (s : State) (k n v x : Nat) (hx : x < k * 64 + n ∨ k * 64 + n + cnt ≤ x) :
    tget (writeSregs s k n cnt v).core.sregs x = tget s.core.sregs x := by
  induction cnt generalizing s n v with
  | zero => rfl
  | succ c ih =>
    simp only [writeSregs]
    rw [ih _ _ _ (by omega)]
    simp only [State.setSreg_core_sregs]
    exact tget_tset_ne _ _ (by omega)

/-- A scalar register written holds its part of the value. -/
theorem writeSregs_read (cnt : Nat) (s : State) (k n v j : Nat) (hj : j < cnt) :
    (writeSregs s k n cnt v).sreg k (n + j) = BitVec.ofNat 32 (v / 2 ^ (32 * j)) := by
  induction cnt generalizing s n v j with
  | zero => omega
  | succ c ih =>
    simp only [writeSregs]
    cases j with
    | zero =>
      simp only [State.sreg]
      rw [writeSregs_other _ _ _ _ _ _ (by omega)]
      simp
    | succ i =>
      rw [show n + (i + 1) = n + 1 + i by omega, ih _ _ _ _ (by omega), Nat.div_div_eq_div_mul, ← Nat.pow_add]
      congr 3; omega

/-- What writing a destination leaves but registers. -/
theorem writeDest_fields (s : State) (k : Nat) (d : Dest) (m : Mask) (v : Nat → Nat) :
    (writeDest s k d m v).sys = s.sys ∧ (writeDest s k d m v).adm = s.adm ∧ (writeDest s k d m v).work = s.work ∧
    (writeDest s k d m v).mem = s.mem ∧ (writeDest s k d m v).fly = s.fly ∧ (writeDest s k d m v).ctl = s.ctl ∧
    (writeDest s k d m v).core.sram = s.core.sram ∧ (writeDest s k d m v).core.sramTags = s.core.sramTags ∧
    (writeDest s k d m v).core.cores = s.core.cores := by
  simp only [writeDest]
  split
  · simp
  · next g _ =>
    split
    · simp
    · next rs => simp [writeRows_fields rs s g m v]
    · next n cnt =>
      split
      · simp
      · simp [writeSregs_fields cnt s k n (v (lowLane m))]

/-! ## Lane-wise words -/

/-- What a lane-wise word of fixed latency writes where its checks pass: the destination in the active lanes and their flags. -/
theorem laneBody_fixed {w : RWord} {op : Nat} {seqOk : Bool} {n : Widths}
    {f : Ctx → Nat → Bits64 → Bits64 → Bits64 → LaneRes} {c : Ctx} {s : State}
    (h1 : checkR s c w op seqOk n = .ok ()) (h2 : poisonedRow s c (readsR w n) = none) :
    laneBody w op seqOk false n f c s =
      (let one : Nat → Nat := fun l => if w.d.isS then lowLane c.act else l
       let r : Nat → LaneRes := fun l => f c (one l) ((opdVals s c w.a w.pa w.k.toNat n.a).getD (one l) 0#64)
         ((opdVals s c w.b w.pb w.k.toNat n.b).getD (one l) 0#64) ((opdVals s c w.c w.pc w.k.toNat n.c).getD (one l) 0#64)
       let res := lanes32.map fun l => if inMask c.act l then r l else (0#64, 0#8)
       .ok ((writeDest s c.k (destOf s c w.d n.d) c.act fun l => (res.getD l (0#64, 0#8)).1.toNat).modGroup c.k fun g =>
         g.orFlags (fun l => (res.getD l (0#64, 0#8)).2) c.act)) := by
  simp only [laneBody, h1, h2]
  rfl

/-- What a lane-wise word of variable latency leaves where its checks pass and some lane is active: a complete result. -/
theorem laneBody_variable {w : RWord} {op : Nat} {seqOk : Bool} {n : Widths}
    {f : Ctx → Nat → Bits64 → Bits64 → Bits64 → LaneRes} {c : Ctx} {s : State}
    (h1 : checkR s c w op seqOk n = .ok ()) (h2 : poisonedRow s c (readsR w n) = none) (h3 : c.act ≠ 0#32) :
    laneBody w op seqOk true n f c s =
      (let one : Nat → Nat := fun l => if w.d.isS then lowLane c.act else l
       let r : Nat → LaneRes := fun l => f c (one l) ((opdVals s c w.a w.pa w.k.toNat n.a).getD (one l) 0#64)
         ((opdVals s c w.b w.pb w.k.toNat n.b).getD (one l) 0#64) ((opdVals s c w.c w.pc w.k.toNat n.c).getD (one l) 0#64)
       let res := lanes32.map fun l => if inMask c.act l then r l else (0#64, 0#8)
       .ok (addResult s c.k (doneResult (destOf s c w.d n.d) c.act (fun l => (res.getD l (0#64, 0#8)).1.toNat)
         fun l => (res.getD l (0#64, 0#8)).2))) := by
  simp only [laneBody, h1, h2, h3]
  rfl

/-- A lane of the 32, read from a list made over them. -/
@[simp] theorem getD_lanes {α : Type} (f : Nat → α) (d : α) (l : Nat) (h : l < 32) : (lanes32.map f).getD l d = f l := by
  simp [lanes32, List.getD_eq_getElem?_getD, h]

end Sys2Proof.Machine
end

