-- ==== Sys2Proof/Machine/Object.lean ====
section
/-! DEFINITION. Klopor objects as the loader reads them (03 R37 to R41, R45): header and sections, relocations, kernel descriptors and the
launch records filled from them, and how runs are formed. The device never reads an object: these functions say what the loader
writes into memory before a program runs, and no step calls them. -/

namespace Sys2Proof.Machine

/-- A number that a file holds at an offset, n bytes long. -/
def fileNum (file : Bytes) (off n : Nat) : Nat := leVal ((file.drop off).take n)

/-! ## Header and sections (03 R37, R38) -/

/-- An entry of the section table. -/
structure Section where
  kind : Nat
  flags : Nat
  align : Nat
  off : Nat
  size : Nat
  link : Nat
  deriving DecidableEq, Repr, Inhabited

/-- The FLAGS of each section type: readable 1, writable 2, executable 4, replicated 8. -/
def sectionFlags (kind : Nat) : Option Nat :=
  match kind with
  | 1 | 2 => some 12
  | 3 => some 9
  | 4 | 5 => some 3
  | 6 | 7 | 8 | 9 => some 0
  | _ => none

/-- An entry of the section table as a file holds it at an offset; nothing where the loader refuses it. -/
def readSection (file : Bytes) (off count : Nat) : Option Section :=
  let w := fileNum file off 32
  let s : Section :=
    { kind := bits w 7 0, flags := bits w 11 8, align := bits w 21 16, off := bits w 127 64, size := bits w 191 128, link := bits w 255 192 }
  let whole := s.kind == 5 || decide (s.off + s.size ≤ file.length)
  let linked := if s.kind = 7 then decide (s.link < count) else s.link == 0
  if sectionFlags s.kind = some s.flags && bits w 15 12 == 0 && bits w 63 22 == 0 && decide (3 ≤ s.align ∧ s.align ≤ 14) && whole && linked &&
      (s.kind != 5 || s.off == 0) then some s else none

/-- The sections of an object; nothing where the loader refuses it. -/
def readObject (file : Bytes) : Option (List Section) :=
  let w := fileNum file 0 64
  let n := bits w 63 48
  if bits w 31 0 = 0x00424F4B ∧ bits w 39 32 = 1 ∧ (bits w 43 40 = 0 ∨ bits w 43 40 = 4) ∧ bits w 47 44 = 0 ∧ bits w 511 128 = 0 ∧
      1 ≤ n ∧ n ≤ 4096 ∧ bits w 127 64 % 32 = 0 ∧ 64 ≤ file.length then
    ((upTo n).map fun i => readSection file (bits w 127 64 + 32 * i) n).mapM id
  else none

/-- The bytes that a loaded section holds: those of the file, or zeros for BSS. -/
def sectionBytes (file : Bytes) (s : Section) : Bytes :=
  if s.kind = 5 then List.replicate s.size 0#8 else (file.drop s.off).take s.size

/-- The attributes RD, WR, EX and REPL of the pages of a loaded section, as bits 61, 60, 59 and 58 of a leaf (03 R38, R45). -/
def sectionAttrs (s : Section) : Nat :=
  (if s.flags.testBit 0 then 2 ^ 61 else 0) + (if s.flags.testBit 1 then 2 ^ 60 else 0) +
    (if s.flags.testBit 2 then 2 ^ 59 else 0) + (if s.flags.testBit 3 then 2 ^ 58 else 0)

/-- The physical addresses to which the loader writes a section placed at a base: four copies of a replicated one (03 R45). -/
def sectionCopies (s : Section) (base : Nat) : List Nat :=
  if s.flags.testBit 3 then (upTo 4).map fun d => base + d * 2 ^ 37 else [base]

/-! ## Relocations (03 R39) -/

/-- The value a relocation writes, of a symbol's address plus its addend, the address of the patched word, and whether the symbol's
address begins a run; nothing for a link error. -/
def relocValue (kind : Nat) (sa p : Int) (runStart : Bool) : Option Nat :=
  let a := (sa % 2 ^ 64).toNat
  match kind with
  | 1 => some a
  | 2 =>
    let d := sa - p
    if d % 8 = 0 ∧ -(2 ^ 23) ≤ d / 8 ∧ d / 8 < 2 ^ 23 ∧ runStart = true then some ((d / 8 % 2 ^ 24).toNat) else none
  | 3 => some (bits a 15 0)
  | 4 => some (bits a 31 16)
  | 5 => some (bits a 47 32)
  | 6 => some (bits a 56 48)
  | _ => none

/-- A word patched by a relocation: the whole word for ABS64, else IMM24 of an I-form word. -/
def relocated (kind w : Nat) (sa p : Int) (runStart : Bool) : Option Nat :=
  (relocValue kind sa p runStart).map fun v => if kind = 1 then v else setBits w 33 10 v

/-! ## Symbols (03 R38) -/

/-- An entry of SYMTAB. -/
structure Symbol where
  name : Nat
  sect : Nat
  bind : Nat
  kind : Nat
  value : Nat
  size : Nat
  deriving DecidableEq, Repr, Inhabited

/-- The symbol of an index. -/
def readSymbol (symtab : Bytes) (i : Nat) : Option Symbol :=
  if symtab.length < 24 * (i + 1) then none
  else
    let w := fileNum symtab (24 * i) 24
    some { name := bits w 31 0, sect := bits w 47 32, bind := bits w 55 48, kind := bits w 63 56, value := bits w 127 64, size := bits w 191 128 }

/-- The name at an offset of STRTAB: its bytes up to the zero that ends it. -/
def nameAt (strtab : Bytes) (off : Nat) : Bytes := (strtab.drop off).takeWhile (· != 0#8)

/-- The loaded address of a symbol, of the sections' bases: its value is an offset in its section (DESIGN CHOICE, log 70). -/
def Symbol.addr (y : Symbol) (bases : List Nat) : Int := ((bases.getD y.sect 0 + y.value : Nat) : Int)

/-- The contents of the first section of a type; nothing where there is none. -/
def contentsOf (file : Bytes) (secs : List Section) (kind : Nat) : Bytes :=
  ((secs.find? (·.kind == kind)).map (sectionBytes file)).getD []

/-! ## Linking (03 R39) -/

/-- An entry of RELOC. -/
structure Reloc where
  off : Nat
  sym : Nat
  kind : Nat
  addend : Int
  deriving DecidableEq, Repr, Inhabited

/-- The relocations of a section; nothing where a reserved field is not zero. -/
def readRelocs (bs : Bytes) : Option (List Reloc) :=
  ((upTo (bs.length / 24)).map fun i =>
    let w := fileNum bs (24 * i) 24
    if bits w 127 104 ≠ 0 then none
    else some ({ off := bits w 63 0, sym := bits w 95 64, kind := bits w 103 96, addend := signed 64 (bits w 191 128) } : Reloc)).mapM id

/-- The words of a section of text. -/
def textWords (bs : Bytes) : List Bits64 := (upTo (bs.length / 8)).map fun i => BitVec.ofNat 64 (fileNum bs (8 * i) 8)

/-- The offsets at which runs of a section begin. -/
def runStarts : Nat → Bool → List Bits64 → List Nat
  | _, _, [] => []
  | off, first, w :: r => (if first then [off] else []) ++ runStarts (off + 8) (w.getLsbD 63) r

/-- The addresses at which runs of loaded text begin, of the sections with their bases. -/
def runsAt (file : Bytes) (secs : List Section) (bases : List Nat) : List Int :=
  (upTo secs.length).flatMap fun i =>
    let x := secs.getD i default
    if x.kind = 1 ∨ x.kind = 2 then (runStarts 0 true (textWords (sectionBytes file x))).map fun o => ((bases.getD i 0 + o : Nat) : Int) else []

/-- A relocation patches the contents of the section at a base; nothing for a link error. -/
def patch (symtab : Bytes) (bases : List Nat) (runs : List Int) (base : Nat) (bs : Bytes) (r : Reloc) : Option Bytes :=
  match readSymbol symtab r.sym with
  | none => none
  | some y =>
    if bs.length < r.off + 8 then none
    else
      let sa := y.addr bases + r.addend
      (relocated r.kind (fileNum bs r.off 8) sa ((base + r.off : Nat) : Int) (runs.contains sa)).map fun w =>
        bs.take r.off ++ leOf 8 w ++ bs.drop (r.off + 8)

/-- The contents that the loader writes for the sections of an object, every relocation applied once, in the order of the RELOC sections;
nothing where one of them is a link error. -/
def link (file : Bytes) (secs : List Section) (bases : List Nat) : Option (List Bytes) :=
  let symtab := contentsOf file secs 8
  let runs := runsAt file secs bases
  (secs.filter (·.kind == 7)).foldl (fun (a : Option (List Bytes)) x =>
    a.bind fun cs => (readRelocs (sectionBytes file x)).bind fun rs =>
      (rs.foldl (fun (b : Option Bytes) r => b.bind fun bs => patch symtab bases runs (bases.getD x.link 0) bs r) (some (cs.getD x.link []))).map
        fun bs => setAt cs x.link bs) (some (secs.map (sectionBytes file)))

/-! ## Kernel descriptors (03 R40) -/

/-- A kernel descriptor. -/
structure Kernel where
  name : Nat
  entSym : Nat
  mentSym : Option Nat
  cls : Nat
  vregs : Nat
  srows : Nat
  arows : Nat
  phasers : Nat
  roles : Nat
  fmts : Option (List Bits64)
  deriving DecidableEq, Repr, Inhabited

/-- The descriptor at an offset of KDESC, its format defaults in the block that follows. -/
def readKernel (kdesc : Bytes) (off : Nat) : Option Kernel :=
  let w := fileNum kdesc off 64
  let ok := decide ((bits w 99 96 = 0 ∨ bits w 99 96 = 4) ∧ 1 ≤ bits w 107 100 ∧ bits w 107 100 ≤ 188) && bits w 511 172 == 0
  if !ok then none
  else
    some
      { name := bits w 31 0, entSym := bits w 63 32, mentSym := if bits w 95 64 = 0xFFFFFFFF then none else some (bits w 95 64),
        cls := bits w 99 96, vregs := bits w 107 100, srows := bits w 120 108, arows := bits w 133 121, phasers := bits w 138 134,
        roles := bits w 170 139,
        fmts := if w.testBit 171 then some ((upTo 8).map fun i => BitVec.ofNat 64 (fileNum kdesc (off + 64 + 8 * i) 8)) else none }

/-- A launch record as a number of 256 bytes (02 R32). -/
def recordOf (l : Launch) : Nat :=
  let one := fun (b : Bool) => if b then 1 else 0
  ([(0, 1), (8, l.cls), (12, l.prio), (16, one l.mx), (17, one l.wt), (18, one l.dn), (32, l.nteams), (64, l.entry), (128, l.mentry),
    (192, l.threads), (203, l.clus), (207, l.vregs), (215, l.phasers), (220, l.srows), (233, l.arows), (256, l.roles), (288, l.trows),
    (320, l.const), (384, l.csize), (448, l.doneph), (512, l.waitph), (569, l.waitgen), (1152, l.coresel), (1344, l.jobtag)] :
      List (Nat × Nat)).foldl (fun n f => n + f.2 * 2 ^ f.1)
    ((upTo 8).foldl (fun n i => n + (l.fmts.getD i 0#64).toNat * 2 ^ (640 + 64 * i)) 0)

/-- The record of a kernel: the descriptor's fields in a record whose other fields the host has supplied, its entries at the addresses of
its symbols. Formats that the descriptor gives stand in place of the host's: 03 R40 calls them defaults and does not say which stands where
the host supplies some (DESIGN CHOICE, log 70). -/
def kernelRecord (k : Kernel) (entry mentry : Nat) (host : Launch) : Nat :=
  recordOf { host with cls := k.cls, mx := k.mentSym.isSome, entry := entry, mentry := if k.mentSym.isSome then mentry else 0,
                       vregs := k.vregs, srows := k.srows, arows := k.arows, phasers := k.phasers, roles := k.roles,
                       fmts := k.fmts.getD host.fmts }

/-! ## Runs in code (03 R41) -/

/-- The words of a section form runs: every word is legal, so that a transfer stands on a boundary; a boundary comes within 24 words of
the one before, and the last word is one. The first number counts the words since the last boundary. -/
def runsFormed : Nat → List Bits64 → Bool
  | n, [] => n == 0
  | n, w :: r =>
    (match decodeWord w with | .ok _ => true | .error _ => false) && decide (n < 24) &&
      runsFormed (if w.getLsbD 63 then 0 else n + 1) r

/-- The run offset in words that a control transfer names (16 R246). -/
def runOffset (w : Bits64) : Option (BitVec 24) :=
  match decodeWord w with
  | .ok (.nextw x) | .ok (.brc x) | .ok (.call x) | .ok (.regroup x) | .ok (.loop x) => some x.imm
  | _ => none

/-- The addresses that the transfers of text at a base name. -/
def transferTargets (base : Nat) (ws : List Bits64) : List Nat :=
  (upTo ws.length).filterMap fun i => (runOffset (ws.getD i 0#64)).map (target (base + 8 * i))

/-- The labels that transfers name, and the entries of kernels, begin runs: of the text of an object with the bases of its sections, and
of its kernels' symbols (03 R41). -/
def labelsFormed (text : List (Nat × List Bits64)) (entries : List Nat) : Bool :=
  let starts := text.flatMap fun t => (runStarts 0 true t.2).map (t.1 + ·)
  ((text.flatMap fun t => transferTargets t.1 t.2) ++ entries).all starts.contains

/-- The entries of a kernel, of its `.entry` and its `.matrix`. -/
def Kernel.entries (k : Kernel) (symtab : Bytes) (bases : List Nat) : List Nat :=
  ([some k.entSym, k.mentSym].filterMap id).filterMap fun i => (readSymbol symtab i).map fun y => (y.addr bases).toNat

/-- The text of an object has no error of 03 R41: the runs of each section are formed, and every label that a transfer, `.entry` or
`.matrix` names begins a run. -/
def textFormed (text : List (Nat × List Bits64)) (entries : List Nat) : Bool :=
  text.all (fun t => runsFormed 0 t.2) && labelsFormed text entries

end Sys2Proof.Machine
end

