-- ==== Sys2Proof/Tests/Slice0.lean ====
section
/-! SUPPORT. Tests of the model against values written out in or worked from the specification, and for every statement a concrete state
and operands that meet its hypotheses. -/

namespace Sys2Proof.Tests

set_option Elab.async false

open Sys2Proof Sys2Proof.Machine Sys2Proof.Claims

/-! ## Nothing else in flight -/

/-- Calm, computed. -/
def calmB (s : State) : Bool :=
  s.fly.remotes.isEmpty && (s.work.teams.all fun e => e.2.image.all (·.pending.isEmpty)) && (s.adm.doms.all fun e => e.2.cur.marked.isEmpty) &&
  s.work.groups.all fun e => !e.2.waitsOn (fun w => match w with | .post _ => true | _ => false)

theorem dom_all {p : Dom → Bool} {t : Tab Dom} (h : (t.all fun e => p e.2) = true) (h0 : p Dom.fresh = true) (d : Nat) :
    p ((tget t d).getD Dom.fresh) = true := by
  induction t with
  | nil => exact h0
  | cons e r ih =>
    simp only [List.all_cons, Bool.and_eq_true] at h
    simp only [tget]
    split
    · exact h.1
    · exact ih h.2

theorem calm_of {s : State} (h : calmB s = true) : Calm s := by
  simp only [calmB, Bool.and_eq_true, List.isEmpty_iff, List.all_eq_true, Bool.not_eq_true'] at h
  obtain ⟨⟨⟨h1, h2⟩, h3⟩, h4⟩ := h
  refine ⟨h1, fun e he im hi => ?_, fun d => ?_, h4⟩
  · have := h2 e he
    rw [hi] at this
    simpa using this
  · have := dom_all (p := fun x => x.cur.marked.isEmpty) (List.all_eq_true.mpr fun e he => List.isEmpty_iff.mpr (h3 e he)) rfl d
    exact List.isEmpty_iff.mp this

/-! ## Nothing changed but caches and samples -/

theorem tget_unlisted {β : Type} {t : Tab β} {k : Nat} (h : k ∉ t.map (·.1)) : tget t k = none := by
  induction t with
  | nil => rfl
  | cons e r ih =>
    simp only [List.map_cons, List.mem_cons, not_or] at h
    simp only [tget, ih h.2, Ne.symm h.1, if_false]

/-- Two tables agree wherever either lists an entry, up to f. -/
def alikeB {β : Type} [BEq β] (f : β → β) (d : β) (t u : Tab β) : Bool :=
  (t.map (·.1) ++ u.map (·.1)).all fun k => f ((tget t k).getD d) == f ((tget u k).getD d)

theorem tget_alike {β : Type} [BEq β] [LawfulBEq β] {f : β → β} {t u : Tab β} {d : β} (h : alikeB f d t u = true) (k : Nat) :
    f ((tget t k).getD d) = f ((tget u k).getD d) := by
  by_cases m : k ∈ t.map (·.1) ++ u.map (·.1)
  · exact beq_iff_eq.mp (List.all_eq_true.mp h k m)
  · simp only [List.mem_append, not_or] at m
    rw [tget_unlisted m.1, tget_unlisted m.2]

/-- A partition without its samples and its log. -/
def unsampled (p : Part) : Part := { p with hist := [], log := 0#64 }
/-- A core without its TLB. -/
def untranslated (c : Core) : Core := { c with tlb := [] }

theorem of_untranslated {a b : Core} (h : untranslated a = untranslated b) : a = { b with tlb := a.tlb } := by
  cases a; cases b; simp_all [untranslated]

/-- AdminKept, computed. -/
def adminB (s t : State) : Bool :=
  t.adm.doms == s.adm.doms && t.adm.queues == s.adm.queues &&
  alikeB unsampled Part.fresh t.adm.parts s.adm.parts

theorem admin_of {s t : State} (h : adminB s t = true) : AdminKept s t := by
  simp only [adminB, Bool.and_eq_true, beq_iff_eq] at h
  exact ⟨h.1.1, h.1.2, fun p => tget_alike h.2 p⟩

/-- SameButReads, computed. -/
def readsOnlyB (s t : State) : Bool :=
  t.work == s.work && t.fly == s.fly && t.sys == s.sys && adminB s t && t.core == { s.core with cores := t.core.cores } &&
  alikeB untranslated Core.fresh t.core.cores s.core.cores

theorem reads_only_of {s t : State} (h : readsOnlyB s t = true) : SameButReads s t := by
  simp only [readsOnlyB, Bool.and_eq_true, beq_iff_eq] at h
  obtain ⟨⟨⟨⟨⟨h1, h2⟩, h3⟩, h4⟩, h5⟩, h6⟩ := h
  exact ⟨h1, h2, h3, admin_of h4, h5, fun c => of_untranslated (tget_alike h6 c)⟩

/-! ## Ill-formed words -/

/-- An IADD with these fields. -/
def iaddW (h : Head) (d a b c : Opd) (pb : Pat) (k : Nat) (m : Nat) : Instr :=
  .iadd { plainR h d a b c (BitVec.ofNat 4 m) with pb := pb, k := BitVec.ofNat 5 k }

theorem test_wf_iadd : (iaddW (bare true) (.v 4) (.v 5) (.v 6) .none .rot 3 0).wf = true := by decide +kernel
/-- A guard that says never (16 R241). -/
theorem test_ill_never : (iaddW ⟨false, true, 0#3⟩ (.v 4) (.v 5) (.v 6) .none .ident 0 0).wf = false := by decide +kernel
/-- An operand that the instruction does not have (16 R242). -/
theorem test_ill_operand : (iaddW (bare false) (.v 4) (.v 5) (.v 6) (.v 7) .ident 0 0).wf = false := by decide +kernel
/-- A register above v191 (16 R242). -/
theorem test_ill_register : (iaddW (bare false) (.v 192) (.v 5) (.v 6) .none .ident 0 0).wf = false := by decide +kernel
/-- An odd register for a 64-bit value (16 R242). -/
theorem test_ill_odd : (iaddW (bare false) (.v 4) (.v 5) (.v 6) .none .ident 0 1).wf = false := by decide +kernel
/-- A pattern on an s-register source (16 R244). -/
theorem test_ill_pattern : (iaddW (bare false) (.v 4) (.v 5) (.s 6) .none .rot 1 0).wf = false := by decide +kernel
/-- K out of its pattern's range (16 R244). -/
theorem test_ill_parameter : (iaddW (bare false) (.v 4) (.v 5) (.v 6) .none .mir 5 0).wf = false := by decide +kernel
/-- K without a pattern (16 R244). -/
theorem test_ill_no_pattern : (iaddW (bare false) (.v 4) (.v 5) (.v 6) .none .ident 5 0).wf = false := by decide +kernel
/-- An undefined modifier (16 R245). -/
theorem test_ill_modifier : (iaddW (bare false) (.v 4) (.v 5) (.v 6) .none .ident 0 2).wf = false := by decide +kernel
/-- An s-register destination with a v-register source (16 R242). -/
theorem test_ill_gather : (iaddW (bare false) (.s 4) (.v 5) (.s 6) .none .ident 0 0).wf = false := by decide +kernel
/-- A terminator without B (04 R58). -/
theorem test_ill_terminator : (Instr.exit (plainR (bare false) .none .none .none .none 0#4)).wf = false := by decide +kernel
/-- A predicate destination p0 (16 R242). -/
theorem test_ill_p0 : (Instr.icmp (plainR (bare false) (.p 0) (.v 3) (.v 4) (.p 0) 2#4)).wf = false := by decide +kernel
/-- A special register that does not exist (19 R352). -/
theorem test_ill_special : (Instr.rdsr ⟨bare false, .v 2, .none, 0x040#24, 0#4⟩).wf = false := by decide +kernel
/-- An M-form word with an order it does not take (18 R303). -/
theorem test_ill_order : (Instr.st ⟨bare false, .v 2, .v 8, .none, 0#14, .w32, .acq, .dev, 0#4⟩).wf = false := by decide +kernel
/-- A load into an s-register from a v-register base (18 R292). -/
theorem test_ill_load : (Instr.ld ⟨bare false, .s 2, .v 8, .none, 0#14, .w32, .plain, .grp, 0#4⟩).wf = false := by decide +kernel
/-- An odd segment register (16 R248). -/
theorem test_ill_segment : (Instr.ld ⟨bare false, .v 2, .v 8, .s 3, 0#14, .w32, .plain, .grp, 0#4⟩).wf = false := by decide +kernel
/-- A pair whose vector operation reads what its scalar operation writes (16 R250). -/
theorem test_ill_pair : (Instr.pairSIadd ⟨bare false, .iadd, 1#6, 1#6, .imm 4#7, .fadd, .v 4, .s 1, .v 6⟩).wf = false := by decide +kernel
/-- A pair with two sources of one bank (16 R250). -/
theorem test_ill_bank : (Instr.pairSIadd ⟨bare false, .iadd, 1#6, 1#6, .imm 4#7, .fadd, .v 4, .v 5, .v 9⟩).wf = false := by decide +kernel
/-- A field that a NOP does not read (16 R250). -/
theorem test_ill_idle : (Instr.pairVNop ⟨bare false, .iadd, 1#6, 1#6, .imm 4#7, .nop, .v 4, .none, .none⟩).wf = false := by decide +kernel
/-- The constructor of another code. -/
theorem test_ill_constructor : (Instr.voteAll (plainR (bare false) (.p 1) (.p 2) .none .none 2#4)).wf = false := by decide +kernel

/-! ## Decoding words of the specification -/

/-- A word decodes to this instruction. -/
def reads (w : Bits64) (i : Instr) : Bool := match decodeWord w with | .ok j => j == i | .error _ => false
/-- A word does not decode. -/
def refuses (w : Bits64) : Bool := match decodeWord w with | .ok _ => false | .error _ => true

/-- The worked encodings of 16 R253, 17, 18 and 19. -/
theorem test_worked : workedWords.all (fun e => reads e.1 e.2) = true := by decide +kernel
/-- The words they name as illegal. -/
theorem test_illegal : illegalWords.all refuses = true := by decide +kernel
/-- EXIT with B = 1 (16, after R256). -/
theorem test_exit : reads 0x801C000000000000#64 (.exit (plainR (bare true) .none .none .none .none 0#4)) = true := by decide +kernel
/-- Field by field from 16 R243 to R247 and R252, one word of each family without a worked encoding: VOTE.BALLOT v1, p2 (OP 0x55, M 2);
SATADD.U v1, v2, v3 (OP 0x64, M 1); CVT.IN v1, v2 under slot 0 (OP 0x70, M 0); MSEND v1, s2, s4, s5 (OP 0xB0); BANKROLE with role 1
v1, s2 (OP 0xD7, M 1). -/
theorem test_families :
    reads 0x0154040800000002#64 (.voteBallot (plainR (bare false) (.v 1) (.p 2) .none .none 2#4)) = true ∧
    reads 0x019004080C000001#64 (.satadd (plainR (bare false) (.v 1) (.v 2) (.v 3) .none 1#4)) = true ∧
    reads 0x01C0040800000000#64 (.cvt (plainR (bare false) (.v 1) (.v 2) .none .none 0#4)) = true ∧
    reads 0x02C0070B13140000#64 (.msend (plainR (bare false) (.v 1) (.s 2) (.s 4) (.s 5) 0#4)) = true ∧
    reads 0x035C070800000001#64 (.bankrole (plainR (bare false) (.v 1) (.s 2) .none .none 1#4)) = true := by
  decide +kernel
/-- The table's word reader: the first byte is bits [7:0] (00 R6, 16 R240). -/
theorem test_table_word : decodeTableWord 64 0x8040101418001030 = some (iaddW (bare true) (.v 4) (.v 5) (.v 6) .none .rot 3 0) := by
  decide +kernel

/-! ## States for the witnesses -/

/-- The context of the unit that issues. -/
def cx (h : Head) (s : State) : Ctx := (wordCtx h s).getD ⟨0, oneGroup [], Run.of 0 0 0#32 [], 0, 0#32⟩

theorem issuing_cx {h : Head} {s : State} (e : (wordCtx h s).isSome = true) : Issuing s h (cx h s) := by
  simp only [Issuing, cx]
  cases hx : wordCtx h s <;> simp_all

/-- Named and Clean, computed. -/
def readyB (s : State) (c : Ctx) (w : RWord) (n : Widths) (seqOk : Bool) : Bool :=
  let own := fun (n : Nat) => match teamRow s c.g n with
    | some r => (s.rowTag (s.coreOf c.g) (physRow s c.g r)).owner == some (s.didOf c.g)
    | none => false
  let clean := fun (n : Nat) => match teamRow s c.g n with
    | some r => (s.rowTag (s.coreOf c.g) (physRow s c.g r)).poison == false
    | none => true
  (!c.g.isSeq || seqOk) && (!c.g.isSeq || (vregsOf w.d n.d ++ readsR w n).isEmpty) && (vregsOf w.d n.d ++ readsR w n).all own &&
  (readsR w n).all clean && (match w.d with | .v m => n.d != 2 || teamRow s c.g m != teamRow s c.g (m + 1) | _ => true)

theorem ready_of {s : State} {c : Ctx} {w : RWord} {n : Widths} {q : Bool} (h : readyB s c w n q = true) : Ready s c w n q := by
  simp only [readyB, Bool.and_eq_true, Bool.or_eq_true, Bool.not_eq_true', List.all_eq_true, List.isEmpty_iff] at h
  obtain ⟨⟨⟨⟨h1, h2⟩, h3⟩, h4⟩, h5⟩ := h
  refine ⟨fun x => by simpa [x] using h1, ⟨fun x => by simpa [x] using h2, fun m hm => ?_⟩, fun m hm r hr => ?_, fun m e1 e2 => ?_⟩
  · have := h3 m hm
    split at this
    · next r e => exact ⟨r, e, by simpa using this⟩
    · cases this
  · simpa [hr] using h4 m hm
  · simpa [e1, e2] using h5

/-- The device with one LIVE domain, one team on core 0 and one group of 32 lanes that issues a run of two NOPs; nothing else is in
progress (the state of log 4). -/
def base : State :=
  let s := State.reset.setDom 1 { Dom.fresh with st := .live }
  let s1 := s.setWork { grids := [(0, oneGrid 1)], teams := [(0, oneTeam 1)], groups := [(0, oneGroup [0#64, 0x8000000000000000#64])] }
  let s2 := s1.setCore { s1.core with rowTags := (upTo 192).map fun i => (i, ⟨some 1, false⟩),
                                      sramTags := (upTo 17).map fun i => (i, ⟨0, false, some 1, false⟩) }
  (s2.setSys { s2.sys with up := true }).setCtl { s2.ctl with cur := some 0 }
/-- The same with its group changed. -/
def grp (f : Group → Group) : State := base.modGroup 0 f
/-- The same with a matrix sequencer as the unit that issues. -/
def seqn : State :=
  let s := base.setWork { base.work with groups := [(32, { oneGroup [0#64] with gid := 32, live := 1#32, run := some (Run.of 0x1000 0 1#32 [0#64]) })] }
  s.setCtl { s.ctl with cur := some 32 }
/-- A handler for a cause, of all 32 lanes. -/
def handlerOf (cause : Nat) : Handler :=
  { trap := ⟨cause, 0, 0, 0x2000, 0, 0xFFFFFFFF#32, true, 0⟩, held := [], waits := [], fence := [], finished := 0#32, budget := none,
    frame := 0 }
/-- Its group in a handler for a cause. -/
def inTrap (cause : Nat) : State := grp fun g => { g with handler := some (handlerOf cause) }
/-- Its gang is 16 of the 32 lanes. -/
def halfGang : State := grp fun g => { g with run := some (Run.of 0x1000 0 0xFFFF#32 [0#64]) }
/-- A path at call depth d. -/
def depthAt (d : Nat) : State := grp fun g => { g with run := some (Run.of 0x1000 d 0xFFFFFFFF#32 [0#64]) }
/-- Every lane in a read-side section. -/
def inSection : State := grp fun g => { g with depth := List.replicate 32 1 }
/-- Row r of the team poisoned. -/
def poisoned (r : Nat) : State :=
  base.setCore { base.core with rowTags := tset base.core.rowTags r ⟨some 1, true⟩ }
/-- Row r of the team another domain's. -/
def alien (r : Nat) : State :=
  base.setCore { base.core with rowTags := tset base.core.rowTags r ⟨some 2, false⟩ }
/-- The team's launch changed. -/
def launched (f : Launch → Launch) : State :=
  base.setWork { base.work with grids := tset base.work.grids 0 { oneGrid 1 with launch := f oneLaunch } }
/-- A launch with 16 registers. -/
def fewRegs : State := launched fun r => { r with vregs := 16 }
/-- An s-register set. -/
def withS (s : State) (n v : Nat) : State := s.setCore { s.core with sregs := tset s.core.sregs n (BitVec.ofNat 32 v) }

/-- Without a guard, not the run's last word. -/
def hd : Head := bare false
/-- The run's last word. -/
def hdB : Head := bare true
/-- Under a guard that is false in every lane. -/
def hdOff : Head := ⟨false, false, 1#3⟩

/-! ## Witnesses: words that compute -/

/-- Three v-register operands and a v-register destination. -/
def rv : RWord := plainR hd (.v 4) (.v 5) (.v 6) (.v 7) 0#4
/-- The same in pairs of registers. -/
def rvW : RWord := plainR hd (.v 4) (.v 6) (.v 8) (.v 10) 1#4
/-- s-registers alone. -/
def rs : RWord := plainR hd (.s 4) (.s 5) (.s 6) (.s 7) 0#4

theorem base_issues : Issuing base hd (cx hd base) := issuing_cx (by decide +kernel)

/-- Row.Fixed, Row.Variable, Row.Frames: v-registers, pairs, s-registers, and s-registers in the sequencer. -/
theorem wit_rows :
    (Issuing base rv.h (cx rv.h base) ∧ Ready base (cx rv.h base) rv {} false ∧ (cx rv.h base).act ≠ 0#32) ∧
    (Issuing base rvW.h (cx rvW.h base) ∧ Ready base (cx rvW.h base) rvW ⟨2, 2, 2, 2⟩ false) ∧
    (Issuing base rs.h (cx rs.h base) ∧ Ready base (cx rs.h base) rs {} false) ∧
    (Issuing seqn rs.h (cx rs.h seqn) ∧ Ready seqn (cx rs.h seqn) rs {} true) :=
  ⟨⟨base_issues, ready_of (by decide +kernel), by decide +kernel⟩, ⟨base_issues, ready_of (by decide +kernel)⟩,
   ⟨base_issues, ready_of (by decide +kernel)⟩, ⟨issuing_cx (by decide +kernel), ready_of (by decide +kernel)⟩⟩

/-- A step of the model answers a next state. -/
def goes (i : Instr) (s : State) : Bool := match exec i s with | .next _ => true | _ => false

theorem answers_of {i : Instr} {s : State} (h : goes i s = true) : ∃ t, Answers i s t := by
  simp only [goes] at h
  split at h
  · next t e => exact ⟨t, e⟩
  · cases h

/-- An I-form word. -/
def iw (h : Head) (d a : Opd) (imm : Nat) : IWord := ⟨h, d, a, BitVec.ofNat 24 imm, 0#4⟩
/-- The context of the base state. -/
def c0 : Ctx := cx hd base

theorem base_all_active : ∀ l < 32, ActiveIn c0 l := fun l h => ⟨h, by
  have : ∀ l < 32, inMask c0.act l = true := by decide +kernel
  exact this l h⟩

/-- MOVI and MOVH: a v-register, and an s-register in the sequencer. -/
theorem wit_Moves :
    (Issuing base hd c0 ∧ Ready base c0 (asR (iw hd (.v 7) (.v 5) 3)) {} true) ∧
    (Issuing seqn hd (cx hd seqn) ∧ Ready seqn (cx hd seqn) (asR (iw hd (.s 7) (.s 5) 3)) {} true) :=
  ⟨⟨base_issues, ready_of (by decide +kernel)⟩, ⟨issuing_cx (by decide +kernel), ready_of (by decide +kernel)⟩⟩

/-- IADDC: carry in p1 and carry out p7. -/
theorem wit_AddWithCarry :
    Issuing base hd c0 ∧ Ready base c0 { rv with c := .imm 57 } {} true ∧ c0.g.preds.length = 7 ∧ (carryOf (.imm 57)).2 ≤ 7 ∧
      carryOf (.imm 57) = (1, 7) :=
  ⟨base_issues, ready_of (by decide +kernel), by decide +kernel, by decide +kernel, by decide +kernel⟩

/-- Words that write a predicate: p1 and p7. -/
theorem wit_Predicates :
    Issuing base hd c0 ∧ Ready base c0 { rv with d := .p 1, c := .p 0 } {} true ∧ PredDest c0 (.p 1) ∧ PredDest c0 (.p 7) :=
  ⟨base_issues, ready_of (by decide +kernel), by unfold PredDest; decide +kernel, by unfold PredDest; decide +kernel⟩

/-- Cross-lane words: with the whole entry mask; a collective with a guard false everywhere, and with a part of the entry mask. -/
theorem wit_CrossLane :
    (Issuing base hd c0 ∧ Ready base c0 rv {} false ∧ Acts c0 true ∧ Acts c0 false) ∧
    (Issuing base hdOff (cx hdOff base) ∧ Ready base (cx hdOff base) rv {} false ∧ (cx hdOff base).act = 0#32) ∧
    (Issuing halfGang hd (cx hd halfGang) ∧ Ready halfGang (cx hd halfGang) rv {} false ∧ (cx hd halfGang).act ≠ 0#32 ∧
      ¬ ((cx hd halfGang).r.gang = (cx hd halfGang).g.live ∧ (cx hd halfGang).act = (cx hd halfGang).r.gang)) :=
  ⟨⟨base_issues, ready_of (by decide +kernel), by unfold Acts; decide +kernel, by unfold Acts; decide +kernel⟩,
   ⟨issuing_cx (by decide +kernel), ready_of (by decide +kernel), by decide +kernel⟩,
   ⟨issuing_cx (by decide +kernel), ready_of (by decide +kernel), by decide +kernel, by decide +kernel⟩⟩

/-- Operands out of range, of another domain, in the sequencer, and poisoned. -/
theorem wit_RegisterTraps :
    (Issuing seqn hd (cx hd seqn) ∧ (cx hd seqn).g.isSeq = true ∧ vregsOf rv.d 1 ++ readsR rv {} ≠ []) ∧
    (Issuing fewRegs hd (cx hd fewRegs) ∧ (cx hd fewRegs).g.isSeq = false ∧
      ([4, 16, 5].find? fun n => (teamRow fewRegs (cx hd fewRegs).g n).isNone) = some 16) ∧
    (Issuing (alien 5) hd (cx hd (alien 5)) ∧ teamRow (alien 5) (cx hd (alien 5)).g 5 = some 5 ∧
      ((alien 5).rowTag 0 5).owner ≠ some ((alien 5).didOf (cx hd (alien 5)).g)) ∧
    (Issuing (poisoned 5) hd (cx hd (poisoned 5)) ∧ poisonedRow (poisoned 5) (cx hd (poisoned 5)) (readsR rv {}) = some 5) :=
  ⟨⟨issuing_cx (by decide +kernel), by decide +kernel, by decide +kernel⟩,
   ⟨issuing_cx (by decide +kernel), by decide +kernel, by decide +kernel⟩,
   ⟨issuing_cx (by decide +kernel), by decide +kernel, by decide +kernel⟩,
   ⟨issuing_cx (by decide +kernel), by decide +kernel⟩⟩

/-- Frames: a word of each kind answers a next state. -/
theorem wit_RegisterFrames :
    ∀ i ∈ [Instr.iadd rv, .icmp { rv with d := .p 1, c := .p 0 }, .perm rv, .iaddc { rv with c := .imm 1 }, .movi (iw hd (.v 7) .none 3), .nop rv,
      .nextw (iw hdB .none .none 3), .call (iw hdB (.v 20) .none 5), .loop (iw hdB (.v 20) .none 5), .setpri (iw hd .none .none 5)],
      ∃ t, Answers i base t :=
  fun i h => answers_of (by revert i; decide +kernel)

/-! ## Witnesses: control -/

/-- Transfers: at call depth 0, 1, 62 and 63. -/
theorem wit_Transfers :
    (Issuing base hdB (cx hdB base) ∧ Ready base (cx hdB base) (plainR hdB .none (.v 4) .none .none 0#4) ⟨1, 2, 1, 1⟩ true ∧
      (cx hdB base).act ≠ 0#32 ∧ (cx hdB base).r.depth = 0) ∧
    (Issuing (depthAt 1) hdB (cx hdB (depthAt 1)) ∧ 1 ≤ (cx hdB (depthAt 1)).r.depth) ∧
    (Ready base (cx hdB base) (asR (iw hdB (.v 20) .none 5)) ⟨2, 1, 1, 1⟩ false ∧ (cx hdB base).r.depth < 63 ∧
      (cx hdB (depthAt 62)).r.depth < 63 ∧ 63 ≤ (cx hdB (depthAt 63)).r.depth ∧ (cx hdB (depthAt 63)).act ≠ 0#32) ∧
    (Ready base (cx hdB base) (asR (iw hdB (.v 20) .none 5)) {} true ∧ Clean base (cx hdB base) (vregsOf (.v 20) 1)) := by
  refine ⟨⟨issuing_cx (by decide +kernel), ready_of (by decide +kernel), by decide +kernel, by decide +kernel⟩,
    ⟨issuing_cx (by decide +kernel), by decide +kernel⟩,
    ⟨ready_of (by decide +kernel), by decide +kernel, by decide +kernel, by decide +kernel, by decide +kernel⟩,
    ⟨ready_of (by decide +kernel), ?_⟩⟩
  have h := (ready_of (s := base) (c := cx hdB base) (w := plainR hdB .none (.v 20) .none .none 0#4) (n := {}) (q := true) (by decide +kernel)).2.2.1
  simpa [readsR, vregsOf, plainR] using h

/-- Group words: outside a section and in one, in a handler, in the sequencer; under a guard that is false. -/
theorem wit_GroupControl :
    (Issuing base hd c0 ∧ c0.g.isSeq = false ∧ c0.g.handler = none ∧ c0.act ≠ 0#32 ∧ ∀ l < 32, c0.g.depth.getD l 0 = 0) ∧
    (Issuing inSection hd (cx hd inSection) ∧ ActiveIn (cx hd inSection) 31 ∧ (cx hd inSection).g.depth.getD 31 0 ≠ 0) ∧
    (Issuing (inTrap 0x13) hd (cx hd (inTrap 0x13)) ∧ (cx hd (inTrap 0x13)).g.isSeq = false ∧ (cx hd (inTrap 0x13)).g.handler ≠ none) ∧
    (Issuing seqn hd (cx hd seqn) ∧ (cx hd seqn).g.isSeq = true) ∧
    (Issuing base hdOff (cx hdOff base) ∧ (cx hdOff base).act = 0#32 ∧ (cx hdOff base).g.isSeq = false) :=
  ⟨⟨base_issues, by decide +kernel, by decide +kernel, by decide +kernel, by decide +kernel⟩,
   ⟨issuing_cx (by decide +kernel), by unfold ActiveIn; decide +kernel, by decide +kernel⟩,
   ⟨issuing_cx (by decide +kernel), by decide +kernel, by decide +kernel⟩, ⟨issuing_cx (by decide +kernel), by decide +kernel⟩,
   ⟨issuing_cx (by decide +kernel), by decide +kernel, by decide +kernel⟩⟩

/-- Handlers of PREEMPT and of another cause. -/
theorem wit_TrapWords :
    (Issuing (inTrap 0x15) hd (cx hd (inTrap 0x15)) ∧ (cx hd (inTrap 0x15)).g.handler = some (handlerOf 0x15) ∧ (handlerOf 0x15).trap.cause = 0x15) ∧
    (Issuing (inTrap 0x13) hd (cx hd (inTrap 0x13)) ∧ (cx hd (inTrap 0x13)).g.handler = some (handlerOf 0x13) ∧ (handlerOf 0x13).trap.cause ≠ 0x15) :=
  ⟨⟨issuing_cx (by decide +kernel), by decide +kernel, by decide +kernel⟩, ⟨issuing_cx (by decide +kernel), by decide +kernel, by decide +kernel⟩⟩

/-- WSYNC: equal masks of live lanes; masks that name a lane that has exited. -/
theorem wit_WarpSync :
    let w := plainR hd .none (.v 4) .none .none 0#4
    let full := withS base 4 0xFFFF
    let e := grp fun g => { g with live := 0xFFFF#32, run := some (Run.of 0x1000 0 0xFFFF#32 [0#64]) }
    let past := withS e 4 0x10000
    (Issuing base hd c0 ∧ Ready base c0 w {} false ∧ Acts c0 true) ∧
    (∀ l < 32, lo32 (srcAt full (cx hd full) w (.s 4) .ident 1 l) = 0xFFFF#32 ∧ 0xFFFF#32 &&& ~~~(cx hd full).g.live = 0#32) ∧
    (Acts (cx hd past) true ∧ ActiveIn (cx hd past) 3 ∧
      lo32 (srcAt past (cx hd past) w (.s 4) .ident 1 3) &&& ~~~(cx hd past).g.live ≠ 0#32) := by
  refine ⟨⟨base_issues, ready_of (by decide +kernel), by unfold Acts; decide +kernel⟩, by decide +kernel,
    by unfold Acts; decide +kernel, by unfold ActiveIn; decide +kernel, by decide +kernel⟩

/-! ## Witnesses: pairs and memory words -/

theorem named_of {s : State} {c : Ctx} {ns : List Nat}
    (h : ((!c.g.isSeq || ns.isEmpty) && ns.all fun n => match teamRow s c.g n with
      | some r => (s.rowTag (s.coreOf c.g) (physRow s c.g r)).owner == some (s.didOf c.g)
      | none => false) = true) : Named s c ns := by
  simp only [Bool.and_eq_true, Bool.or_eq_true, Bool.not_eq_true', List.all_eq_true, List.isEmpty_iff] at h
  refine ⟨fun x => by simpa [x] using h.1, fun m hm => ?_⟩
  have := h.2 m hm
  split at this
  · next r e => exact ⟨r, e, by simpa using this⟩
  · cases this

theorem clean_of {s : State} {c : Ctx} {ns : List Nat}
    (h : (ns.all fun n => match teamRow s c.g n with
      | some r => (s.rowTag (s.coreOf c.g) (physRow s c.g r)).poison == false
      | none => true) = true) : Clean s c ns := by
  intro m hm r hr
  simp only [List.all_eq_true] at h
  simpa [hr] using h m hm

/-- One lane runs. -/
def oneLane : State := grp fun g => { g with live := 1#32, run := some (Run.of 0x1000 0 1#32 [0#64]) }
/-- A pair of IADD and FADD. -/
def pw : PairWord := ⟨hd, .iadd, 1#6, 1#6, .imm 4#7, .fadd, .v 4, .v 5, .v 6⟩
/-- A 32-bit access at an offset from v10, or from s10. -/
def mw (off : Nat) : MWord := ⟨hd, .v 2, .v 10, .none, BitVec.ofNat 14 off, .w32, .plain, .grp, 0#4⟩
/-- The same on s-registers. -/
def mwS (off : Nat) : MWord := ⟨hd, .s 2, .s 10, .none, BitVec.ofNat 14 off, .w32, .plain, .grp, 0#4⟩

theorem ready_mem {e : MRow} {w : MWord} {s : State} {c : Ctx} (h1 : e.form w = true) (h2 : (!c.g.isSeq || e.seqOk w) = true)
    (h3 : Named s c (vregsOf w.data (e.cnt w) ++ vregsOf w.base 1))
    (h4 : Clean s c (vregsOf w.base 1 ++ if e.reads then vregsOf w.data (e.cnt w) else [])) : e.Ready w s c :=
  ⟨h1, fun x => by simpa [x] using h2, h3, h4⟩

/-- Pairs: a vector operation in a group; none in the sequencer; one in the sequencer; a register out of range. -/
theorem wit_Pairs :
    (Issuing base pw.h c0 ∧ PairReady base c0 pw .fadd) ∧ (Issuing seqn pw.h (cx hd seqn) ∧ PairReady seqn (cx hd seqn) pw .nop) ∧
    (cx hd seqn).g.isSeq = true ∧ (∃ t, Answers (.pairVFadd pw) base t) ∧
    (Issuing fewRegs hd (cx hd fewRegs) ∧
      (pairRegs { pw with va := .v 17 }).find? (fun n => (teamRow fewRegs (cx hd fewRegs).g n).isNone) = some 17) :=
  ⟨⟨base_issues, fun _ => ⟨by decide +kernel, named_of (by decide +kernel), clean_of (by decide +kernel), rfl⟩⟩,
   ⟨issuing_cx (by decide +kernel), fun h => absurd rfl h⟩, by decide +kernel, answers_of (by decide +kernel),
   ⟨issuing_cx (by decide +kernel), by decide +kernel⟩⟩

/-- Memory words at address 8 of every lane, and once in the sequencer. -/
theorem wit_MemoryWords :
    (Issuing base hd c0 ∧ ldRow.Ready (mw 8) base c0 ∧ ldRow.Reach (mw 8) base c0 ∧ accessLanes c0 (mw 8) ≠ []) ∧
    (Issuing base hd c0 ∧ stRow.Ready (mw 8) base c0 ∧ stRow.Reach (mw 8) base c0) ∧
    (Issuing seqn hd (cx hd seqn) ∧ ldRow.Ready (mwS 8) seqn (cx hd seqn) ∧ ldRow.Reach (mwS 8) seqn (cx hd seqn)) ∧
    (∀ e ∈ [mstRow, prefRow, probeRow] ++ padLoadRows ++ padStoreRows, e.Reach (mw 8) base c0) ∧
    (∀ e ∈ queueRows, e.Reach (mw 256) base c0) :=
  ⟨⟨base_issues, ready_mem rfl (by decide +kernel) (named_of (by decide +kernel)) (clean_of (by decide +kernel)),
     by unfold MRow.Reach; decide +kernel, by decide +kernel⟩,
   ⟨base_issues, ready_mem rfl (by decide +kernel) (named_of (by decide +kernel)) (clean_of (by decide +kernel)),
     by unfold MRow.Reach; decide +kernel⟩,
   ⟨issuing_cx (by decide +kernel), ready_mem rfl (by decide +kernel) (named_of (by decide +kernel)) (clean_of (by decide +kernel)),
     by unfold MRow.Reach; decide +kernel⟩,
   by unfold MRow.Reach; decide +kernel, by unfold MRow.Reach; decide +kernel⟩

/-- Atomics: one lane's access shares no byte; 32 lanes at one address do. -/
theorem wit_AtomicWords :
    (∀ e ∈ atomicRows ++ padAtomicRows, Issuing oneLane hd (cx hd oneLane) ∧ e.Ready (mw 8) oneLane (cx hd oneLane) ∧
      e.Reach (mw 8) oneLane (cx hd oneLane) ∧ e.Apart (mw 8) oneLane (cx hd oneLane)) ∧
    (∀ e ∈ atomicRows ++ padAtomicRows, Issuing base hd c0 ∧ e.Reach (mw 8) base c0 ∧ ¬ e.Apart (mw 8) base c0) := by
  have rd : ∀ e ∈ atomicRows ++ padAtomicRows, e.Ready (mw 8) oneLane (cx hd oneLane) := by
    intro e he
    simp only [atomicRows, padAtomicRows, List.cons_append, List.nil_append, List.mem_cons, List.not_mem_nil, or_false] at he
    rcases he with rfl | rfl | rfl | rfl | rfl <;>
      exact ready_mem rfl (by decide +kernel) (named_of (by decide +kernel)) (clean_of (by decide +kernel))
  refine ⟨fun e he => ⟨issuing_cx (by decide +kernel), rd e he, ?_, ?_⟩, fun e he => ⟨base_issues, ?_, ?_⟩⟩
  · revert e; unfold MRow.Reach; decide +kernel
  · revert e; unfold MRow.Apart; decide +kernel
  · revert e; unfold MRow.Reach; decide +kernel
  · revert e; unfold MRow.Apart; decide +kernel

/-- Addresses: negative; odd; from the end of the scratchpad on; and the last word of it. Constants past their end. -/
theorem wit_AddressTraps :
    (accessLanes c0 (mw 0x3FF8)).find? (fun l => !ldRow.formed (mw 0x3FF8) base c0 l) = some 0 ∧
    ((∀ l ∈ accessLanes c0 (mw 9), ldRow.formed (mw 9) base c0 l = true) ∧
      (accessLanes c0 (mw 9)).find? (fun l => !ldRow.aligned (mw 9) base c0 l) = some 0) ∧
    (∀ e ∈ padLoadRows, (∀ l ∈ accessLanes c0 (mw 4096), e.formed (mw 4096) base c0 l = true ∧ e.aligned (mw 4096) base c0 l = true) ∧
      (accessLanes c0 (mw 4096)).find? (fun l => !e.inside (mw 4096) base c0 l) = some 0 ∧ e.Reach (mw 4092) base c0) ∧
    ldcRow.inside { mw 0 with hint := 2#4 } base c0 0 = false :=
  ⟨by decide +kernel, ⟨by decide +kernel, by decide +kernel⟩, by unfold MRow.Reach; decide +kernel, by decide +kernel⟩

/-- Registers of memory words: in the sequencer, out of range, of another domain. -/
theorem wit_MemoryRegisterTraps :
    (Issuing seqn hd (cx hd seqn) ∧ (cx hd seqn).g.isSeq = true ∧ ldRow.seqOk (mw 8) = false) ∧
    (Issuing fewRegs hd (cx hd fewRegs) ∧ (cx hd fewRegs).g.isSeq = false ∧
      ([16] ++ [10]).find? (fun n => (teamRow fewRegs (cx hd fewRegs).g n).isNone) = some 16) ∧
    (Issuing (alien 10) hd (cx hd (alien 10)) ∧ (∀ n ∈ [2, 10], (teamRow (alien 10) (cx hd (alien 10)).g n).isSome = true) ∧
      teamRow (alien 10) (cx hd (alien 10)).g 10 = some 10 ∧
      ((alien 10).rowTag ((alien 10).coreOf (cx hd (alien 10)).g) (physRow (alien 10) (cx hd (alien 10)).g 10)).owner ≠
        some ((alien 10).didOf (cx hd (alien 10)).g)) :=
  ⟨⟨issuing_cx (by decide +kernel), by decide +kernel, by decide +kernel⟩,
   ⟨issuing_cx (by decide +kernel), by decide +kernel, by decide +kernel⟩,
   ⟨issuing_cx (by decide +kernel), by decide +kernel, by decide +kernel, by decide +kernel⟩⟩

/-- A launch with 64 bytes of constants. -/
def withConsts : State :=
  let g := { oneGrid 1 with launch := { oneLaunch with const := 0x100, csize := 64 }, consts := List.replicate 64 7#8 }
  base.setWork { base.work with grids := [(0, g)] }

/-- LD.C at the last word of the constants. -/
theorem wit_ConstantLoads :
    Issuing withConsts hd (cx hd withConsts) ∧ ldcRow.Ready { mw 60 with hint := 2#4 } withConsts (cx hd withConsts) ∧
      ldcRow.Reach { mw 60 with hint := 2#4 } withConsts (cx hd withConsts) :=
  ⟨issuing_cx (by decide +kernel), ready_mem (by decide +kernel) (by decide +kernel) (named_of (by decide +kernel))
    (clean_of (by decide +kernel)), by unfold MRow.Reach; decide +kernel⟩

/-- Scratchpad words of rows at hand: the first and the last word. -/
theorem wit_Scratchpad :
    (∀ e ∈ padLoadRows ++ padStoreRows, ∀ off ∈ [0, 4092], Issuing base hd c0 ∧ e.Reach (mw off) base c0 ∧ e.AtHand (mw off) base c0) ∧
    (∀ e ∈ padAtomicRows, e.Reach (mw 0) oneLane (cx hd oneLane) ∧ e.AtHand (mw 0) oneLane (cx hd oneLane) ∧
      e.Apart (mw 0) oneLane (cx hd oneLane)) := by
  have pad : ∀ (s : State) (e : MRow) (off : Nat), s.fly.reqs = [] → (cx hd s).act ≠ 0#32 →
      ((accessLanes (cx hd s) (mw off)).all fun l =>
        match padTeam s (cx hd s) e.sp (e.addr (mw off) s (cx hd s) l).toNat with
        | some (k, t) => s.team k == some t && t.frozen == false && t.retired == false &&
          (rowsOf (if e.sp = .cluster then (e.addr (mw off) s (cx hd s) l).toNat % 2 ^ 20 else (e.addr (mw off) s (cx hd s) l).toNat)
            (e.size (mw off))).all fun r =>
            rowPresent s t r && (s.srow t r).owner == some (s.didOf (cx hd s).g) && (s.srow t r).poison == false
        | none => false) = true → e.AtHand (mw off) s (cx hd s) := by
    intro s e off h1 h2 h3
    refine ⟨h1, h2, fun l hl => ?_⟩
    have h := List.all_eq_true.mp h3 l hl
    split at h
    · next k t hp =>
      simp only [Bool.and_eq_true, beq_iff_eq, List.all_eq_true] at h
      exact ⟨k, t, hp, h.1.1.1, h.1.1.2, h.1.2, fun r hr => ⟨(h.2 r hr).1.1, (h.2 r hr).1.2, (h.2 r hr).2⟩⟩
    · cases h
  refine ⟨fun e he off ho => ⟨base_issues, ?_, pad base e off (by decide +kernel) (by decide +kernel) ?_⟩,
    fun e he => ⟨?_, pad oneLane e 0 (by decide +kernel) (by decide +kernel) ?_, ?_⟩⟩
  · revert off; revert e; unfold MRow.Reach; decide +kernel
  · revert off; revert e; decide +kernel
  · revert e; unfold MRow.Reach; decide +kernel
  · revert e; decide +kernel
  · revert e; unfold MRow.Apart; decide +kernel

/-- A range that leaves the address space, and one that does not. -/
theorem wit_RangeWords :
    let s := withS (withS (withS base 2 0xFFFFFF00) 3 0x01FFFFFF) 6 0x200
    let w : MWord := ⟨hd, .s 6, .v 10, .s 2, 0#14, .w32, .plain, .grp, 0#4⟩
    (∀ e ∈ rangeRows, e.Reach w s (cx hd s) ∧ (accessLanes (cx hd s) w).find? (fun l =>
      decide (2 ^ 57 ≤ (e.addr w s (cx hd s) l).toNat + dataAt s (cx hd s) w 0 1 l ∧ dataAt s (cx hd s) w 0 1 l ≠ 0)) = some 0) ∧
    (∀ e ∈ rangeRows, e.Reach (mw 0) base c0 ∧ ∀ l ∈ accessLanes c0 (mw 0),
      decide (2 ^ 57 ≤ (e.addr (mw 0) base c0 l).toNat + dataAt base c0 (mw 0) 0 1 l ∧ dataAt base c0 (mw 0) 0 1 l ≠ 0) = false) := by
  unfold MRow.Reach; decide +kernel

/-- A remote store without a binding. -/
theorem wit_RemoteRefused :
    let w : MWord := ⟨hd, .v 2, .v 10, .s 2, 0#14, .w32, .plain, .grp, 8#4⟩
    Issuing base hd c0 ∧ stRow.Ready w base c0 ∧ stRow.Reach w base c0 ∧ stRow.remote w = true ∧ accessLanes c0 w ≠ [] ∧
      (bindingOf base (linkOf base c0 w) (base.didOf c0.g)).isNone = true :=
  ⟨base_issues, ready_mem rfl (by decide +kernel) (named_of (by decide +kernel)) (clean_of (by decide +kernel)),
   by unfold MRow.Reach; decide +kernel, by decide +kernel, by decide +kernel, by decide +kernel⟩

/-- Frames: nothing waits, and words of each kind answer a next state. -/
theorem wit_MemoryFrame :
    Quiet base ∧ (∃ t, Answers (.ld (mw 8)) base t) ∧ (∃ t, Answers (.sts (mw 8)) base t) ∧ (∃ t, Answers (.fence (mw 0)) base t) ∧
      (∃ t, Answers (.cleanr (mw 0)) base t) :=
  ⟨by unfold Quiet; decide +kernel, answers_of (by decide +kernel), answers_of (by decide +kernel), answers_of (by decide +kernel),
   answers_of (by decide +kernel)⟩

/-! ## Witnesses: synchronisation, messages, gates -/

/-- A synchronisation word may issue here, and nothing else is in progress. -/
def Met (s : State) (w : RWord) (n : Widths) (seqOk coll : Bool) (t : Team) : Prop :=
  Issuing s w.h (cx w.h s) ∧ SyncReady s (cx w.h s) w n seqOk coll ∧ Idle s (cx w.h s) t

/-- Met, computed. -/
def metB (s : State) (w : RWord) (n : Widths) (seqOk coll : Bool) (t : Team) : Bool :=
  let c := cx w.h s
  (wordCtx w.h s).isSome && readyB s c w n seqOk &&
  (decide (c.act ≠ 0#32) && (!coll || decide (c.r.gang = c.g.live ∧ c.act = c.r.gang))) &&
  decide (s.fly.reqs = [] ∧ s.fly.posts = [] ∧ s.fly.upds = [] ∧ s.teamOf c.g = some t) &&
  (match s.team (c.k / 64) with | some u => u.rowsHere | none => true)

theorem met_of {s : State} {w : RWord} {n : Widths} {q coll : Bool} {t : Team} (h : metB s w n q coll t = true) : Met s w n q coll t := by
  simp only [metB, Bool.and_eq_true, decide_eq_true_eq] at h
  obtain ⟨⟨⟨⟨h1, h2⟩, h3⟩, h4⟩, h5⟩ := h
  have hr := ready_of h2
  refine ⟨issuing_cx h1, ⟨hr.1, hr.2.1, hr.2.2.1, h3.1, fun e => by simpa [e] using h3.2⟩, h4.1, h4.2.1, h4.2.2.1, h4.2.2.2, fun u hu => ?_⟩
  simpa [hu] using h5

/-- A phaser word on team phaser n of base, with its count or generation in s4. -/
def phW (n hint : Nat) : MWord := ⟨hd, .s 4, .s 0, .none, BitVec.ofNat 14 n, .w128, .plain, .grp, BitVec.ofNat 4 hint⟩

theorem teamPhaser_of {s : State} {n hint : Nat} {t : Team}
    (h : ((phW n hint).hint.toNat.testBit 3 = false ∧ (cx hd s).act ≠ 0#32 ∧ (cx hd s).g.isSeq = false ∧ s.fly.reqs = [] ∧ s.fly.posts = [] ∧ s.fly.upds = [] ∧
      s.teamOf (cx hd s).g = some t ∧ phaserNumber s (cx hd s) (phW n hint) < teamPhasers s t ∧
      bits (sramPhaser s (phaserKey s t (phaserNumber s (cx hd s) (phW n hint)))) 127 125 = 0))
    (h2 : (match s.team ((cx hd s).k / 64) with | some u => u.rowsHere | none => true) = true) : TeamPhaser s (cx hd s) (phW n hint) t :=
  ⟨h.1, h.2.1, ⟨fun e => absurd e (by simp [h.2.2.1]), fun m hm => by simp [phW, vregsOf] at hm⟩,
    ⟨h.2.2.2.1, h.2.2.2.2.1, h.2.2.2.2.2.1, h.2.2.2.2.2.2.1, fun u hu => by simpa [hu] using h2⟩, h.2.2.2.2.2.2.2⟩

/-- The group holds these registrations. -/
def registered (v : Nat) : State := grp fun g => { g with phreg := v }

/-- Phaser words: taken on phaser 15, refused for COUNT, for its registration, and by the phaser. -/
theorem wit_PhaserWords :
    (TeamPhaser base c0 (phW 15 0) (oneTeam 1) ∧ phaserNumber base c0 (phW 15 0) = 15 ∧
      (phaserRows.map fun e => (e.refuses 0 (sopd base c0 (.s 4) 1)).isNone) = [true, true, true, false] ∧
      (phaserRows.map fun e => (e.after 0 (heldOf c0.g 15)).isSome) = [true, false, false, true] ∧
      ((phApply (sramPhaser base (phaserKey base (oneTeam 1) 15)) (newEpoch base) { sreg := 1, pend := 1 }).toOption).isSome = true) ∧
    (TeamPhaser base c0 (phW 0 3) (oneTeam 1) ∧ badCount 3 (sopd base c0 (.s 4) 1) = some 5 ∧ badCount 3 1023 = none) ∧
    (TeamPhaser (registered 1) (cx hd (registered 1)) (phW 0 0) (oneTeam 1) ∧ heldOf (cx hd (registered 1)).g 0 = 1 ∧
      (match phApply (sramPhaser (registered 1) (phaserKey (registered 1) (oneTeam 1) 0)) (newEpoch (registered 1)) { pend := -1 } with
        | .error 3 => true | _ => false) = true) :=
  ⟨⟨teamPhaser_of (by decide +kernel) (by decide +kernel), by decide +kernel, by decide +kernel, by decide +kernel, by decide +kernel⟩,
   ⟨teamPhaser_of (by decide +kernel) (by decide +kernel), by decide +kernel, by decide +kernel⟩,
   ⟨teamPhaser_of (by decide +kernel) (by decide +kernel), by decide +kernel, by decide +kernel⟩⟩

/-- Operations on phasers, at the edges of their ranges. -/
theorem wit_PhaserCounts :
    bits (2 ^ 125) 127 125 ≠ 0 ∧ bits 0 127 125 = 0 ∧ (phPend 0 : Int) + (-1) < 0 ∧ 1023 < (phSreg 0 : Int) + 1024 ∧ (phWreg 0 : Int) - 1 < 0 ∧
      (2 : Int) ^ 23 ≤ phInb 0 + 2 ^ 23 ∧ phOutb 0 - 2 ^ 23 - 1 < -(2 ^ 23) ∧ (phSreg 0 : Int) + 1023 ≤ 1023 ∧ (phPend 0 : Int) + 4095 < 4096 ∧
      (phTs 0).ep = false := by decide +kernel

/-- Waits: where GEN differs, where it does not, and without the registration. -/
theorem wit_PhaserWaits :
    let s := withS (registered 2) 4 1
    (TeamPhaser s (cx hd s) (phW 0 0) (oneTeam 1) ∧ 2 ≤ heldOf (cx hd s).g 0 ∧
      phGen (sramPhaser s (phaserKey s (oneTeam 1) 0)) ≠ sopd s (cx hd s) (.s 4) 1 % 16) ∧
    (2 ≤ heldOf (cx hd (registered 2)).g 0 ∧ phGen (sramPhaser (registered 2) (phaserKey (registered 2) (oneTeam 1) 0)) =
      sopd (registered 2) (cx hd (registered 2)) (.s 4) 1 % 16) ∧
    (TeamPhaser base c0 (phW 0 0) (oneTeam 1) ∧ heldOf c0.g 0 < 2) :=
  ⟨⟨teamPhaser_of (by decide +kernel) (by decide +kernel), by decide +kernel, by decide +kernel⟩, by decide +kernel,
   ⟨teamPhaser_of (by decide +kernel) (by decide +kernel), by decide +kernel⟩⟩

/-- Team phaser 15 of base with these contents, registered as v says. -/
def phased (v p : Nat) : State :=
  let s := registered (v * 2 ^ 30)
  s.setCore { s.core with sram := memPut [] (phaserKey s (oneTeam 1) 15) (leOf 16 p) }

/-- Phaser words that complete: registered; dropped; an arrival that turns the phaser and one that does not; bytes expected. -/
theorem wit_PhaserCompletions :
    (∀ e ∈ phaserRows.take 1, ∀ h < 3, (TeamPhaser base c0 (phW 15 h) (oneTeam 1) ∧ e.refuses h (sopd base c0 (.s 4) 1) = none ∧
      (e.after h (heldOf c0.g 15)).isSome = true)) ∧
    (∀ p ∈ [2 ^ 16 + 2 ^ 4, 2 ^ 17 + 2 ^ 5], TeamPhaser (phased 1 p) (cx hd (phased 1 p)) (phW 15 0) (oneTeam 1) ∧
      Memory.wf (phased 1 p).core.sram = true ∧ heldOf (cx hd (phased 1 p)).g 15 = 1 ∧
      sramPhaser (phased 1 p) (phaserKey (phased 1 p) (oneTeam 1) 15) = p ∧
      (phaserRows.map fun e => (e.after 0 1).isSome) = [false, true, true, true]) ∧
    (let s := withS (phased 0 0) 4 7
     TeamPhaser s (cx hd s) (phW 15 0) (oneTeam 1) ∧ (phaserRows.map fun e => (e.refuses 0 (sopd s (cx hd s) (.s 4) 1)).isNone) =
       [true, true, true, true]) := by
  refine ⟨?_, ?_, teamPhaser_of (by decide +kernel) (by decide +kernel), by decide +kernel⟩
  · intro e he h hh
    refine ⟨teamPhaser_of (by revert h; decide +kernel) (by decide +kernel), ?_⟩
    revert h; revert e; decide +kernel
  · intro p hp
    refine ⟨teamPhaser_of (by revert p; decide +kernel) (by revert p; decide +kernel), ?_⟩
    revert p; decide +kernel

/-- A core with one FIFO bank and room for 8 message flits of partition 0. -/
def withFifo (s : State) : State :=
  s.modCore 0 fun c => { c with dpreg := [(0, BitVec.ofNat 64 (2 ^ 63 + 8 * 2 ^ 43), BitVec.ofNat 64 (2 ^ 42 + 2 ^ 37))] }
/-- A team changed. -/
def teamed (f : Team → Team) : State := base.setWork { base.work with teams := [(0, f (oneTeam 1))] }
/-- The words of the rings, in s-registers. -/
def ringW : RWord := plainR hd (.v 1) (.s 4) (.s 5) (.s 6) 0#4

/-- Rings: no frame free; a new ring of one slot with one producer and one consumer; a frame that is not held; one that is. -/
theorem wit_StageRings :
    let s := withS (withS (withFifo base) 5 (2 ^ 4 + 2 ^ 14)) 6 1
    let held := withFifo (teamed fun t => { t with frames := [0] })
    (Met base ringW {} true false (oneTeam 1) ∧ frameCount (base.coreAt 0) 0 = 0) ∧
    (Met s ringW {} true false (oneTeam 1) ∧ frameCount (s.coreAt 0) 0 = 32 ∧ s.team 0 = some (oneTeam 1) ∧
      ¬ (bits (2 ^ 4 + 2 ^ 14) 13 4 = 0 ∨ bits (2 ^ 4 + 2 ^ 14) 23 14 = 0) ∧ 0 + 2 ^ bits (2 ^ 4 + 2 ^ 14) 1 0 * 1 * 256 ≤ padExtent s (cx hd s).g) ∧
    (oneTeam 1).frames.contains 0 = false ∧
    (Met held ringW {} true false { oneTeam 1 with frames := [0] } ∧ [0].contains (sopd held (cx hd held) (.s 4) 1) = true ∧
      phGen (sramPhaser held (frameKey held { oneTeam 1 with frames := [0] } 0 + 32)) % 2 = 0) :=
  ⟨⟨met_of (by decide +kernel), by decide +kernel⟩,
   ⟨met_of (by decide +kernel), by decide +kernel, by decide +kernel, by decide +kernel, by decide +kernel⟩, by decide +kernel,
   ⟨met_of (by decide +kernel), by decide +kernel, by decide +kernel⟩⟩

/-- One s-register or v-register operand each. -/
def sW (d a b c : Nat) : RWord := plainR hd (.v d) (.s a) (.s b) (.s c) 0#4

/-- Sections: at depth 0, 1 and 15; a ticket that is complete, and one that was never issued. -/
theorem wit_Sections :
    let deep := grp fun g => { g with depth := List.replicate 32 15 }
    let late := withS base 4 5
    (Met base (sW 1 4 5 6) {} false false (oneTeam 1) ∧ (∀ l < 32, (cx hd base).g.depth.getD l 0 ≠ 15) ∧ (cx hd base).g.depth.getD 3 0 = 0 ∧
      issued (base.dom 1).cur (sopd base c0 (.s 4) 1) = true ∧ ticketDone (base.dom 1).cur (sopd base c0 (.s 4) 1) = true) ∧
    (Met inSection (sW 1 4 5 6) {} false false (oneTeam 1) ∧ ∀ l < 32, (cx hd inSection).g.depth.getD l 0 ≠ 0) ∧
    (Met deep (sW 1 4 5 6) {} false false (oneTeam 1) ∧ (cx hd deep).g.depth.getD 31 0 = 15) ∧
    (Met late (sW 1 4 5 6) {} false false (oneTeam 1) ∧ issued (late.dom 1).cur (sopd late (cx hd late) (.s 4) 1) = false) ∧
    (let s := late.modDom 1 fun d => { d with cur := { d.cur with next := 6 } }
     issued (s.dom 1).cur (sopd s (cx hd s) (.s 4) 1) = true ∧ ticketDone (s.dom 1).cur (sopd s (cx hd s) (.s 4) 1) = false) :=
  ⟨⟨met_of (by decide +kernel), by decide +kernel, by decide +kernel, by decide +kernel, by decide +kernel⟩,
   ⟨met_of (by decide +kernel), by decide +kernel⟩, ⟨met_of (by decide +kernel), by decide +kernel⟩,
   ⟨met_of (by decide +kernel), by decide +kernel⟩, by decide +kernel⟩

/-- The ring: without one; empty; with an entry that is ripe. -/
theorem wit_Deaccession :
    let w := plainR hd (.v 1) (.s 4) (.s 6) (.s 7) 0#4
    let q := plainR hd (.v 4) .none .none .none 0#4
    let ripe := base.modDom 1 fun d => { d with cur := { d.cur with ripe := 1, entries := [(0x40, 8, 0)] } }
    (Met base w ⟨1, 2, 1, 1⟩ false false (oneTeam 1) ∧ (base.dom 1).cur.v = false ∧
      (match dacc (sending base c0 (.v 1) 1 false) 1 0 0 0 c0.g.gts with | .status v _ => v == 1 | _ => false) = true) ∧
    (Met base q ⟨4, 1, 1, 1⟩ false false (oneTeam 1) ∧ (base.dom 1).cur.head = (base.dom 1).cur.ripe) ∧
    (Met ripe q ⟨4, 1, 1, 1⟩ false false (oneTeam 1) ∧ (ripe.dom 1).cur.head ≠ (ripe.dom 1).cur.ripe ∧
      (ripe.dom 1).cur.entries = [(0x40, 8, 0)]) :=
  ⟨⟨met_of (by decide +kernel), by decide +kernel, by decide +kernel⟩, ⟨met_of (by decide +kernel), by decide +kernel⟩,
   ⟨met_of (by decide +kernel), by decide +kernel, by decide +kernel⟩⟩

/-- An extent at s-register 5 of a length in s6, or one past the end. -/
def len1 : State := withS base 6 1
/-- A receive record posted, and a kept message. -/
def aRecv : Recv := { (default : Recv) with idx := 0, team := 0, buf := 0, len := 256 }

/-- MSEND: past the end; refused with BAD_ARG; to its own team. -/
theorem wit_msend :
    let w := plainR hd (.v 1) (.s 2) (.s 4) (.s 6) 0#4
    let far := withS len1 4 4096
    (Met far w ⟨1, 2, 1, 1⟩ false true (oneTeam 1) ∧ ¬ Fits far (cx hd far) 4096 1 ∧ sopd far (cx hd far) (.s 4) 1 = 4096) ∧
    (Met base w ⟨1, 2, 1, 1⟩ false true (oneTeam 1) ∧ Fits base c0 0 0 ∧ msendRefusal base (oneTeam 1) 0 0 0 = some 6) ∧
    (Met len1 w ⟨1, 2, 1, 1⟩ false true (oneTeam 1) ∧ Fits len1 (cx hd len1) 0 1 ∧ msendRefusal len1 (oneTeam 1) 0 0 1 = none ∧
      blockHere len1 (oneTeam 1) 0 1 = true) :=
  ⟨⟨met_of (by decide +kernel), by unfold Fits; decide +kernel, by decide +kernel⟩,
   ⟨met_of (by decide +kernel), by unfold Fits; decide +kernel, by decide +kernel⟩,
   ⟨met_of (by decide +kernel), by unfold Fits; decide +kernel, by decide +kernel, by decide +kernel⟩⟩

/-- MRECV: past the end, BAD_ARG, BAD_TAG, a phaser that the team does not have, no room, and a receive that is posted; MPROBE and MCANCEL. -/
theorem wit_mrecv :
    let w := plainR hd (.v 1) (.s 8) (.s 5) (.s 6) 0#4
    let room := withFifo len1
    let kept := room.modCore 0 fun c => { c with ovf := [(0, [{ (default : Msg) with dteam := 0, steam := 0, slink := 0, tag := 0, data := [7#8] }])] }
    (Met (withS len1 5 4096) w ⟨1, 4, 1, 1⟩ false false (oneTeam 1) ∧ ¬ Fits (withS len1 5 4096) (cx hd (withS len1 5 4096)) 4096 1) ∧
    (Met base w ⟨1, 4, 1, 1⟩ false false (oneTeam 1) ∧ bits (sopd base c0 (.s 6) 1) 8 0 < 1) ∧
    (Met (withS len1 10 0xFFF00000) w ⟨1, 4, 1, 1⟩ false false (oneTeam 1) ∧
      0xFFF0 ≤ bits (sopd (withS len1 10 0xFFF00000) (cx hd (withS len1 10 0xFFF00000)) (.s 8) 4) 95 80) ∧
    (let s := launched fun r => { r with phasers := 2 }
     teamPhasers s (oneTeam 1) ≤ bits (sopd (withS s 6 0x20001) (cx hd (withS s 6 0x20001)) (.s 6) 1) 19 16) ∧
    (Met len1 w ⟨1, 4, 1, 1⟩ false false (oneTeam 1) ∧ bits (sopd len1 (cx hd len1) (.s 6) 1) 19 16 < teamPhasers len1 (oneTeam 1) ∧
      ((tget (len1.coreAt 0).ovf 0).getD []) = [] ∧ partEntry (len1.coreAt 0) 0 = none) ∧
    (Met room w ⟨1, 4, 1, 1⟩ false false (oneTeam 1) ∧ (room.coreAt 0).recvs = [] ∧
      ((partEntry (room.coreAt 0) 0).map fun e => bits e.1 49 43) = some 8) ∧
    (Met kept w ⟨1, 4, 1, 1⟩ false false (oneTeam 1) ∧ recvMatches 0 0 0 0 0 0 0 = true ∧
      (((tget (kept.coreAt 0).ovf 0).getD []).filter fun o => o.dteam == 0 && o.bound.isNone).length = 1) :=
  ⟨⟨met_of (by decide +kernel), by unfold Fits; decide +kernel⟩, ⟨met_of (by decide +kernel), by decide +kernel⟩,
   ⟨met_of (by decide +kernel), by decide +kernel⟩, by decide +kernel,
   ⟨met_of (by decide +kernel), by decide +kernel, by decide +kernel, by decide +kernel⟩,
   ⟨met_of (by decide +kernel), by decide +kernel, by decide +kernel⟩, ⟨met_of (by decide +kernel), by decide +kernel, by decide +kernel⟩⟩

/-- A gate 0 of domain 1 to itself, for tags 0 to 0xFFFF and arguments of up to 256 bytes. -/
def withGate (s : State) : State :=
  (writeSector s 0 tableKey (leOf 128 (1 + 2 ^ 8 + 0xFFFF * 2 ^ 32 + 256 * 2 ^ 48 + 2 ^ 64)) false).modDom 1 fun d =>
    { d with gateCnt := 1 }
/-- A call of group 1 to domain 1, which some group has taken or nobody. -/
def aCall (gone : Bool) (taker : Option Nat) : Call :=
  { (default : Call) with id := 9, caller := 1, cdid := 1, gate := 0, size := 16, maxarg := 256, gone := gone, taker := taker }
/-- A state in which the issuing group holds a call. -/
def callHeld (gone : Bool) : State :=
  (len1.modDom 1 fun d => { d with inbox := [aCall gone (some 0)] }).modGroup 0 fun g => { g with call := some 9 }
/-- A second group of the team, whose call waits in the inbox. -/
def callWaits : State :=
  let s := base.modDom 1 fun d => { d with inbox := [aCall false none] }
  s.setWork { s.work with groups := s.work.groups ++ [(1, { oneGroup [] with gid := 1, slot := 1, run := none })] }

/-- GCALL: past the end, no such gate, and into the inbox. -/
theorem wit_gcall :
    let w := plainR hd (.v 1) (.s 4) (.s 5) (.s 6) 0#4
    let s := withGate len1
    (Met (withS len1 5 4096) w ⟨1, 1, 1, 2⟩ false true (oneTeam 1) ∧ ¬ Fits (withS len1 5 4096) (cx hd (withS len1 5 4096)) 4096 1) ∧
    (Met (withS len1 7 4000) w ⟨1, 1, 1, 2⟩ false true (oneTeam 1) ∧ Fits (withS len1 7 4000) (cx hd (withS len1 7 4000)) 0 1 ∧
      ¬ Fits (withS len1 7 4000) (cx hd (withS len1 7 4000)) 4000 256) ∧
    (Met len1 w ⟨1, 1, 1, 2⟩ false true (oneTeam 1) ∧ gateRefusal len1 1 0 (gateEntry len1 1 0) 0 1 = some 1) ∧
    (Met s w ⟨1, 1, 1, 2⟩ false true (oneTeam 1) ∧ Fits s (cx hd s) 0 256 ∧ gateRefusal s 1 0 (gateEntry s 1 0) 0 1 = none) :=
  ⟨⟨met_of (by decide +kernel), by unfold Fits; decide +kernel⟩,
   ⟨met_of (by decide +kernel), by unfold Fits; decide +kernel, by unfold Fits; decide +kernel⟩,
   ⟨met_of (by decide +kernel), by decide +kernel⟩, ⟨met_of (by decide +kernel), by unfold Fits; decide +kernel, by decide +kernel⟩⟩

/-- GWAIT: past the end, with a call held, with no call waiting, and with one. -/
theorem wit_gwait :
    let w := plainR hd .none (.s 4) (.s 5) .none 0#4
    (Met (withS base 5 4000) w {} false false (oneTeam 1) ∧ ¬ Fits (withS base 5 4000) (cx hd (withS base 5 4000)) 4000 272) ∧
    (Met (callHeld false) w {} false false (oneTeam 1) ∧ (cx hd (callHeld false)).g.call.isSome = true) ∧
    (Met base w {} false false (oneTeam 1) ∧ c0.g.call = none ∧ c0.g.st = .issuing ∧ gateWaits base 1 = [] ∧ waitingCalls base 1 = []) ∧
    (Met callWaits w {} false false (oneTeam 1) ∧ (cx hd callWaits).g.call = none ∧ gateWaits callWaits 1 = [] ∧
      (waitingCalls callWaits 1).find? (fun x => tagMatches x.tag 0 0) = some (aCall false none) ∧
      (callWaits.group 1).bind callWaits.teamOf = some (oneTeam 1)) :=
  ⟨⟨met_of (by decide +kernel), by unfold Fits; decide +kernel⟩, ⟨met_of (by decide +kernel), by decide +kernel⟩,
   ⟨met_of (by decide +kernel), by decide +kernel, by decide +kernel, by decide +kernel, by decide +kernel⟩,
   ⟨met_of (by decide +kernel), by decide +kernel, by decide +kernel, by decide +kernel, by decide +kernel⟩⟩

/-- GRET: past the end, without a call, with one whose caller is gone, with a reply of no length, and with a reply. -/
theorem wit_gret :
    let w := plainR hd (.v 1) (.s 4) (.s 6) .none 0#4
    (Met (withS len1 4 4096) w {} false false (oneTeam 1) ∧ ¬ Fits (withS len1 4 4096) (cx hd (withS len1 4 4096)) 4096 1) ∧
    (Met len1 w {} false false (oneTeam 1) ∧ Fits len1 (cx hd len1) 0 1 ∧ blockHere len1 (oneTeam 1) 0 1 = true ∧
      (cx hd len1).g.call.bind (fun id => findCall len1 id) = none) ∧
    (Met (callHeld true) w {} false false (oneTeam 1) ∧
      (cx hd (callHeld true)).g.call.bind (fun id => findCall (callHeld true) id) = some (1, aCall true (some 0))) ∧
    (Met (withS (callHeld false) 6 0) w {} false false (oneTeam 1) ∧ (aCall false (some 0)).maxarg = 256) ∧
    (Met (callHeld false) w {} false false (oneTeam 1) ∧
      (cx hd (callHeld false)).g.call.bind (fun id => findCall (callHeld false) id) = some (1, aCall false (some 0)) ∧
      (aCall false (some 0)).gone = false ∧ (aCall false (some 0)).caller ≠ (cx hd (callHeld false)).k) :=
  ⟨⟨met_of (by decide +kernel), by unfold Fits; decide +kernel⟩,
   ⟨met_of (by decide +kernel), by unfold Fits; decide +kernel, by decide +kernel, by decide +kernel⟩,
   ⟨met_of (by decide +kernel), by decide +kernel⟩, ⟨met_of (by decide +kernel), by decide +kernel⟩,
   ⟨met_of (by decide +kernel), by decide +kernel, by decide +kernel, by decide +kernel⟩⟩

/-- A device-side queue that is ready, at a page that core 0's die translates. -/
def withQueue : State :=
  let s := base.setAdm { base.adm with queues := [(16, { Queue.unwritten with kind := true, st := .ready, quota := 4 })] }
  s.modDie 0 fun d => { d with tlb := [{ did := 1, lvl := 0, page := 0, pte := 2 ^ 63 + 7 + 256 * 2 ^ 6 }] }
/-- An engine command that has not finished. -/
def outstanding : State := base.setCmd 7 { (default : Cmd) with team := 0, phase := 4, handle := 0 }

/-- MWAIT on a handle that is not outstanding and on one that is; LAUNCH: misaligned, past the end, a block not here, refused. -/
theorem wit_Launches :
    let w := plainR hd (.v 1) (.s 4) (.s 5) .none 0#4
    let away := base.modSrow (oneTeam 1) 0 fun x => { x with pend := 1 }
    (Met base w {} true false (oneTeam 1) ∧ handleOut base 0 0 = false) ∧
    (Met outstanding w {} true false (oneTeam 1) ∧ handleOut outstanding 0 (ticketAt outstanding (cx hd outstanding) w 0 % 65536) = true) ∧
    (Met (withS base 4 8) w {} false false (oneTeam 1) ∧ sopd (withS base 4 8) (cx hd (withS base 4 8)) (.s 4) 1 % 16 ≠ 0) ∧
    (Met (withS base 4 4096) w {} false false (oneTeam 1) ∧ ¬ Fits (withS base 4 4096) (cx hd (withS base 4 4096)) 4096 256) ∧
    (Met away w {} false false (oneTeam 1) ∧ blockHere away (oneTeam 1) 0 256 = false) ∧
    (Met base w {} false false (oneTeam 1) ∧ Fits base c0 0 256 ∧ blockHere base (oneTeam 1) 0 256 = true ∧ launchRefusal base 1 0 = some 1) ∧
    launchRefusal withQueue 1 0 = none :=
  ⟨⟨met_of (by decide +kernel), by decide +kernel⟩, ⟨met_of (by decide +kernel), by decide +kernel⟩,
   ⟨met_of (by decide +kernel), by decide +kernel⟩, ⟨met_of (by decide +kernel), by unfold Fits; decide +kernel⟩,
   ⟨met_of (by decide +kernel), by decide +kernel⟩,
   ⟨met_of (by decide +kernel), by unfold Fits; decide +kernel, by decide +kernel, by decide +kernel⟩, by decide +kernel⟩

/-- The traps and frames of synchronisation words: in the sequencer, out of range, under a false guard, with a part of the entry mask. -/
theorem wit_SyncTraps :
    (Issuing seqn hd (cx hd seqn) ∧ (cx hd seqn).g.isSeq = true) ∧
    (Issuing fewRegs hd (cx hd fewRegs) ∧ [16].find? (fun n => (teamRow fewRegs (cx hd fewRegs).g n).isNone) = some 16) ∧
    (Issuing base hdOff (cx hdOff base) ∧ Named base (cx hdOff base) [1] ∧ (cx hdOff base).act = 0#32) ∧
    (Issuing halfGang hd (cx hd halfGang) ∧ Named halfGang (cx hd halfGang) [1] ∧ (cx hd halfGang).act ≠ 0#32 ∧
      ¬ ((cx hd halfGang).r.gang = (cx hd halfGang).g.live ∧ (cx hd halfGang).act = (cx hd halfGang).r.gang)) ∧
    (NoneOwed base ∧ base.fly.upds = [] ∧ (∃ t, Answers (.rsbeg (plainR hd .none .none .none .none 0#4)) base t) ∧
      ∃ t, Answers (.phreg (phW 0 0)) base t) :=
  ⟨⟨issuing_cx (by decide +kernel), by decide +kernel⟩, ⟨issuing_cx (by decide +kernel), by decide +kernel⟩,
   ⟨issuing_cx (by decide +kernel), named_of (by decide +kernel), by decide +kernel⟩,
   ⟨issuing_cx (by decide +kernel), named_of (by decide +kernel), by decide +kernel, by decide +kernel⟩,
   ⟨by unfold NoneOwed; decide +kernel, by decide +kernel, answers_of (by decide +kernel), answers_of (by decide +kernel)⟩⟩

/-- Page tables of domain 1 in the table region: virtual addresses 0 to 2^36 map to the device addresses from 2^36 on, for reading and
writing; those from 2^36 to 2^37 map to the addresses from 2^37 on, for execution; the rest is not mapped. -/
def tabled (s : State) : State :=
  let s1 := s.setSys { s.sys with tbase := 0, tsize := 2 ^ 20, keys := [(1, 1)] }
  let leaf := fun (pa flags : Nat) => 2 ^ 63 + 2 ^ 62 + flags * 2 ^ 56 + pa + 2 ^ 6
  writeSector (writeSector s1 0 tableKey (leOf 128 (2 ^ 63 + 0x4000)) false) 0x80 tableKey
    (leOf 128 (leaf (2 ^ 36) 0x30 + leaf (2 ^ 37) 0x08 * 2 ^ 64)) false

theorem tabled_maps : (match translateDie0 (tabled base) 1 0x123 2 with | .ok _ pa _ => pa | _ => 0) = 2 ^ 36 + 0x123 := by decide +kernel

/-- Device memory that the tables map, zeroed under domain 1's key for one line. -/
def owned (s : State) : State := writeSector (writeSector s (2 ^ 29) 1 (List.replicate 128 0#8) false) (2 ^ 29 + 1) 1 (List.replicate 128 0#8) false

/-- LAUNCH into a queue that is ready: its record is written. -/
theorem wit_launch_record :
    let s := owned (tabled withQueue)
    let w := plainR hd (.v 1) (.s 4) (.s 5) .none 0#4
    Met s w {} false false (oneTeam 1) ∧ launchRefusal s 1 0 = none ∧ blockHere s (oneTeam 1) 0 256 = true ∧
    (match translateDie0 (sending s (cx hd s) (.v 1) 1 false) 1 0 2 with
      | .ok e pa s1 => (match unitAccess s1 e pa 0 256 (cx hd s).g.gts (some (padBytes s (oneTeam 1) 0 256)) with | .done _ _ _ => true | _ => false)
      | _ => false) = true :=
  ⟨met_of (by decide +kernel), by decide +kernel, by decide +kernel, by decide +kernel⟩

/-! ## Witnesses: system and engine words -/

/-- Special registers: one of 32 and one of 64 bits; %flags; the clock; a counter. -/
theorem wit_SpecialRegisters :
    (Issuing base hd c0 ∧ Ready base c0 (asR (iw hd (.v 4) .none 0x010)) ⟨srRegs 0x010, 1, 1, 1⟩ true ∧ base.teamOf c0.g = some (oneTeam 1) ∧
      base.launchOf (oneTeam 1) = some oneLaunch) ∧
    Ready base c0 (asR (iw hd (.v 4) .none 0x037)) ⟨srRegs 0x037, 1, 1, 1⟩ true ∧ Ready base c0 (asR (iw hd .none (.v 4) 0x00A)) {} false ∧
    Ready base c0 (plainR hd (.v 4) .none .none .none 0#4) ⟨2, 1, 1, 1⟩ false ∧ c0.act ≠ 0#32 :=
  ⟨⟨base_issues, ready_of (by decide +kernel), by decide +kernel, by decide +kernel⟩, ready_of (by decide +kernel),
   ready_of (by decide +kernel), ready_of (by decide +kernel), by decide +kernel⟩

/-- VIEW: a window of the whole block, one register too many, one row too many; SCRUB: two rows, none, misaligned, past the end. -/
theorem wit_Views :
    let v := plainR hd .none (.s 4) (.s 5) (.s 6) 0#4
    (Met (withS base 6 188) v {} false false (oneTeam 1) ∧ 0 + 188 ≤ oneLaunch.vregs ∧
      0 + 188 ≤ groupCount oneLaunch * sliceRows oneLaunch.vregs + viewRows oneLaunch.trows + viewRows oneLaunch.arows) ∧
    oneLaunch.vregs < 0 + sopd (withS base 6 189) (cx hd (withS base 6 189)) (.s 6) 1 ∧
    groupCount oneLaunch * sliceRows oneLaunch.vregs + viewRows oneLaunch.trows + viewRows oneLaunch.arows <
      sopd (withS (withS base 6 1) 4 5000) (cx hd (withS (withS base 6 1) 4 5000)) (.s 4) 1 + 1 ∧
    (Met (withS base 5 512) v {} false false (oneTeam 1) ∧ 0 + 512 ≤ padExtent (withS base 5 512) (cx hd (withS base 5 512)).g) ∧
    sopd (withS base 4 8) (cx hd (withS base 4 8)) (.s 4) 1 % 256 ≠ 0 ∧
    padExtent base c0.g < 4096 + 256 :=
  ⟨⟨met_of (by decide +kernel), by decide +kernel, by decide +kernel⟩, by decide +kernel, by decide +kernel,
   ⟨met_of (by decide +kernel), by decide +kernel⟩, by decide +kernel, by decide +kernel⟩

/-- A handler whose k0 to k3 hold a frame of one path for every lane. -/
def frameHere : State :=
  let s := inTrap 0x13
  s.setCore { s.core with rows := [(188, lanes32.map fun l => if l = 1 then 0x80000000#32 else 0#32)] }
/-- A bank of partition 0 on core 0 in a role, in a handler. -/
def bankIn (r : Role) : State :=
  (inTrap 0x13).modCore 0 fun c => { c with dpreg := [(0, BitVec.ofNat 64 (2 ^ 63), BitVec.ofNat 64 (2 ^ 53))], roles := [(0, r)] }

/-- SAVEF in the handler of PREEMPT, in another, and in the sequencer; LOADF of a frame that passes and of one that does not. -/
theorem wit_HandlerWords :
    (Issuing (inTrap 0x15) hd (cx hd (inTrap 0x15)) ∧ (cx hd (inTrap 0x15)).g.handler = some (handlerOf 0x15) ∧
      (cx hd (inTrap 0x15)).g.isSeq = false ∧ (cx hd (inTrap 0x15)).act ≠ 0#32) ∧
    (Issuing (inTrap 0x15) hdOff (cx hdOff (inTrap 0x15)) ∧ (cx hdOff (inTrap 0x15)).act = 0#32) ∧ (cx hd seqn).g.isSeq = true ∧
    (Issuing (inTrap 0x13) hd (cx hd (inTrap 0x13)) ∧ Ready (inTrap 0x13) (cx hd (inTrap 0x13)) rv {} false ∧
      frameValid (cx hd (inTrap 0x13)).g.live (readFrame (inTrap 0x13) (cx hd (inTrap 0x13)).g) = false) ∧
    (Issuing frameHere hd (cx hd frameHere) ∧ Ready frameHere (cx hd frameHere) rv {} false ∧
      frameValid (cx hd frameHere).g.live (readFrame frameHere (cx hd frameHere).g) = true) :=
  ⟨⟨issuing_cx (by decide +kernel), by decide +kernel, by decide +kernel, by decide +kernel⟩,
   ⟨issuing_cx (by decide +kernel), by decide +kernel⟩, by decide +kernel,
   ⟨issuing_cx (by decide +kernel), ready_of (by decide +kernel), by decide +kernel⟩,
   ⟨issuing_cx (by decide +kernel), ready_of (by decide +kernel), by decide +kernel⟩⟩

/-- BANKROLE: not of the partition; being scrubbed; in its role; held by a team; free to change. -/
theorem wit_bankrole :
    let w := plainR hd (.v 1) (.s 4) .none .none 1#4
    let mine := fun (r : Role) => ((partBanks ((bankIn r).coreAt 0) 0).contains 0 = true ∧ roleOf ((bankIn r).coreAt 0) 0 = r)
    (Issuing (inTrap 0x13) hd (cx hd (inTrap 0x13)) ∧ Ready (inTrap 0x13) (cx hd (inTrap 0x13)) w {} false ∧
      (inTrap 0x13).teamOf (cx hd (inTrap 0x13)).g = some (oneTeam 1) ∧ (partBanks ((inTrap 0x13).coreAt 0) 0).contains 0 = false) ∧
    Issuing (bankIn .partL1) hd (cx hd (bankIn .partL1)) ∧ mine (.scrub 0 none) ∧ mine .scratch ∧ mine .partL1 ∧ mine .fifo ∧ mine .sharedL1 ∧
    bankHeld (bankIn .scratch) 0 0 = true ∧ fifoUsed (bankIn .fifo) 0 0 0 = false ∧
    (bankHeld ((bankIn .scratch).setWork { (bankIn .scratch).work with teams := [(0, { oneTeam 1 with sramBase := 256 })] }) 0 0 = false) :=
  ⟨⟨issuing_cx (by decide +kernel), ready_of (by decide +kernel), by decide +kernel, by decide +kernel⟩,
   issuing_cx (by decide +kernel), by decide +kernel⟩

/-- A C group, with these bytes from scratchpad byte 0 on. -/
def roleC (block : Nat) : State :=
  let s := grp fun g => { g with roleC := true }
  s.setCore { s.core with sram := memPut [] 0 (leOf 128 block) }
/-- A copy of 64 bytes within the scratchpad. -/
def copyBlock : Nat := 1024 + 2 ^ 57 + (2048 + 2 ^ 57) * 2 ^ 64 + 64 * 2 ^ 128
/-- A card: one step, a 1 × 1 tile of K 16 from the scratchpad, no output (19 R345). -/
def jobCard : Nat :=
  7 * 2 ^ 6 + 7 * 2 ^ 9 + 2 ^ 12 + 2 ^ 14 + 2 ^ 20 + 2 ^ 24 + 2 ^ 32 + 2 ^ 40 + 0x10001 * 2 ^ 512
/-- A matrix sequencer whose launch has BF16 in slot 0 and an accumulator view, with a card at scratchpad byte 0. -/
def seqJob (card : Nat) : State :=
  let g := { oneGrid 1 with launch := { oneLaunch with fmts := [0x3000000000000000#64], arows := 1 } }
  let s := seqn.setWork { seqn.work with grids := [(0, g)] }
  s.setCore { s.core with sram := memPut [] 0 (leOf 128 card) }

/-- A command of the four copy and bank words: by a group that is no C group; past the end; misaligned; its block not here; refused;
accepted. -/
theorem wit_EngineWords :
    let w := plainR hd (.v 1) (.s 4) .none .none 0#4
    let s := roleC copyBlock
    let away := (roleC 0).modSrow (oneTeam 1) 0 fun x => { x with pend := 1 }
    (Issuing base hd c0 ∧ c0.g.roleC = false) ∧
    (Met (withS s 4 4096) w {} false true (oneTeam 1) ∧ (cx hd s).g.roleC = true ∧ ¬ Fits (withS s 4 4096) (cx hd (withS s 4 4096)) 4096 64) ∧
    (Met (withS s 4 8) w {} false true (oneTeam 1) ∧ Fits (withS s 4 8) (cx hd (withS s 4 8)) 8 64) ∧
    (Met away w {} false true (oneTeam 1) ∧ blockHere away (oneTeam 1) 0 64 = false) ∧
    (Met s w {} false true (oneTeam 1) ∧ s.fly.cmds = [] ∧ (cx hd s).r.waits = [] ∧ blockHere s (oneTeam 1) 0 64 = true ∧
      cmdRefusal (entering s (cx hd s) w.d 0xB8 0 false 0 false) (withBlock s (cx hd s) 0xB8 0 0 (oneTeam 1) 64) = none ∧
      canRaise (entering s (cx hd s) w.d 0xB8 0 false 0 false)
        (cmdRows (entering s (cx hd s) w.d 0xB8 0 false 0 false) (withBlock s (cx hd s) 0xB8 0 0 (oneTeam 1) 64)) = true) ∧
    (cmdRefusal (entering (roleC 0) (cx hd (roleC 0)) w.d 0xB8 0 false 0 false) (withBlock (roleC 0) (cx hd (roleC 0)) 0xB8 0 0 (oneTeam 1) 64) =
      some 1) :=
  ⟨⟨base_issues, by decide +kernel⟩, ⟨met_of (by decide +kernel), by decide +kernel, by unfold Fits; decide +kernel⟩,
   ⟨met_of (by decide +kernel), by unfold Fits; decide +kernel⟩, ⟨met_of (by decide +kernel), by decide +kernel⟩,
   ⟨met_of (by decide +kernel), by decide +kernel, by decide +kernel, by decide +kernel, by decide +kernel, by decide +kernel⟩,
   by decide +kernel⟩

/-- A job: not by the sequencer; under a false guard; past the end; refused; accepted, and a pair that waits. -/
theorem wit_jobs :
    let w := plainR hd (.s 1) (.s 4) (.s 5) .none 0#4
    let s := seqJob jobCard
    let j := cmdRefusal (entering s (cx hd s) w.d 0xBC 0 false 0 false) (withBlock s (cx hd s) 0xBC 0 0 (oneTeam 1) 128)
    (Issuing base hd c0 ∧ c0.g.isSeq = false) ∧ (Issuing seqn hdOff (cx hdOff seqn) ∧ (cx hdOff seqn).act = 0#32) ∧
    (Met s w {} true false (oneTeam 1) ∧ (cx hd s).g.isSeq = true ∧ w.m.toNat.testBit 0 = false ∧ s.fly.cmds = [] ∧ (cx hd s).r.waits = [] ∧
      Fits s (cx hd s) 0 128 ∧ blockHere s (oneTeam 1) 0 128 = true ∧ j = none ∧
      cmdRefusal (entering s (cx hd s) w.d 0xBD 0 false 0 true) (withBlock s (cx hd s) 0xBD 0 0 (oneTeam 1) 128) = none) ∧
    (let z := seqJob 0
     cmdRefusal (entering z (cx hd z) w.d 0xBC 0 false 0 false) (withBlock z (cx hd z) 0xBC 0 0 (oneTeam 1) 128) = some 1) ∧
    ¬ Fits s (cx hd s) 4096 128 :=
  ⟨⟨base_issues, by decide +kernel⟩, ⟨issuing_cx (by decide +kernel), by decide +kernel⟩,
   ⟨met_of (by decide +kernel), by decide +kernel, by decide +kernel, by decide +kernel, by decide +kernel, by unfold Fits; decide +kernel,
    by decide +kernel, by decide +kernel, by decide +kernel⟩, by decide +kernel, by unfold Fits; decide +kernel⟩

/-- GMMA over the whole entry mask; an integer slot without scales. -/
theorem wit_GroupProduct :
    (Issuing base hd c0 ∧ Named base c0 (vregsOf (.v 8) 8 ++ (vregsOf (.v 16) 4 ++ vregsOf (.v 20) 4 ++ vregsOf (.v 24) 8)) ∧ Acts c0 true ∧
      c0.g.isSeq = false ∧ Clean base c0 (vregsOf (.v 16) 4 ++ vregsOf (.v 20) 4 ++ vregsOf (.v 24) 8)) ∧
    gmmaTaken (slotOf 0#64) = false ∧ (slotOf 0x8000000000000000#64).intPlain = true :=
  ⟨⟨base_issues, named_of (by decide +kernel), by unfold Acts; decide +kernel, by decide +kernel, clean_of (by decide +kernel)⟩,
   by decide +kernel, by decide +kernel⟩

/-- Frames of the system words: each answers a next state. -/
theorem wit_SystemFrame :
    (∃ t, Answers (.savef rv) (inTrap 0x15) t) ∧ (∃ t, Answers (.loadf rv) frameHere t) ∧
    (∃ t, Answers (.bankrole (plainR hd (.v 1) (.s 4) .none .none 1#4)) (bankIn .partL1) t) ∧
    (∃ t, Answers (.copy (plainR hd (.v 1) (.s 4) .none .none 0#4)) (roleC copyBlock) t) :=
  ⟨answers_of (by decide +kernel), answers_of (by decide +kernel), answers_of (by decide +kernel), answers_of (by decide +kernel)⟩

/-! ## Witnesses: commands of the host -/

/-- A happening offered to a state. -/
def offered (h : Happening) (s : State) : State := s.setCtl { s.ctl with cur := none, ev := some h }
/-- A domain changed, no group and no team left. -/
def domIn (st : DState) : State := (base.setWork ⟨[], [], []⟩).modDom 1 fun d => { d with st := st }

/-- Refusals: a number past the functions; a VF that may not; a device that is down; a domain in another state. -/
theorem wit_CommandRefusals :
    let h := Happening.kill 2 1
    (giver h = some 2 ∧ base.sys.fkey = none ∧ ¬ mayGive base h) ∧ giver (.kill 65 1) = some 65 ∧ mayGive base (.kill 1 1) ∧ mayGive base (.kill 0 1) ∧
    (mayGive State.reset (.kill 0 1) ∧ State.reset.sys.up = false) ∧
    (base.sys.up = true ∧ base.sys.fatal = none ∧ statesFor (.openDomain 1 1) = some (1, [.closed]) ∧ (base.dom 1).st ∉ [DState.closed]) := by
  unfold mayGive MayName; decide +kernel

/-- The life of a domain: each state in which a command takes it. -/
theorem wit_DomainLife :
    let p := base.modPart 2 fun p => { p with domLimit := 1 }
    (MayShape 3 2 ∧ (domsOf p 2).length < (p.part 2).domLimit ∧ (p.dom 0).st = .free ∧ (∀ e ∈ domsOf p 2, e.2.slot ≠ 0)) ∧
    (MayName (domIn .closed) 1 1 ∧ ((domIn .closed).dom 1).st = .closed) ∧
    (MayName base 1 1 ∧ (base.dom 1).st = .live ∧ (base.dom 1).inbox = []) ∧
    (MayName base 0 1 ∧ Still base ∧ ∀ e ∈ base.work.groups, base.didOf e.2 = 1 → e.2.call = none ∧ e.2.outCall = none) ∧
    (((domIn .killing).dom 1).st = .killing ∧ (domIn .killing).work.groups = [] ∧ Still (domIn .killing) ∧ (domIn .killing).fly.scrubs = []) ∧
    (((domIn .retiring).dom 1).st = .retiring ∧ ((domIn .retiring).dom 1).snaps = []) ∧
    (let d := (base.modDom 1 fun d => { d with wlimit := 1, wcount := 2 ^ 20 }).dom 1
     d.st ∈ [DState.live, .draining] ∧ d.wlimit ≠ 0 ∧ d.wlimit * 2 ^ 20 ≤ d.wcount) := by
  unfold MayShape MayName Still; decide +kernel

/-- The example of 01 R16: partition 5 with entry 3 on cores 3 and 4. -/
def aDesc : PartDesc :=
  { part := 5, cores := [3, 4], domLimit := 4, quota := 0, lim0 := 0#64, lim1 := 0#64, barb0 := 0#64, barb1 := 0#64, barb2 := 0#64,
    ent0 := 0x8207_0030_0080#64, ent1 := 0x40C8_05C0_0000_0000#64, e := 3 }
/-- The state after a step. -/
def after (i : Instr) (s : State) : State := match exec i s with | .next t => t | _ => s
/-- The same committed. -/
def committed : State := after .partitionCommit (offered (.partitionCommit 0 aDesc) base)

/-- A commit: taken; BAD_ARG; BAD_PART; a weight; the two logs. -/
theorem wit_Partitions :
    (descBadArg aDesc = false ∧ descBadPart base aDesc = false) ∧ descBadArg { aDesc with e := 16 } = true ∧
    (descBadArg { aDesc with part := 0 } = false ∧ descBadPart base { aDesc with part := 0 } = true) ∧ MayShape 2 1 ∧
    ((committed.part 5).committed = true ∧ (committed.part 5).cores = [3, 4] ∧ (committed.part 5).e = 3) := by
  unfold MayShape; decide +kernel

/-- The words that the commit of 01 R16's example writes. -/
theorem test_commit_words :
    ([3, 4].map fun c => tget (committed.coreAt c).dpreg 3) =
      [some (0x8014_8207_0030_0080#64, 0x40C8_05C0_0000_0000#64), some (0x8014_8207_0030_0080#64, 0x40C8_05C0_0000_0000#64)] := by
  decide +kernel

/-- Registers: one that every function may write, one that the PF may; a CLOSED domain's rings; the inspection window. -/
theorem wit_Registers :
    let pick := fun (cls obj w : Nat) => (BitVec.ofNat 64 (cls * 2 ^ 59 + obj * 2 ^ 51 + w)).toNat
    (mayGive base (.registerWrite 3 (.prqOrder 12)) ∧ ∀ e ∈ regRefusal base (.prqOrder 12), e.1 = false) ∧
    (mayGive base (.registerWrite 0 (.powerLimit 800)) ∧ ∀ e ∈ regRefusal base (.powerLimit 800), e.1 = false) ∧
    (mayGive base (.registerWrite 1 (.dwdogLimit 1 7)) ∧ ∀ e ∈ regRefusal base (.dwdogLimit 1 7), e.1 = false) ∧
    (MayName (domIn .closed) 1 1 ∧ ((domIn .closed).dom 1).st = .closed ∧ bits (2 ^ 63 + 12) 62 57 = 0 ∧ bits (2 ^ 63 + 12) 11 4 = 0 ∧
      bits (2 ^ 63 + 12) 3 0 ≤ 12) ∧
    (bits (pick 1 7 1) 63 59 ∈ [1, 2, 3, 4, 10, 12, 13] ∧ ¬ MayName base 2 (bits (pick 1 7 1) 58 51)) ∧
    bits (pick 5 0 1) 63 59 ∈ [5, 6, 7, 8, 9, 11] ∧ (bits (pick 1 1 3) 63 59 = 1 ∧ MayName base 2 (bits (pick 1 1 3) 58 51) = MayName base 2 1 ∧
      bits (pick 1 1 3) 15 0 = 3) ∧ (bits (pick 12 1 3) 63 59 = 12 ∧ MayName base 1 1) := by
  refine ⟨?_, ?_, ?_, ?_, ?_, by decide +kernel, ⟨by decide +kernel, rfl, by decide +kernel⟩, ?_⟩ <;>
    (try unfold mayGive) <;> (try unfold MayName) <;> decide +kernel

/-- A queue of domain 1 in a state. -/
def queueIn (x : Queue) : State := base.setAdm { base.adm with queues := [(19, x)] }

/-- Queues: taken; OFF with a good and a bad descriptor; waiting to be enabled, enabled, in ERROR; a TAIL that fits and one that does not;
the doorbell of the partition's domain. -/
theorem wit_QueueCommands :
    let good := fun (a b : Nat) => a.testBit 57 = false ∧ bits a 7 0 = 0 ∧ bits b 59 56 = 0 ∧ bits b 63 60 ≤ 11 ∧ (a.testBit 62 = true ↔ bits b 55 40 ≠ 0)
    let q := fun (st : QState) => { Queue.unwritten with st := st }
    QueueTaken base 1 1 3 ∧ (base.queue 1 3).st = .off ∧ (good 0 0 ∧ good (2 ^ 63 + 2 ^ 62) (2 ^ 40 + 11 * 2 ^ 60)) ∧ ¬ good 1 0 ∧
    (good (2 ^ 63) 0 ∧ (base.queue 1 3).kind = false ∧ (base.queue 1 3).qpri = 0 ∧ (base.queue 1 3).base = 0 ∧
      (base.queue 1 3).order = 0 ∧ (base.queue 1 3).quota = 0) ∧
    (base.queue 1 3).fresh = false ∧ (QueueTaken (queueIn (q .idle)) 1 1 3 ∧ ((queueIn (q .idle)).queue 1 3).st ≠ .off ∧ bits 0 15 0 = (q .idle).tail ∧
      bits (2 ^ 58) 61 58 ≠ (q .idle).qpri ∧ (let x := { q .idle with kind := true, quota := 1 }; x.st ≠ .off ∧ bits 5 15 0 ≠ x.tail)) ∧
    (QueueTaken (queueIn (q .error)) 0 1 3 ∧ ((queueIn (q .error)).queue 1 3).st = .error) ∧
    ((16 + 2 ^ 16 - 0) % 2 ^ 16 ≤ 2 ^ (0 + 4) ∧ 2 ^ (0 + 4) < (17 + 2 ^ 16 - 0) % 2 ^ 16) ∧
    ((domsOf base 0).find? fun e => e.2.slot == 0).map (·.1) = some 1 := by
  unfold QueueTaken MayName
  refine ⟨?_, ?_, ⟨?_, ?_⟩, ?_, ?_, ?_, ?_, ?_, ?_, ?_⟩ <;> decide +kernel

/-- A launch record: one team of one group of 32 threads and 16 registers, entered at 2^36. -/
def aRecord : Nat :=
  1 + 1 * 2 ^ 32 + 2 ^ 36 * 2 ^ 64 + 32 * 2 ^ 192 + 1 * 2 ^ 203 + 16 * 2 ^ 207
/-- Partition 0 with an entry on core 0, and queue 3 of domain 1 with this record at HEAD of its ring at virtual address 0. -/
def recorded (w : Nat) : State :=
  let s := tabled (queueIn { Queue.unwritten with st := .waiting, tail := 1 })
  let s := (s.modPart 0 fun p => { p with cores := [0] }).modCore 0 fun c =>
    { c with dpreg := [(0, 0x8000_8200_4000_0010#64, 0x0840_0000_0000_0000#64)] }
  writeSector (writeSector s (2 ^ 29) 1 (leOf 128 w) false) (2 ^ 29 + 1) 1 (leOf 128 (w / 2 ^ 1024)) false
/-- The queue READY with a record whose constants are empty. -/
def dispatchable : State :=
  (recorded aRecord).modQueue 1 3 fun x => { x with st := .ready, record := some (launchFields aRecord) }

/-- A read of the distributor that gives bytes and a state for which a check holds. -/
def readsB (r : DRead) (p : Bytes → State → Bool) : Bool := match r with | .ok bs _ s => p bs s | _ => false

theorem reads_of {r : DRead} {p : Bytes → State → Bool} (h : readsB r p = true) : ∃ bs t s, r = .ok bs t s ∧ p bs s = true := by
  simp only [readsB] at h
  split at h
  · next bs t s => exact ⟨bs, t, s, rfl, h⟩
  · cases h

/-- The distributor's read of the record at HEAD. -/
def headRead (s : State) : DRead := distRead (s.modQueue 1 3 fun x => { x with st := .waiting }) 1 0 256 (queueWaiter 1 3)

/-- Dispatch: the record read and passed; a record that fails; a turn; a dispatch. -/
theorem wit_Dispatching :
    (∃ bs t s1, headRead (recorded aRecord) = .ok bs t s1 ∧
      (s1.adm.queues == ((recorded aRecord).modQueue 1 3 fun x => { x with st := .waiting }).adm.queues &&
        recordCheck s1 1 (leVal bs) == none && !(launchFields (leVal bs)).wt) = true) ∧
    (∃ bs t s1, headRead (recorded (aRecord - 1)) = .ok bs t s1 ∧ (recordCheck s1 1 (leVal bs) == some 1) = true) ∧
    (pageWaits (recorded aRecord) (queueWaiter 1 3) = false ∧ ((recorded aRecord).dom 1).st = .live) ∧
    (let x := { Queue.unwritten with st := .waiting, record := some { oneLaunch with wt := true }, waitGen := some (0, 1) }
     lastPlaced (queueIn x) x = true) ∧
    (turnDomain dispatchable 0 = some 1 ∧ turnQueue dispatchable 1 = some 3 ∧ (launchFields aRecord).csize = 0) ∧
    ∃ bs t s1, distReadRun dispatchable 1 (queueWaiter 1 3) 2 0 0 = .ok bs t s1 ∧
      (adminB dispatchable s1 && s1.work == dispatchable.work) = true :=
  ⟨reads_of (by decide +kernel), reads_of (by decide +kernel), by decide +kernel, by decide +kernel, by decide +kernel,
   reads_of (by decide +kernel)⟩

/-! ## Witnesses: work on the cores -/

/-- A group that is ready on a path at a PC, its partition with a deficit on slot 0 of core 0, and a run of two NOPs at 2^36 whose page its
core's TLB holds. -/
def readyOn (pc : Nat) : State :=
  let s := tabled (grp fun g => { g with st := .ready, run := none, paths := [Path.new pc 0 0xFFFFFFFF#32] })
  let s := s.modCore 0 fun c =>
    { c with deficits := [(0, 24)], tlb := [{ did := 1, lvl := 2, page := 2 ^ 22, pte := 2 ^ 63 + 2 ^ 62 + 2 ^ 59 + 2 ^ 37 + 2 ^ 6 }] }
  writeSector s (2 ^ 30) 1 (leOf 128 (2 ^ 127)) false

/-- A fetch that gives words and a state for which a check holds. -/
def fetchesB (r : Fetched) (p : List Bits64 → State → Bool) : Bool := match r with | .words ws s => p ws s | _ => false

theorem fetches_of {r : Fetched} {p : List Bits64 → State → Bool} (h : fetchesB r p = true) : ∃ ws s, r = .words ws s ∧ p ws s = true := by
  simp only [fetchesB] at h
  split at h
  · next ws s => exact ⟨ws, s, rfl, h⟩
  · cases h

/-- A slot: a run is issued; a PC that is no multiple of 8; a timer that is due; a group that waits. -/
theorem wit_IssueSlots :
    (slotBusy (readyOn (2 ^ 36)) 0 0 = false ∧
      ((onSlot (readyOn (2 ^ 36)) 0 0).filter fun e => competes (readyOn (2 ^ 36)) e.1 e.2).map (·.1) = [0] ∧
      0 < deficitOf ((readyOn (2 ^ 36)).coreAt 0) 0 0 ∧
      (((readyOn (2 ^ 36)).group 0).bind fun g => nextPath (readyOn (2 ^ 36)) 0 g) = some (Path.new (2 ^ 36) 0 0xFFFFFFFF#32)) ∧
    (∃ ws s1, fetchRun ((readyOn (2 ^ 36)).modCore 0 id) 0 1 (2 ^ 36) 24 = .words ws s1 ∧
      (ws == [0#64, 0x8000000000000000#64] && (illegalIn ws).isNone && s1.work == (readyOn (2 ^ 36)).work) = true) ∧
    ((((readyOn 0x1004).group 0).bind fun g => nextPath (readyOn 0x1004) 0 g) = some (Path.new 0x1004 0 0xFFFFFFFF#32) ∧
      ((readyOn 0x1004).group 0).map (·.st) = some .ready) ∧
    chosenGroup [(0, oneGroup []), (1, { oneGroup [] with gid := 1, slot := 63, level := 15 })] =
      some (1, { oneGroup [] with gid := 1, slot := 63, level := 15 }) :=
  ⟨by decide +kernel, fetches_of (by decide +kernel), by decide +kernel, by decide +kernel⟩

/-- A group whose run has issued. -/
def overWith (f : Group → Group) (r : Run → Run) : State :=
  grp fun g => f { g with st := .results, run := some (r { Run.of 0x1000 0 0xFFFFFFFF#32 [] with closed := true }) }
/-- Its lanes at a successor. -/
def goneTo (pc : Nat) (r : Run) : Run := { r with succ := lanes32.map fun l => ⟨l, pc, 0⟩ }
/-- A trap of a word. -/
def aTrap : Trap := { cause := 0x08, sub := 0, info := 0, pc := 0x1000, depth := 0, mask := 0xFFFFFFFF#32, word := true, owner := 0 }

/-- RunOver, computed. -/
def overB (s : State) (k : Nat) : Bool :=
  match s.group k with
  | some g => match g.run with
    | some r => r.closed && (g.st == .results || g.st == .trap) && s.fly == ⟨[], [], [], [], [], [], []⟩ && g.results.all (·.done) && !g.isSeq &&
        (s.dom (s.didOf g)).st != .killing && g.btraps.isEmpty && g.owed.isEmpty && ((s.teamOf g).bind (·.drops)).isNone &&
        !driftHolds s g
    | none => false
  | none => false

theorem over_of {s : State} {k : Nat} (h : overB s k = true) : ∃ g r, RunOver s k g r := by
  simp only [overB] at h
  split at h
  · next g e =>
    split at h
    · next r er =>
      simp only [Bool.and_eq_true, Bool.or_eq_true, Bool.not_eq_true', beq_iff_eq, List.all_eq_true, List.isEmpty_iff, Option.isNone_iff_eq_none,
        bne_iff_ne, ne_eq] at h
      obtain ⟨⟨⟨⟨⟨⟨⟨⟨⟨h1, h2⟩, h3⟩, h4⟩, h5⟩, h6⟩, h7⟩, h8⟩, h9⟩, h10⟩ := h
      exact ⟨g, r, e, er, h1, h2, ⟨by rw [h3], by rw [h3], by rw [h3]⟩, h4, h5, h6, ⟨h7, h8, h9⟩, h10⟩
    · cases h
  · cases h

/-- Boundaries: with a result of one row; a word trap; one in a handler; TRET. -/
theorem wit_Boundaries :
    let res : Result := { dest := .rows [5], lanes := 0xFFFF#32, vals := [(32, 7)], flags := [], src := none, done := true, held := false }
    (∃ g r, RunOver (overWith (fun g => { g with results := [res] }) (goneTo 0x1010)) 0 g r) ∧
    (∃ g r, RunOver (overWith id fun r => { r with trap := some aTrap }) 0 g r) ∧
    (∃ g r, RunOver (overWith (fun g => { g with st := .trap, handler := some (handlerOf 8) }) fun r => { r with trap := some aTrap }) 0 g r) ∧
    (∃ g r, RunOver (overWith (fun g => { g with st := .trap, handler := some (handlerOf 8) }) fun r => { r with tret := 0xFFFFFFFF#32 }) 0 g r) :=
  ⟨over_of (by decide +kernel), over_of (by decide +kernel), over_of (by decide +kernel), over_of (by decide +kernel)⟩

/-- A group at rest, with a pending PREEMPT. -/
def preempted (isSeq : Bool) : State :=
  let s := if isSeq then seqn else base
  s.modGroup (if isSeq then 32 else 0) fun g => { g with st := .ready, run := none, paths := [Path.new 0x1000 0 1#32], preempt := true }
/-- A PREEMPT handler whose budget has ended. -/
def overdue : State := grp fun g => { g with st := .trap, run := none, handler := some { handlerOf 0x15 with budget := some 0 } }
/-- A domain with a save area of 64 KiB from 2^40 on. -/
def saving (s : State) : State := s.modDom 1 fun d => { d with save0 := BitVec.ofNat 64 (2 ^ 63 + 2 ^ 40), save1 := 0x10#64 }
/-- A team that is frozen where it stands, its group's frame in k0 to k3. -/
def frozenTeam (im : Option Image) : State :=
  let s := teamed fun t => { t with frozen := true, image := im }
  let s := s.modGroup 0 fun g => { g with st := .frozen, run := none }
  s.setCore { s.core with rows := [(188, lanes32.map fun l => if l = 1 then 0x80000000#32 else 0#32)] }
/-- An image in place, and one whose rows have been spilt. -/
def anImage (ev : Bool) : Image :=
  { addr := 2 ^ 40, size := 4096, rows := if ev then [(0, List.replicate 32 7#32)] else [], bad := [], sram := [], tags := [], replies := [],
    evRows := if ev then upTo 12 else [], evSram := [], evSregs := [], pending := [] }

/-- PREEMPT of a group and of a sequencer; the end of a budget; FROST with no save area and with one; THAW in place. -/
theorem wit_FrostAndThaw :
    (∃ g, (preempted false).group 0 = some g ∧ g.preempt = true ∧ g.handler = none ∧ g.st = .ready ∧ g.run = none ∧ g.paths ≠ [] ∧ g.isSeq = false) ∧
    (∃ g, (preempted true).group 32 = some g ∧ g.preempt = true ∧ g.handler = none ∧ g.st = .ready ∧ g.run = none ∧ g.paths ≠ [] ∧ g.isSeq = true) ∧
    (∃ g h, overdue.group 0 = some g ∧ g.st = .trap ∧ g.run = none ∧ g.handler = some h ∧ h.budget = some 0 ∧ 0 ≤ overdue.sys.clk) ∧
    (Still base ∧ Calm base ∧ namedTeams base 1 .all = [0] ∧ (oneTeam 1).frozen = false ∧ (oneTeam 1).image = none ∧
      imagePlace base 1 (imageSize base (oneTeam 1)) = none) ∧
    (imagePlace (saving base) 1 (imageSize (saving base) (oneTeam 1)) = some (2 ^ 40) ∧
      ∃ e ∈ (saving base).work.groups, e.2.team = 0 ∧ e.2.st ∈ [GState.ready, .blocked, .issuing]) ∧
    (namedTeams (frozenTeam (some (anImage false))) 1 .all = [0] ∧
      Thawable (frozenTeam (some (anImage false))) 0 0 { oneTeam 1 with frozen := true, image := some (anImage false) } ∧
      InPlace { oneTeam 1 with frozen := true, image := some (anImage false) }) := by
  refine ⟨⟨_, rfl, by decide +kernel⟩, ⟨_, rfl, by decide +kernel⟩, ⟨_, _, rfl, by decide +kernel, by decide +kernel, rfl, by decide +kernel⟩,
    ⟨by unfold Still; decide +kernel, calm_of (by decide +kernel), by decide +kernel⟩, by decide +kernel, by decide +kernel, ?_, ?_⟩
  · refine ⟨by decide +kernel, rfl, rfl, rfl, rfl, by unfold Still; decide +kernel, calm_of (by decide +kernel), ?_⟩
    decide +kernel
  · intro im h; cases h; decide +kernel

/-- Partition 0 on core 0 with 16 group slots from 16, 384 rows, one team and two scratchpad banks. -/
def entry0 (s : State) : State :=
  (s.modPart 0 fun p => { p with cores := [0] }).modCore 0 fun c =>
    { c with dpreg := [(0, 0x8000_8201_8000_0010#64, 0x0840_0000_0000_0000#64)], roles := [(0, .scratch), (1, .scratch)] }
/-- An image at virtual address 0 whose row 0 has been spilt. -/
def awayImage : Image := { anImage true with addr := 0, evRows := [0] }
/-- A frozen team that waits to thaw, a row of it spilt to memory that the tables map. -/
def awayTeam : State :=
  let s := (owned (tabled base)).modTeam 0 fun t => { t with frozen := true, thawing := true, image := some awayImage }
  entry0 (s.modGroup 0 fun g => { g with st := .evicted, run := none })
/-- A team in place that waits to thaw. -/
def backTeam : State := (frozenTeam (some (anImage false))).modTeam 0 fun t => { t with thawing := true }

/-- All of a team read back, with a state and contents for which a check holds. -/
def recallsB (r : State × Option Contents) (p : State → Contents → Bool) : Bool := match r with | (s, some x) => p s x | _ => false

theorem recalls_of {r : State × Option Contents} {p : State → Contents → Bool} (h : recallsB r p = true) :
    ∃ s x, r = (s, some x) ∧ p s x = true := by
  obtain ⟨s, _ | x⟩ := r
  · cases h
  · exact ⟨s, x, rfl, h⟩

/-- THAW by the distributor: in place, and in new room. -/
theorem wit_team_thaw :
    (let m := { oneTeam 1 with frozen := true, thawing := true, image := some (anImage false) }
     (backTeam.dom m.did).st = .live ∧ Thawable backTeam 0 0 m ∧ InPlace m) ∧
    (let m := { oneTeam 1 with frozen := true, thawing := true, image := some awayImage }
     Thawable awayTeam 0 0 m ∧ awayTeam.sys.retireAt ≤ awayTeam.sys.clk ∧ (∃ s0 all, readBack awayTeam 0 m awayImage = (s0, some all) ∧
       (readsOnlyB awayTeam s0 && all.rows.length == 192) = true) ∧ thawCores awayTeam 0 m = some [(0, 0)] ∧ awayTeam.launchOf m = some oneLaunch ∧
     fitRoom awayTeam 0 0 oneLaunch 0 = some ⟨0, [16], 0, 0⟩ ∧ (∀ x ∈ teamsOn awayTeam 0, claimable awayTeam 0 x.1 x.2 = true → x.1 = 0)) := by
  refine ⟨⟨by decide +kernel, ?_, ?_⟩, ?_, by decide +kernel, recalls_of (by decide +kernel), ?_⟩
  · refine ⟨by decide +kernel, rfl, rfl, rfl, rfl, by unfold Still; decide +kernel, calm_of (by decide +kernel), ?_⟩
    decide +kernel
  · intro im h; cases h; decide +kernel
  · refine ⟨by decide +kernel, rfl, rfl, rfl, rfl, by unfold Still; decide +kernel, calm_of (by decide +kernel), ?_⟩
    decide +kernel
  · decide +kernel

/-- A grid of one team that has not been placed, with core 0's rows another domain's or nobody's. -/
def unplaced (owner : Option Nat) (f : Grid → Grid) : State :=
  let s := entry0 (base.setWork ⟨[(5, f { oneGrid 1 with launch := { oneLaunch with cls := 0, vregs := 16, trows := 0, roles := 1 }, next := 0 })], [], []⟩)
  s.setCore { s.core with rowTags := (upTo 192).map fun i => (i, ⟨owner, false⟩), sramTags := [] }
/-- A team that waits for its rows to be zeroed. -/
def zeroing : State :=
  let s := teamed fun t => { t with held := true, zeroing := true }
  let s := s.modGroup 0 fun g => { g with st := .held, run := none }
  s.setCore { s.core with rowTags := tset s.core.rowTags 5 ⟨some 2, false⟩, rows := [(5, List.replicate 32 9#32)] }
/-- A team whose group has exited. -/
def ended : State := base.modGroup 0 fun g => { g with st := .exited, run := none, live := 0#32 }

/-- Placement: no room, room that is clean and room that is not, a wait that expires, rows that have been zeroed, a team that may retire
and one that may not. -/
theorem wit_Placement :
    (gridPlaceable (unplaced none fun g => { g with next := 1 }) 5 { oneGrid 1 with launch := { oneLaunch with cls := 0, vregs := 16, trows := 0, roles := 1 } } =
      false) ∧
    (let s := unplaced none id
     let g := { oneGrid 1 with launch := { oneLaunch with cls := 0, vregs := 16, trows := 0, roles := 1 }, next := 0 }
     s.grid 5 = some g ∧ thawFirst s 0 = false ∧ (∀ e ∈ s.work.grids, e.2.part = g.part → e.2.order < g.order → gridPlaceable s e.1 e.2 = false) ∧
     gridPlaceable s 5 g = true ∧ nextCores s 5 g = some [0] ∧ fitRoom s 0 0 g.launch (2 ^ 61) = some ⟨0, [16], 0, 0⟩ ∧ teamsOn s 0 = []) ∧
    (nextCores (unplaced (some 2) id) 5 { oneGrid 1 with launch := { oneLaunch with cls := 0, vregs := 16, trows := 0, roles := 1 }, next := 0 } =
      some [0]) ∧
    (let s := (unplaced none fun g => { g with waiting := some 0 }).setSys { base.sys with clk := 65536 }
     0 + 65536 ≤ s.sys.clk ∧ (s.grid 5).map (·.next) = some 0) ∧
    (zeroing.team 0 = some { oneTeam 1 with held := true, zeroing := true } ∧ zeroing.grid 0 = some (oneGrid 1) ∧ Once zeroing.core.rows) ∧
    (mayRetire base 0 (oneTeam 1) = false ∧ mayRetire ended 0 (oneTeam 1) = true ∧ Still ended ∧ Calm ended) := by
  refine ⟨by decide +kernel, by decide +kernel, by decide +kernel, by decide +kernel, by unfold Once; decide +kernel, by decide +kernel, ?_⟩
  exact ⟨by decide +kernel, by unfold Still; decide +kernel, calm_of (by decide +kernel)⟩

/-- A group with thread T at lane T that stands at the rendezvous in these lanes, its successors by lane. -/
def atRendezvous (k gid : Nat) (live : Mask) : Nat × Group :=
  (k, { oneGroup [] with gid := gid, slot := gid, live := live, st := .rendezvous, run := none, phreg := 1,
                         tids := (upTo 32).map fun l => 32 * gid + l, paths := [{ Path.new 0x2000 0 live with rdv := some 0x1000 }] })
/-- A team of two half-full groups at the rendezvous. -/
def meeting (repack : Bool) : State :=
  let s := base.setWork { base.work with teams := [(0, { oneTeam 1 with repack := repack })],
                                         groups := [atRendezvous 0 0 0xFF#32, atRendezvous 1 1 0xFF00#32] }
  s.setWork { s.work with grids := [(0, { oneGrid 1 with launch := { oneLaunch with vregs := 4, threads := 64 } })] }

/-- A rendezvous that is not complete, and one that is; the repack. -/
theorem wit_Regrouping :
    (Still base ∧ rendezvousReady base 0 = false) ∧ (Still (meeting false) ∧ rendezvousReady (meeting false) 0 = true) ∧
    (Once (meeting true).work.groups ∧ (∀ e ∈ teamGroups (meeting true) 0, e.1 = 0 * 64 + e.2.gid ∧ e.2.gid < 32 ∧ e.2.btraps = []) ∧
      ((teamPlacement (meeting true) 0).map fun e => (e.1, e.2.map (·.tid))) = [(0, [0, 1, 2, 3, 4, 5, 6, 7, 40, 41, 42, 43, 44, 45, 46, 47]), (1, [])]) := by
  unfold Once Still; decide +kernel

/-- A finished grid, with DONEPH or without, in a stage, and its domain with a provenance ring at virtual address 0 or without. -/
def finishedGrid (dn ring : Bool) (stage : Nat) : State :=
  let s := tabled (base.setWork ⟨[(5, { oneGrid 1 with launch := { oneLaunch with dn := dn }, next := 1, retired := 1, stage := stage,
                                                       done := stage == 4 })], [], []⟩)
  s.modDom 1 fun d => { d with provV := ring }
/-- A write of the distributor that ends with a state for which a check holds. -/
def writesB (r : Except State State) (p : State → Bool) : Bool := match r with | .ok s => p s | _ => false

theorem writes_of {r : Except State State} {p : State → Bool} (h : writesB r p = true) : ∃ s, r = .ok s ∧ p s = true := by
  simp only [writesB] at h
  split at h
  · next s => exact ⟨s, rfl, h⟩
  · cases h

/-- A translation that names a page, or another key, with a state for which a check holds. -/
def pageB (x : Xlate) (p : TlbEntry → Nat → State → Bool) : Bool := match x with | .ok e pa s => p e pa s | _ => false

theorem page_of {x : Xlate} {p : TlbEntry → Nat → State → Bool} (h : pageB x p = true) : ∃ e pa s, x = .ok e pa s ∧ p e pa s = true := by
  simp only [pageB] at h
  split at h
  · next e pa s => exact ⟨e, pa, s, rfl, h⟩
  · cases h

/-- Ends of grids: without and with a ring; a DONEPH with a page, and one whose page is another domain's; the record's write, a full ring,
and a grid that is done. -/
theorem wit_GridEnds :
    (gridFinished (finishedGrid false false 0) 5 { oneGrid 1 with retired := 1 } = true ∧ Once (finishedGrid false false 0).work.grids ∧
      pageWaits (finishedGrid false false 0) 5 = false) ∧
    gridFinished (finishedGrid false true 0) 5 { oneGrid 1 with retired := 1 } = true ∧
    (let s := finishedGrid true true 0
     let g := { oneGrid 1 with launch := { oneLaunch with dn := true }, retired := 1 }
     s.grid 5 = some g ∧ gridFinished s 5 g = true ∧
     ∃ e pa s2, translateDie0 ((s.setDom 1 { s.dom 1 with wcount := 0 }).modGrid 5 fun _ => { g with vend := 0 }) 1 0 10 = .ok e pa s2 ∧
      (phaserPage e && adminB ((s.setDom 1 { s.dom 1 with wcount := 0 }).modGrid 5 fun _ => { g with vend := 0 }) s2 &&
        s2.work == ((s.setDom 1 { s.dom 1 with wcount := 0 }).modGrid 5 fun _ => { g with vend := 0 }).work) = true) ∧
    (let s := finishedGrid false true 2
     let g := { oneGrid 1 with retired := 1, stage := 2 }
     s.grid 5 = some g ∧ (s.dom 1).provV = true ∧ (0 + 2 ^ 32 - 0) % 2 ^ 32 < 2 ^ (0 + 4) ∧ (s.dom 1).inbox = [] ∧
     ∃ s1, distWrite (signedRecord s (provBody s g) 4800 1024).2 1 5 4 0 (signedRecord s (provBody s g) 4800 1024).1 = .ok s1 ∧
       adminB s s1 = true) ∧
    ((finishedGrid false false 4).grid 5).map (·.done) = some true := by
  refine ⟨by unfold Once; decide +kernel, by decide +kernel, ⟨by decide +kernel, by decide +kernel, page_of (by decide +kernel)⟩,
    ⟨by decide +kernel, by decide +kernel, by decide, by decide +kernel, writes_of (by decide +kernel)⟩, by decide +kernel⟩

/-- A translation that names another domain's page, with a state for which a check holds. -/
def alienB (x : Xlate) (p : State → Bool) : Bool := match x with | .alien _ s => p s | _ => false

theorem alien_of {x : Xlate} {p : State → Bool} (h : alienB x p = true) : ∃ o s, x = .alien o s ∧ p s = true := by
  simp only [alienB] at h
  split at h
  · next o s => exact ⟨o, s, rfl, h⟩
  · cases h

/-- A snapshot that has been cut. -/
def aSnap : Snap := { fn := 1, nonce := 5, addr := 64, final := false, pieces := List.replicate 18 0 }

/-- A DONEPH of another domain; a snapshot begun, refused and written; counters flushed; a barometer's window. -/
theorem wit_grid_ends_too :
    (let g := { oneGrid 2 with launch := { oneLaunch with dn := true }, retired := 1 }
     let s := ((finishedGrid true true 0).modGrid 5 fun _ => g).modDom 2 fun d => { d with st := .live, provV := true }
     s.grid 5 = some g ∧ gridFinished s 5 g = true ∧ (s.dom 2).provV = true ∧
     ∃ o s2, translateDie0 ((s.setDom 2 { s.dom 2 with wcount := 0 }).modGrid 5 fun _ => { g with vend := 0 }) 2 0 10 = .alien o s2 ∧
      (adminB ((s.setDom 2 { s.dom 2 with wcount := 0 }).modGrid 5 fun _ => { g with vend := 0 }) s2 &&
        s2.work == ((s.setDom 2 { s.dom 2 with wcount := 0 }).modGrid 5 fun _ => { g with vend := 0 }).work) = true) ∧
    (MayName base 1 1 ∧ (base.dom 1).st ∈ [DState.closed, .live, .draining, .killing, .stopped] ∧ (base.dom 1).snaps = []) ∧
    ((base.modDom 1 fun d => { d with snaps := [aSnap] }).dom 1).snaps = aSnap :: [] ∧
    (let s := base.modCore 0 fun c => { c with incs := [(1, [3, 4])] }
     tget (s.coreAt 0).incs 1 = some [3, 4]) ∧
    (let s := base.modPart 0 fun p => { p with committed := true }
     (s.part 0).committed = true ∧ (s.part 0).hist.length = 3 ∧ (s.part 0).histLast.length = 3 ∧
     (s.part 0).winAt.length = 3 ∧ s.sys.fab < (s.part 0).winAt.getD 0 0 + 2 ^ 10 ∧
     (s.part 0).winAt.getD 0 0 + 2 ^ 10 ≤ (s.setSys { s.sys with fab := 1024 }).sys.fab) := by
  refine ⟨⟨by decide +kernel, by decide +kernel, by decide +kernel, alien_of (by decide +kernel)⟩, ?_, by decide +kernel, by decide +kernel,
    by decide +kernel⟩
  unfold MayName; decide +kernel

/-! ## Witnesses: crossbars, ordering points, replies -/

/-- The device address of the requests below. -/
def pa0 : Nat := 2 ^ 36 + 0x40
/-- A request of 4 bytes at that address by the group of base, in a stage at its home slice. -/
def reqAt (op : ReqOp) (st : Stage) : Req :=
  { (default : Req) with grp := 0, core := 0, did := 1, part := 0, op := op, size := 4, stage := st, point := homeSlice base pa0,
                         pte := some (2 ^ 63 + 2 ^ 62 + 0x30 * 2 ^ 56 + 2 ^ 36 + 2 ^ 6), mask := 1#32, res := some 3,
                         lanes := [{ lane := 0, va := 0x40, pa := pa0, size := 4, data := 7, data2 := 9 }] }
/-- The place of its line. -/
def lk0 : Nat := (waysOf (homeSlice base pa0) pa0).headD 0
/-- Its line, under the key index of domain 1. -/
def aLine : Line :=
  { v := true, pa := pa0 / 256, wts := 5, rts := 9, cls := 2, key := 1, h := false, ep := false, snooped := false, dirty := 3,
    data := List.replicate 256 1#8, used := 0, mesi := [], poison := 0 }
/-- A state in which the request stands before its line. -/
def atPoint (op : ReqOp) (f : Line → Line) : State := (base.setLine lk0 (f aLine)).setFly { base.fly with reqs := [(6, reqAt op .point)] }

/-- Injection: a request and a message, whose partition is not limited, and one whose bucket is empty. -/
theorem wit_Injection :
    let q := reqAt .load .queued
    let s := (base.setFly { base.fly with reqs := [(6, q)] }).modCore 0 fun c => { c with inj := [(0, [6])] }
    let scarce := fun (s : State) => s.modPart 0 fun p => { p with lim0 := BitVec.ofNat 64 (2 ^ 32 + 2 ^ 48) }
    let w := { reqAt .store .queued with lanes := lanes32.map fun l => { lane := l, va := 8 * l, pa := 2 ^ 36 + 8 * l, size := 8, data := 7, data2 := 0 } }
    let one := (scarce (base.setFly { base.fly with reqs := [(6, w)] })).modCore 0 fun c => { c with inj := [(0, [6])], buckets := [(0, ⟨1024, 0, 0⟩)] }
    let r := { q with grp := 1, renew := some ⟨5, false⟩ }
    let pass := (scarce (base.setFly { base.fly with reqs := [(6, q), (7, r)] })).modCore 0 fun c => { c with inj := [(0, [6, 7])] }
    let x := { (default : Msg) with beats := 2 }
    let m := fun (s : State) => (s.setFly { base.fly with msgs := [(6, x)] }).modCore 0 fun c => { c with inj := [(0, [6])] }
    let few := (scarce (m base)).modCore 0 fun c => { c with buckets := [(0, ⟨1024, 0, 0⟩)] }
    (tget (s.coreAt 0).inj 0 = some [6] ∧ s.req 6 = some q ∧ q.op.isRange = false ∧ q.paid ≤ q.beats ∧
      Affords s 0 0 (costOf q.beatCost (q.beats - q.paid))) ∧
    ((scarce s).req 6 = some q ∧ ¬ Affords (scarce s) 0 0 (costOf q.beatCost (q.beats - q.paid)) ∧ Affords (scarce s) 0 0 (costOf q.beatCost 0) ∧
      ¬ Affords (scarce s) 0 0 (costOf q.beatCost 1)) ∧
    (one.req 6 = some w ∧ ¬ Affords one 0 0 (costOf w.beatCost (w.beats - w.paid)) ∧ Affords one 0 0 (costOf w.beatCost 1) ∧
      ¬ Affords one 0 0 (costOf w.beatCost 2)) ∧
    (tget (pass.coreAt 0).inj 0 = some (6 :: ([] ++ 7 :: [])) ∧ ¬ Affords pass 0 0 (costOf q.beatCost 1) ∧ q.paid < q.beats ∧ pass.req 7 = some r ∧
      r.renew.isSome = true ∧ r.op.isRange = false ∧ pass.req 6 = some q ∧ (q.grp, q.point) ≠ (r.grp, r.point)) ∧
    ((m base).req 6 = none ∧ tget (m base).fly.msgs 6 = some x ∧ x.paid ≤ x.beats ∧ Affords (m base) 0 0 (costOf x.beatCost (x.beats - x.paid))) ∧
    (tget few.fly.msgs 6 = some x ∧ ¬ Affords few 0 0 (costOf x.beatCost (x.beats - x.paid)) ∧ Affords few 0 0 (costOf x.beatCost 1) ∧
      ¬ Affords few 0 0 (costOf x.beatCost 2)) := by
  refine ⟨?_, ?_, ?_, ?_, ?_, ?_⟩ <;> (unfold Affords; decide +kernel)

/-- A crossbar output with nothing to grant, and one with a request. -/
theorem wit_CrossbarGrants :
    let s := base.setFly { base.fly with reqs := [(6, { reqAt .load .net with hops := [⟨0, false, 3, 7⟩] })] }
    packetsFor base 0 false 7 = [] ∧ packetsFor s 0 false 7 ≠ [] := by decide +kernel

/-- An ordering point: a load; a store, an MST copy; an atomic, a compare and swap, the queue operations; another key index. -/
theorem wit_OrderingPoints :
    let own := fun (op : ReqOp) => atPoint op id
    (Stands (own .load) 6 (reqAt .load .point) ∧ LineAt (own .load) (reqAt .load .point).point pa0 lk0 aLine ∧
      Keyed (own .load) lk0 aLine (reqAt .load .point).sectors 1 ∧ Unpoisoned aLine [0, 1] ∧ (reqAt .load .point).sectors = [0] ∧
      (reqAt .load .point).key = 1) ∧
    (∀ op ∈ [ReqOp.store, .mst 2, .atomic 0, .red 1, .cas, .push, .pop],
      Writable (own op) 6 lk0 (reqAt op .point) aLine ∧ Unpoisoned aLine (reqAt op .point).sectors) ∧
    (let l := { aLine with key := 2 }
     lk0 < bridgeBase ∧ Stands (atPoint .load fun _ => l) 6 (reqAt .load .point) ∧
     ((reqAt .load .point).sectors.map (sectorKey (atPoint .load fun _ => l) l)).find? (· != 1) = some 2) ∧
    (let h := 3 + 5 * 2 ^ 16 + 60 * 2 ^ 32
     1 ≤ bits h 37 32 ∧ bits h 37 32 ≤ 60 ∧ bits h 127 39 = 0 ∧ (bits h 31 16 + 65536 - bits h 15 0) % 65536 ≤ bits h 37 32) := by
  refine ⟨?_, ?_, ?_, by decide +kernel⟩
  · unfold Stands LineAt Keyed Unpoisoned; decide +kernel
  · unfold Writable Stands LineAt Keyed Unpoisoned Owned; decide +kernel
  · unfold Stands; decide +kernel

/-- A stack engine: a load and a store of sectors that are written under domain 1's key. -/
theorem wit_StackEngines :
    let q := fun (op : ReqOp) => { reqAt op .point with point := 128 + stackOf pa0 }
    let s := fun (op : ReqOp) => (owned (base.setSys { base.sys with keys := [(1, 1)] })).setFly { base.fly with reqs := [(6, q op)] }
    ∀ op ∈ [ReqOp.load, .store], Stands (s op) 6 (q op) ∧ 128 ≤ (q op).point ∧ (q op).point < 136 ∧
      ((s op).sector (pa0 / 256 * 2)).key = (q op).key ∧ ((s op).sector (pa0 / 256 * 2)).poison = false ∧ Memory.wf (s op).mem.dram = true := by
  unfold Stands; decide +kernel

/-- Replies: one from a slice, one from a peer device. -/
theorem wit_RepliesArrive :
    let q := { reqAt .load .back with ts := some (5, 9, false), back := [(0, 7)] }
    let r := { reqAt .load .point with point := 137, rmt := some 0 }
    let s := fun (q : Req) => base.setFly { base.fly with reqs := [(6, q)] }
    (Alone (s q) 6 q ∧ Unmarked (s q) 0 ((s q).group 0).get! ∧ q.hops = [] ∧ ((s q).group 0).get!.gts.ep = false) ∧
    (Alone (s r) 6 r ∧ Unmarked (s r) 0 ((s r).group 0).get! ∧ 137 ≤ r.point ∧ r.point < 145 ∧ ((s r).group 0).get!.btraps = []) := by
  refine ⟨⟨⟨rfl, rfl, rfl, calm_of (by decide +kernel)⟩, by unfold Unmarked; decide +kernel⟩,
    ⟨rfl, rfl, rfl, calm_of (by decide +kernel)⟩, by unfold Unmarked; decide +kernel⟩

/-! ## Witnesses: the host at memory -/

/-- The line of pa0 held by the device, a table region elsewhere in which no domain's root lies, and a frame key for its frame. -/
def hosted (f : Line → Line) : State :=
  (base.setSys { base.sys with tbase := 0x4000, tsize := 0x4000, frameKeys := [(pa0 / 2 ^ 14, (true, 1))] }).setLine lk0 (f aLine)

/-- Reads and writes of a line; a table page; a frame without an entry; a line of host memory held and not; BIRsp; a bridge line to fetch;
frame keys; errors; table windows; an access of a peer. -/
theorem wit_HostAccess :
    (MeetsTables (hosted id) 0x4000 8 ∧ ¬ MeetsTables (hosted id) pa0 8 ∧ HostLine (hosted id) pa0 8 lk0 aLine ∧
      awaitsBirsp (hosted id) aLine.pa = false ∧ writeAwaits (hosted id) aLine.pa = false ∧ Unpoisoned aLine (sectorsOf pa0 8) ∧
      max aLine.wts (tsIn (hosted id) ⟨(hosted id).mem.bridge.hts, (hosted id).mem.bridge.ep⟩ aLine.ep) + 65536 < 2 ^ 40 ∧
      tsIn (hosted id) ⟨aLine.wts, aLine.ep⟩ (hosted id).mem.bridge.ep < 2 ^ 40) ∧
    (Still (hosted id) ∧ Calm (hosted id) ∧ HostStamps (hosted id) aLine ∧ inTables (hosted id) pa0 = false ∧ tget (hosted id).sys.frameKeys (pa0 / 2 ^ 14) = some (true, 1)) ∧
    (tget (hosted id).sys.frameKeys (2 ^ 37 / 2 ^ 14) = none ∧ inTables (hosted id) 0x4000 = true) ∧
    (tget base.mem.bridge.lines 4 = none ∧ Memory.wf base.mem.host = true) ∧
    (let s := base.setMem { base.mem with bridge := { base.mem.bridge with lines := [(4, aLine)] } }
     tget s.mem.bridge.lines (0x400 / 256) = some aLine ∧ Once s.mem.bridge.lines ∧ tsIn s ⟨aLine.rts, aLine.ep⟩ s.mem.bridge.ep + 1 < 2 ^ 40) ∧
    (let l := { aLine with h := true }
     let s := (hosted fun _ => l).setMem { (hosted fun _ => l).mem with bridge := { base.mem.bridge with bisnp := [(pa0 / 64, true)] } }
     s.mem.bridge.bisnp = [(pa0 / 64, true)] ∧ homeWaits s pa0 = false ∧ LineAt s (homeSlice s (64 * (pa0 / 64))) (64 * (pa0 / 64)) lk0 l) ∧
    (let q := { reqAt .load .point with point := 136, lanes := [{ lane := 0, va := 0, pa := 2 ^ 51 + 0x400, size := 4, data := 0, data2 := 0 }] }
     let s := base.setFly { base.fly with reqs := [(6, q)] }
     s.mem.bridge.lines.length < 16384 ∧ tget s.mem.bridge.lines 4 = none ∧
     ∃ e ∈ s.fly.reqs, e.2.point = 136 ∧ e.2.stage = .point ∧ ∃ a ∈ e.2.lanes, (a.pa - 2 ^ 51) / 256 = 0x400 / 256) ∧
    (¬ MeetsTables (hosted id) (5 * 2 ^ 34) (2 * 2 ^ 14)) ∧
    (let s := base.setSys { base.sys with fkey := some (0, 0) }
     s.sys.fkey = some (0, 0) ∧ Memory.wf s.mem.dram = true ∧ s.mem.lines = []) ∧
    LineAt (hosted id) (homeSlice (hosted id) pa0) pa0 lk0 aLine ∧ aLine.dirty.testBit (bits pa0 7 7) = true := by
  refine ⟨?_, ?_, by decide +kernel, by decide +kernel, ?_, ?_, by decide +kernel, ?_, by decide +kernel, ?_⟩
  · unfold MeetsTables HostLine LineAt Unpoisoned; decide +kernel
  · exact ⟨by unfold Still; decide +kernel, calm_of (by decide +kernel), by unfold HostStamps; decide +kernel, by decide +kernel⟩
  · unfold Once; decide +kernel
  · unfold LineAt; decide +kernel
  · unfold MeetsTables; decide +kernel
  · unfold LineAt; decide +kernel

/-- Table windows: a word of a table page, by the PF and by the VF of its domain, with its line. -/
theorem wit_table_window :
    let s := (tabled base).setSys { (tabled base).sys with tablePages := [(0, 1)] }
    let lk := (waysOf (homeSlice s 0x80) 0x80).headD 0
    let t := s.setLine lk { aLine with pa := 0, key := tableKey }
    inTables t 0x80 = true ∧ tget t.sys.tablePages 0 = some 1 ∧ (t.dom 1).st ≠ .free ∧
      LineAt t (homeSlice t 0x80) 0x80 lk { aLine with pa := 0, key := tableKey } ∧ inTables base 0x80 = false := by
  unfold LineAt; decide +kernel

/-- A store of 4 bytes from a peer device. -/
def aRemote : RemoteAcc := { link := 1, rdid := 3, ldid := 1, kind := 0, op := 0, va := 0x40, size := 4, data := 7, swap := 0, die := 0 }
/-- A binding for it, its link up. -/
def peered : State :=
  ((tabled base).setLine lk0 aLine).setSys { (tabled base).sys with peers := [(0, 1, 1, 3)], links := [⟨0, 0, 0, 0⟩, ⟨2, 16, 0, 0⟩] }

/-- The access has been taken in. -/
def arriving (a : RemoteAcc) : State :=
  peered.fresh.2.setFly { peered.fresh.2.fly with remotes := tset peered.fresh.2.fly.remotes peered.ctl.nextId ⟨a, false⟩ }

/-- A translation that fails. -/
def missingB (x : Xlate) : Bool := match x with | .failed .. => true | _ => false

theorem missing_of {x : Xlate} (h : missingB x = true) : ∃ r v s, x = .failed r v s := by
  simp only [missingB] at h
  split at h
  · next r v s => exact ⟨r, v, s, rfl⟩
  · cases h

/-- An access without a binding; of a domain that is live and one that retires; to a page that is not mapped; to one that is. -/
theorem wit_remote_access :
    (Still peered ∧ Calm peered ∧ ∀ e ∈ base.sys.peers, e.2 ≠ (aRemote.link, aRemote.ldid, aRemote.rdid)) ∧
    ((∃ x ∈ peered.sys.peers, x.2 = (aRemote.link, aRemote.ldid, aRemote.rdid)) ∧ linkUp peered 1 = true ∧ remoteLegal aRemote = true ∧ (peered.dom 1).st = .live ∧
      ((peered.modDom 1 fun d => { d with st := .retiring }).dom 1).st = .retiring) ∧
    (∃ r v s1, freshWalk (arriving { aRemote with va := 2 ^ 37 }) 0 [] 1 (2 ^ 37) 10 = .failed r v s1) ∧
    ∃ e pa s1, freshWalk (arriving aRemote) 0 [] 1 0x40 10 = .ok e pa s1 ∧
      (!pteMs e.pte && !isHost pa && pa == pa0 && findLine s1 (homeSlice s1 pa) pa == some lk0 && s1.line lk0 == some aLine &&
        aLine.ep == newEpoch peered && (sectorsOf pa 4).all fun j => sectorKey s1 aLine j == pteKey e.pte) = true :=
  ⟨⟨by unfold Still; decide +kernel, calm_of (by decide +kernel), by decide +kernel⟩, by decide +kernel, missing_of (by decide +kernel),
   page_of (by decide +kernel)⟩

/-! ## Witnesses: translation -/

/-- A load that waits for its walk, alone in flight. -/
def walking : State :=
  let q := { reqAt .load .walk with lanes := [{ lane := 0, va := 0x40, pa := 0, size := 4, data := 0, data2 := 0 }] }
  let s := (tabled base).setFly { base.fly with reqs := [(6, q)] }
  s.modDie 0 fun d => { d with walks := [(1, 0)] }
/-- The same to a page that is not mapped. -/
def walkingNowhere : State :=
  let q := { reqAt .load .walk with lanes := [{ lane := 0, va := 2 ^ 37, pa := 0, size := 4, data := 0, data2 := 0 }] }
  let s := (tabled base).setFly { base.fly with reqs := [(6, q)] }
  s.modDie 0 fun d => { d with walks := [(1, 2 ^ 23)] }

/-- A walk that ends with a leaf for which a check holds, or fails. -/
def leafB (x : Walked × List (Nat × Nat × Nat × Nat)) (p : TlbEntry → Bool) : Bool := match x with | (.leaf e, _) => p e | _ => false

theorem leaf_of {x : Walked × List (Nat × Nat × Nat × Nat)} {p : TlbEntry → Bool} (h : leafB x p = true) :
    ∃ e l, x = (.leaf e, l) ∧ p e = true := by
  simp only [leafB] at h
  split at h
  · next e l => exact ⟨e, l, rfl, h⟩
  · cases h

def failB (x : Walked × List (Nat × Nat × Nat × Nat)) : Bool := match x with | (.failed _ _, _) => true | _ => false

theorem fail_of {x : Walked × List (Nat × Nat × Nat × Nat)} (h : failB x = true) : ∃ r v l, x = (.failed r v, l) := by
  simp only [failB] at h
  split at h
  · next r v l => exact ⟨r, v, l, rfl⟩
  · cases h

/-- A pending entry for these waiters. -/
def pendFor (page reason : Nat) (w : List Nat) : PendEntry :=
  { id := 4, did := 1, page := page, reason := reason, access := 1, level := 0, core := 0, written := [], waiters := w }
/-- A group in FAULT on one request. -/
def parked (op : ReqOp) (va : Nat) (reason : Nat) : State :=
  let q := { reqAt op .catalogued with res := if op = .fetch then none else some 3,
                                       lanes := [{ lane := 0, va := va, pa := 0, size := 4, data := 0, data2 := 0 }] }
  let s := (tabled base).setFly { base.fly with reqs := [(6, q)] }
  let s := s.modGroup 0 fun g => { g with st := .fault, run := none, parked := [6], paths := [Path.new va 0 0xFFFFFFFF#32] }
  s.modDie 0 fun d => { d with pend := [pendFor (va / 2 ^ 14) reason [6]] }

theorem parked_of (op : ReqOp) (va reason : Nat)
    (h : calmB (parked op va reason) = true) :
    Parked (parked op va reason) 6 (((parked op va reason).req 6).getD default)
      (((parked op va reason).group 0).getD default) := by
  exact ⟨⟨rfl, rfl, rfl, calm_of h⟩, rfl, rfl, rfl, rfl⟩

/-- Walks; TLBINV; entries with nothing, a load, a fetch and a queue that waits. -/
theorem wit_Paging :
    ((1, 0) ∉ (base.die 0).walks ∧
      (∃ q, (1, 0) ∈ (walking.die 0).walks ∧ (walking.dom 1).tlbinv = [] ∧ Alone walking 6 q ∧ q.stage = .walk ∧ q.did = 1 ∧ q.page = 0 ∧
        q.op = .load ∧ q.waits = [] ∧ (walking.coreAt q.core).l1 = []) ∧
      ∃ e l, walk (walking.modDie 0 fun d => { d with walks := d.walks.filter (· != (1, 0)) }) 0 1 (0 * 2 ^ 14) = (.leaf e, l) ∧
        allowed e.pte 1 = true) ∧
    ((∃ q, Alone walkingNowhere 6 q ∧ q.page = 2 ^ 23) ∧
      ∃ r v l, walk (walkingNowhere.modDie 0 fun d => { d with walks := d.walks.filter (· != (1, 2 ^ 23)) }) 0 1 (2 ^ 23 * 2 ^ 14) = (.failed r v, l)) ∧
    (MayName base 1 1 ∧ (0x4000 % 2 ^ 14 = 0)) ∧
    (let x : Inval := { fn := 1, range := .pages 0x4000 1, reqs := [9], walks := [] }
     let s := base.modDom 1 fun d => { d with tlbinv := [x] }
     (s.dom 1).tlbinv = [x] ∧ ∀ i ∈ x.reqs, s.req i = none) ∧
    (((parked .load 0x40 1).die 0).pend.find? (·.id == 4) = some (pendFor 0 1 [6]) ∧
      (∃ q g, Parked (parked .load 0x40 1) 6 q g ∧ q.op = .load ∧ q.waits = []) ∧
      ∃ e pa s1, translateNow (withoutEntry (parked .load 0x40 1) 0 4) 0 1 0x40 1 = .ok e pa s1 ∧ true = true) ∧
    (∃ q g, Parked (parked .fetch (2 ^ 37) 1) 6 q g ∧ q.op = .fetch ∧ q.res = none ∧ q.lanes.map (·.va) = [2 ^ 37] ∧ 2 ^ 37 / 2 ^ 14 = 2 ^ 23 ∧
      g.run = none ∧ g.handler = none ∧ g.isSeq = false ∧ AtPeace (parked .fetch (2 ^ 37) 1) g ∧
      g.paths = [Path.new (2 ^ 37) 0 0xFFFFFFFF#32] ∧ ((parked .fetch (2 ^ 37) 1).dom 1).cur.marked = []) ∧
    (let s := queueIn { Queue.unwritten with st := .waiting }
     let t := s.modDie 0 fun d => { d with pend := [pendFor 0 1 [2 ^ 60 + 1 * 16 + 3]] }
     Still t ∧ Calm t ∧ t.fly.upds = [] ∧ (t.queue 1 3).st = .waiting) := by
  refine ⟨⟨by decide +kernel, ⟨_, by decide +kernel, by decide +kernel, ⟨rfl, rfl, rfl, calm_of (by decide +kernel)⟩, by decide +kernel⟩,
      leaf_of (by decide +kernel)⟩,
    ⟨⟨_, ⟨rfl, rfl, rfl, calm_of (by decide +kernel)⟩, by decide +kernel⟩, fail_of (by decide +kernel)⟩, ⟨by unfold MayName; decide +kernel, by decide⟩, by decide +kernel,
    ⟨by decide +kernel, ⟨_, _, parked_of _ _ _ (by decide +kernel), by decide +kernel, by decide +kernel⟩,
      page_of (by decide +kernel)⟩,
    ⟨_, _, parked_of _ _ _ (by decide +kernel), by decide +kernel, by decide +kernel, by decide +kernel,
      by decide, by decide +kernel, by decide +kernel, by decide +kernel, by unfold AtPeace; decide +kernel, by decide +kernel, by decide +kernel⟩,
    by unfold Still; decide +kernel, calm_of (by decide +kernel), by decide +kernel⟩

/-- The rest: an entry that waits for room, a page request, a lane that waits for the catalogue, the end of FAULT. -/
theorem wit_paging_too :
    (let s := base.modDie 0 fun d => { d with pendWait := [pendFor 7 1 []] }
     (s.die 0).pendWait = pendFor 7 1 [] :: [] ∧ (s.die 0).pend.length < 256) ∧
    (let s := base.modDie 0 fun d => { d with pend := [pendFor 7 1 []] }
     (s.die 0).pend.find? (·.id == 4) = some (pendFor 7 1 []) ∧ 1 = (s.dom 1).part + 1 ∧
       ((s.prq 1).tail + 2 ^ 32 - (s.prq 1).head) % 2 ^ 32 < 2 ^ ((s.prq 1).order + 4) ∧ s.mem.bridge.lines = [] ∧ Memory.wf s.mem.host = true) ∧
    (let e : CatEntry := { req := 6, lane := 0, did := 1, part := 0 }
     let s := fun (n : Nat) => base.modCore 0 fun c => { c with catWait := [e], catalogue := List.replicate n e }
     (∀ n ∈ [0, 256], ((s n).coreAt 0).catWait = [e]) ∧ ((s 0).coreAt 0).catalogue.length < 256 ∧ 256 ≤ ((s 256).coreAt 0).catalogue.length) ∧
    (let e : CatEntry := { req := 6, lane := 0, did := 1, part := 0 }
     let f : CatEntry := { req := 7, lane := 0, did := 2, part := 1 }
     let s := base.modCore 0 fun c => { c with catWait := [e, f], catalogue := List.replicate 128 e ++ List.replicate 127 f }
     (s.coreAt 0).catWait = e :: f :: [] ∧ e.part ≠ f.part ∧ (s.coreAt 0).catalogue.length = 255 ∧
       128 ≤ ((s.coreAt 0).catalogue.filter (·.part == e.part)).length ∧ ((s.coreAt 0).catalogue.filter (·.part == f.part)).length < 128) ∧
    (let s := grp fun g => { g with st := .fault, run := none, parked := [6] }
     ∃ g, s.group 0 = some g ∧ g.st = .fault ∧ g.run = none ∧ g.handler = none ∧ AtPeace s g ∧ s.req 6 = none ∧ s.post 6 = none ∧ s.cmd 6 = none) ∧
    (let s := parked .load 0x40 1
     ∃ g, s.group 0 = some g ∧ g.st = .fault ∧ g.run = none ∧ g.handler = none ∧ AtPeace s g ∧ 6 ∈ g.parked ∧ (s.req 6).isSome = true ∧
       pageWaits s 6 = true) := by
  refine ⟨by decide +kernel, by decide +kernel, ?_, ?_, ⟨_, rfl, rfl, rfl, rfl, ⟨rfl, rfl, rfl⟩, by decide +kernel⟩,
    _, rfl, rfl, rfl, rfl, ⟨rfl, rfl, rfl⟩, by decide +kernel⟩
  · decide +kernel
  · decide +kernel

/-! ## Witnesses: messages, phaser updates, curators -/

/-- A message of 4 bytes to team 0, for result 3 of the group of base. -/
def aMsg : Msg := { (default : Msg) with did := 1, steam := 0, slink := 0, dst := some 0, tag := 5, data := [1#8, 2#8, 3#8, 4#8], res := some 3, sent := true }
/-- A receive for it. -/
def aPost : Recv := { (default : Recv) with team := 0, match2 := 5 * 2 ^ 16, match3 := 0xFFFF, buf := 64, len := 4 }
/-- It arrives at a team that has posted receives. -/
def mailed (m : Msg) (rs : List Recv) : State :=
  let s := withFifo (base.setFly { base.fly with msgs := [(6, m)] })
  s.modCore 0 fun c => { c with recvs := rs, roles := [(fifoBase c 0, .fifo)] }
/-- The same from a peer device, whose link is up. -/
def aPeer : PeerMsg := { link := 1, rdid := 3, ldid := 1, jobtag := 0, dteam := 0, steam := 0, tag := 5, payload := [1#8, 2#8, 3#8, 4#8] }
/-- Its receive. -/
def peerPost : Recv := { aPost with match2 := 5 * 2 ^ 16 + 2 }
/-- The state that it comes to. -/
def peerMail : State :=
  let s := base.modCore 0 fun c => { c with recvs := [peerPost] }
  s.setSys { s.sys with peers := [(0, 1, 1, 3)], links := [⟨0, 0, 0, 0⟩, ⟨2, 4, 0, 0⟩] }
/-- An update of team phaser 0 of base for a generation. -/
def updated (kind n gen : Nat) : State :=
  base.setFly { base.fly with upds := [(6, { (default : Upd) with addr := phaserKey base (oneTeam 1) 0, kind := kind, n := n, gen := gen })] }
/-- A group whose only path waits for a phaser of memory that it tests again. -/
def retesting (turned : Bool) : State :=
  grp fun g => { g with st := .blocked, run := none, paths := [{ Path.new 0x1010 0 0xFFFFFFFF#32 with waits := [(0x1000, .retest 0 turned)] }] }

/-- Receives, computed. -/
def receivesB (s : State) (tk : Nat) (t : Team) (r : Recv) (steam slink tag len : Nat) : Bool :=
  s.team tk == some t && !t.retired && t.rowsHere && (s.coreAt t.core).recvs == [r] && r.team == tk &&
  ((tget (s.coreAt t.core).ovf t.part).getD []).isEmpty && decide ((steam ^^^ r.match0) &&& r.match1 = 0) &&
  decide ((slink ^^^ bits r.match2 3 0) &&& bits r.match2 7 4 = 0) && decide ((tag ^^^ bits r.match2 31 16) &&& bits r.match3 15 0 = 0) &&
  decide (len ≤ r.len) && ((s.launchOf t).any fun x => decide (r.buf + len ≤ x.srows * 256)) && decide (Memory.wf s.core.sram = true) &&
  (let p := sramPhaser s (phaserKey s t r.phaser); decide (bits p 127 125 = 0 ∧ -(2 ^ 23) ≤ phInb p - len))

theorem receives_of {s : State} {tk : Nat} {t : Team} {r : Recv} {a b c n : Nat} (h : receivesB s tk t r a b c n = true) :
    Receives s tk t r a b c n := by
  simp only [receivesB, Bool.and_eq_true, beq_iff_eq, Bool.not_eq_true', List.isEmpty_iff, decide_eq_true_eq, Option.any_eq_true] at h
  obtain ⟨⟨⟨⟨⟨⟨⟨⟨⟨⟨⟨⟨h1, h2⟩, h3⟩, h4⟩, h5⟩, h6⟩, h7⟩, h8⟩, h9⟩, hA⟩, hB⟩, hC⟩, hD⟩ := h
  exact ⟨h1, h2, h3, h4, h5, h6, h7, h8, h9, hA, hB, hC, hD⟩

/-- Messages: received, kept, without a team, over a link, from a peer; updates: of this generation, the next, another; a wait that found no
record. -/
theorem wit_Arrivals :
    (Still (mailed aMsg [aPost]) ∧ Calm (mailed aMsg [aPost]) ∧ NoneOwed (mailed aMsg [aPost]) ∧ Receives (mailed aMsg [aPost]) 0 (oneTeam 1) aPost 0 0 5 4 ∧
      ((phApply (sramPhaser (mailed aMsg [aPost]) (phaserKey base (oneTeam 1) 0)) false { inb := -4, ts := some aMsg.gts }).toOption).isSome = true) ∧
    (((tget ((mailed aMsg []).coreAt 0).ovf 0).getD []).length < ovfRoom ((mailed aMsg []).coreAt 0) 0 ∧ ((mailed aMsg []).coreAt 0).recvs = []) ∧
    ((oneTeam 1).did = aMsg.did ∧ (oneTeam 1).did ≠ { aMsg with did := 2 }.did ∧
      ∃ g, (mailed { aMsg with did := 2 } []).group 0 = some g ∧ g.run ≠ none ∧ g.btraps = []) ∧
    { aMsg with dst := none }.link = none ∧ { aMsg with link := some 1 }.link = some 1 ∧
    (Still peerMail ∧ Calm peerMail ∧ base.sys.peers = [] ∧ aPeer.tag < 0xFFF0 ∧ (∃ e ∈ peerMail.sys.peers, e.2 = (aPeer.link, aPeer.ldid, aPeer.rdid)) ∧ linkUp peerMail 1 = true ∧
      (peerMail.work.grids.filter fun e => e.2.did == 1 && e.2.launch.jobtag == 0 && !e.2.done && e.2.stage == 0) = [(0, oneGrid 1)] ∧
      teamOfGrid peerMail 0 0 = some (0, oneTeam 1) ∧ Receives peerMail 0 (oneTeam 1) peerPost 0 2 5 4) ∧
    (phGen (sramPhaser base (phaserKey base (oneTeam 1) 0)) = 0 ∧ phaserKey base (oneTeam 1) 0 < 2 ^ 50 ∧ Still (updated 1 4 0) ∧
      Calm (updated 1 4 0) ∧
      ((phApply (sramPhaser base (phaserKey base (oneTeam 1) 0)) false { inb := -4 }).toOption).isSome = true) ∧
    (((retesting true).group 0).map (·.st) = some .blocked ∧ ((retesting false).group 0).map (·.paths.length) = some 1) := by
  refine ⟨⟨by unfold Still; decide +kernel, calm_of (by decide +kernel), by unfold NoneOwed; decide +kernel, receives_of (by decide +kernel), ?_⟩,
    by decide +kernel, ⟨rfl, by decide, _, rfl, by decide +kernel, rfl⟩, rfl, rfl,
    ⟨by unfold Still; decide +kernel, calm_of (by decide +kernel), rfl, by decide, by decide +kernel, by decide +kernel,
      by decide +kernel, by decide +kernel, receives_of (by decide +kernel)⟩,
    ⟨by decide +kernel, by decide +kernel, by unfold Still; decide +kernel, calm_of (by decide +kernel), ?_⟩, by decide +kernel⟩ <;> decide +kernel

/-- A grace period on these dies, some clear, some marks. -/
def graced (run clear marked : List Nat) (pendv : Bool) : State :=
  base.modDom 1 fun d => { d with cur := { d.cur with running := some run, clear := clear, marked := marked, pendv := pendv, last := 3, pendLast := 5 } }

/-- Grace periods: START, CLEAR and the end. -/
theorem wit_GracePeriods :
    (base.dom 1).cur.running = none ∧ ((graced [] [] [] false).dom 1).cur.running = some [] ∧
    (∃ g, base.group 0 = some g ∧ base.didOf g = 1 ∧ base.coreOf g / 48 = 0 ∧ ¬ (seenIn g.st = true ∧ quiescent base 0 g = true)) ∧
    (∃ g, (readyOn 0x1000).group 0 = some g ∧ seenIn g.st = true ∧ quiescent (readyOn 0x1000) 0 g = true) ∧
    (∀ m ∈ ((graced [0] [] [1] false).dom 1).cur.marked, m % 4 ≠ 0) ∧ (∃ m ∈ ((graced [1] [] [1] false).dom 1).cur.marked, m % 4 = 1) ∧
    (∀ d, d < 4 → d ∈ ((graced [0, 1, 2, 3] [3, 2, 1, 0] [] true).dom 1).cur.clear) :=
  ⟨by decide +kernel, by decide +kernel, ⟨_, rfl, by decide +kernel⟩, ⟨_, rfl, by decide +kernel⟩, by decide +kernel, by decide +kernel,
   by decide +kernel⟩

/-! ## Witnesses: engines -/

/-- A command of team 0 of base, accepted, with a block. -/
def aCmd (kind blk : Nat) : Cmd :=
  { (default : Cmd) with team := 0, grp := 0, core := 0, did := 1, part := 0, kind := kind, phase := 4, blk := leOf 128 blk, res := some 3, handle := 1 }
/-- It is in flight. -/
def commanded (s : State) (c : Cmd) : State := s.setFly { s.fly with cmds := [(6, c)] }
/-- A state in memory for a check after a read or a write. -/
def doneB {α : Type} (r : Except Stop (α × State)) (p : α → State → Bool) : Bool := match r with | .ok (x, s) => p x s | _ => false

theorem done_of {α : Type} {r : Except Stop (α × State)} {p : α → State → Bool} (h : doneB r p = true) :
    ∃ x s, r = .ok (x, s) ∧ p x s = true := by
  simp only [doneB] at h
  split at h
  · next x s => exact ⟨x, s, rfl, h⟩
  · cases h

/-- Running, computed. -/
def runningB (s : State) (c : Cmd) : Bool :=
  s.fly.reqs.isEmpty && s.fly.posts.isEmpty && s.fly.upds.isEmpty && c.phase == 4 && c.status == 0 && !c.parked && s.sys.fatal.isNone && calmB s

theorem running_of {s : State} {i : Nat} {c : Cmd} (h : runningB s c = true) (e : s.fly.cmds = [(i, c)]) : Running s i c := by
  simp only [runningB, Bool.and_eq_true, List.isEmpty_iff, beq_iff_eq, Bool.not_eq_true', Option.isNone_iff_eq_none] at h
  obtain ⟨⟨⟨⟨⟨⟨⟨h1, h2⟩, h3⟩, h4⟩, h5⟩, h6⟩, h7⟩, h8⟩ := h
  exact ⟨e, h1, h2, h3, h4, h5, h6, h7, calm_of h8⟩

/-- A BANKOP of two 32-bit elements at 0 with sources at 0x40 and 0x80. -/
def bankBlock (op : Nat) : Nat := 0x40 * 2 ^ 64 + 0x80 * 2 ^ 128 + 2 * 2 ^ 192 + op * 2 ^ 224
/-- Device memory that the tables map, for the engines. -/
def banked (op : Nat) : State := commanded (owned (tabled base)) (aCmd 0xBB (bankBlock op))

/-- A copy that runs and one that ends; the elements of the five BANKOPs; a step of a job. -/
theorem wit_Engines :
    (let c := aCmd 0xB8 copyBlock
     let s := commanded base c
     Running s 6 c ∧ c.pos < c.len ∧ c.ssp = 1 ∧ c.dsp = 1 ∧ c.accounts = [] ∧ s.team 0 = some (oneTeam 1) ∧
     (∀ r ∈ rowsOf 1024 64 ++ rowsOf 2048 64, (s.srow (oneTeam 1) r).owner = some 1 ∧ (s.srow (oneTeam 1) r).scrub = false) ∧
     ((s.srow (oneTeam 1) 4).pend = 0 ∧ (s.srow (oneTeam 1) 4).poison = false ∧ c.rowsLeft = []) ∧ Memory.wf s.core.sram = true) ∧
    (let c := { aCmd 0xB8 copyBlock with pos := 64 }
     Running (commanded base c) 6 c ∧ c.len ≤ c.pos ∧ c.handle < 65536) ∧
    (∀ op < 5, Running (banked op) 6 (aCmd 0xBB (bankBlock op)) ∧ elemNext (banked op) (aCmd 0xBB (bankBlock op)) 0 = true ∧
      (aCmd 0xBB (bankBlock op)).bop = op ∧ (aCmd 0xBB (bankBlock op)).accounts = []) ∧
    (∃ x s, Eng.dram 6 (aCmd 0xBB (bankBlock 0)) 0x40 4 none (banked 0) = .ok (x, s) ∧ doneB (Eng.dram 6 (aCmd 0xBB (bankBlock 0)) 0x80 4 none s)
      (fun _ s2 => doneB (Eng.dram 6 (aCmd 0xBB (bankBlock 0)) 0 4 (some [0#8, 0#8, 0#8, 0#8]) s2) fun _ _ => true) = true) ∧
    (let c := { aCmd 0xBB (bankBlock 4) with elems := [0, 1], acc := [0, 0] }
     elemNext (commanded (banked 4) c) c 2 = true ∧ c.cnt = 2) := by
  refine ⟨⟨?_, by decide +kernel⟩, ⟨?_, by decide +kernel⟩, ?_, done_of (by decide +kernel), by decide +kernel⟩
  · exact running_of (by decide +kernel) rfl
  · exact running_of (by decide +kernel) rfl
  · intro op h
    exact ⟨running_of (by revert op; decide +kernel) rfl, by revert op; decide +kernel⟩

/-- The rows of its accumulator view are the domain's. -/
def viewed (s : State) : State :=
  s.setCore { s.core with rowTags := s.core.rowTags ++ (upTo 8).map fun i => (384 + i, ⟨some 1, false⟩) }

/-- A job of the sequencer's card in flight. -/
theorem wit_jobStep :
    let c := { aCmd 0xBC jobCard with grp := 32 }
    let s := commanded (viewed (seqJob jobCard)) c
    Running s 6 c ∧ c.mate = none ∧ c.pos < c.steps ∧ ∃ x s1, fullStep s 6 c s = .ok (x, s1) ∧ true = true := by
  refine ⟨?_, by decide +kernel, by decide +kernel, done_of (p := fun _ _ => true) (by decide +kernel)⟩
  exact running_of (by decide +kernel) rfl

/-- The two teams of a pair on cores 0 and 1, their cards the same or not. -/
def pairOf (card0 card1 clk : Nat) : State :=
  let s := base.setWork { base.work with teams := [(0, oneTeam 1), (1, { oneTeam 1 with id := 1, rank := 1, core := 1 })] }
  let p := fun (t core card : Nat) => { aCmd 0xBD card with team := t, grp := 64 * t + 32, core := core, phase := 3, t1 := 10 }
  (s.setFly { s.fly with cmds := [(6, p 0 0 card0), (7, p 1 1 card1)] }).setSys { s.sys with clk := clk }
/-- A card of 128 × 128 tiles. -/
def pairCard : Nat := jobCard + 127 * 2 ^ 24 + 127 * 2 ^ 32

/-- A pair: too early; cards that differ; cards that agree; a side that waited too long; a scrub; a bank. -/
theorem wit_pairs :
    (∃ c p, Pair (pairOf pairCard pairCard 13) 6 7 c p ∧ (pairOf pairCard pairCard 13).sys.clk < max c.t1 p.t1 + 4) ∧
    (∃ c p, Pair (pairOf pairCard jobCard 14) 6 7 c p ∧ max c.t1 p.t1 + 4 ≤ (pairOf pairCard jobCard 14).sys.clk ∧ cardsAgree c p = false) ∧
    (∃ c p, Pair (pairOf pairCard pairCard 14) 6 7 c p ∧ cardsAgree c p = true ∧
      canRaise (pairOf pairCard pairCard 14) (c.rowsLeft ++ p.rowsLeft) = true ∧ c.team ≠ p.team) ∧
    (let s := base.setFly { base.fly with scrubs := [(6, { team := 0, grp := 0, mask := 1#32, rows := [3], waits := [] })] }
     Still s ∧ Calm s ∧ s.team 0 = some (oneTeam 1) ∧ Memory.wf s.core.sram = true) ∧
    (let s := base.modCore 0 fun c => { c with roles := [(7, .scrub 1 (some (0, 3, 1)))] }
     roleOf (s.coreAt 0) 7 = .scrub 1 (some (0, 3, 1)) ∧ roleOf (base.coreAt 0) 7 = .sharedL1 ∧ NoneOwed s) := by
  refine ⟨⟨_, _, ⟨⟨rfl, by decide⟩, rfl, rfl, by decide +kernel, by decide +kernel, by decide +kernel, ⟨_, _, rfl, rfl, by decide +kernel⟩,
      by decide +kernel⟩, by decide +kernel⟩,
    ⟨_, _, ⟨⟨rfl, by decide⟩, rfl, rfl, by decide +kernel, by decide +kernel, by decide +kernel, ⟨_, _, rfl, rfl, by decide +kernel⟩,
      by decide +kernel⟩, by decide +kernel, by decide +kernel⟩,
    ⟨_, _, ⟨⟨rfl, by decide⟩, rfl, rfl, by decide +kernel, by decide +kernel, by decide +kernel, ⟨_, _, rfl, rfl, by decide +kernel⟩,
      by decide +kernel⟩, by decide +kernel, by decide +kernel, by decide +kernel⟩, ?_, ?_⟩
  · exact ⟨by unfold Still; decide +kernel, calm_of (by decide +kernel), by decide +kernel⟩
  · unfold NoneOwed; decide +kernel

/-! ## Witnesses: time, links, the package -/

/-- A rebase in a phase, with the units and cores that have not acknowledged. -/
def rebasing (phase : Nat) (us : List RUnit) (cs : List Nat) : State :=
  base.setSys { base.sys with rebase := some { phase := phase, units := us, cores := cs } }

/-- Reconciliation at its time and not; a rebase: none, reported, each unit, its epoch, each core, its end. -/
theorem wit_Rebasing :
    (base.sys.fab % 4096 = 0 ∧ (∀ q, q < 4 → (base.dir q).ep = (base.dir 0).ep)) ∧ (base.setSys { base.sys with fab := 1 }).sys.fab % 4096 ≠ 0 ∧
    ((base.setSys { base.sys with tsReport := true }).sys.tsReport = true ∧ base.sys.rebase = none ∧ base.sys.tsReport = false) ∧
    (∀ u ∈ [RUnit.slice 127, .directory 3, .curator 3, .stack 7, .msgUnit 191, .engines 191, .distributor, .control, .bridge],
      ∃ r, (rebasing 2 [u] []).sys.rebase = some r ∧ r.phase = 2 ∧ u ∈ r.units) ∧
    (∃ r, (rebasing 2 [] []).sys.rebase = some r ∧ r.phase = 2 ∧ r.units = []) ∧
    (∃ r, (rebasing 4 [] [0, 191]).sys.rebase = some r ∧ r.phase = 4 ∧ 191 ∈ r.cores) ∧
    ∃ r, (rebasing 4 [] []).sys.rebase = some r ∧ r.phase = 4 ∧ r.cores = [] := by
  refine ⟨by decide +kernel, by decide +kernel, by decide +kernel, ?_, ⟨_, rfl, rfl, rfl⟩, ⟨_, rfl, rfl, by decide⟩, ⟨_, rfl, rfl, rfl⟩⟩
  intro u _; exact ⟨_, rfl, rfl, by simp⟩

/-- Link 7 in a state. -/
def linked (st : Nat) : State := base.setSys { base.sys with links := List.replicate 7 ⟨0, 0, 0, 0⟩ ++ [⟨st, 4, 0, 0⟩] }

/-- A link in each of its states, and a message on one. -/
theorem wit_Links :
    (∀ st < 5, LinksIdle (linked st) 7 ∧ ((linked st).link 7).st = st ∧ (linked st).sys.fatal = none) ∧
    (let s := (linked 3).setFly { base.fly with msgs := [(6, { aMsg with link := some 7 })] }
     ∃ g, s.group 0 = some g ∧ g.run ≠ none ∧ g.btraps = [] ∧ Still s ∧ NoneOwed s) := by
  refine ⟨?_, _, rfl, by decide +kernel, by decide +kernel, ?_⟩
  · unfold LinksIdle Still; decide +kernel
  · unfold Still NoneOwed; decide +kernel

/-- The package: without and with a fatal error; a reset that completes and two that do not. -/
theorem wit_Package :
    base.sys.fatal = none ∧ (base.setSys { base.sys with fatal := some 4 }).sys.fatal ≠ none ∧
    (let b : BringUp := { harvest := [(0, 31)], bypass := [], hostLanes := 8, tbase := 0x4000, tsize := 0x4000 }
     b.bypass = [] ∧ (∀ d, d < 4 → ∃ n, n < 32 ∧ (d, n) ∉ b.harvest) ∧ b.tbase % 2 ^ 14 = 0 ∧ b.tsize % 2 ^ 14 = 0 ∧ b.tbase + b.tsize ≤ 2 ^ 39) ∧
    ∀ n, n < 32 → (2, n) ∈ (upTo 32).map fun n => (2, n) := by
  refine ⟨by decide +kernel, by decide +kernel, ⟨rfl, ?_, by decide, by decide, by decide⟩, by decide⟩
  intro d _; exact ⟨0, by decide, by simp⟩

/-! ## Witnesses: the encoding, the fetch and the step -/

/-- base, whose group's next word is w, with the turn of the group due and rows of register space. -/
def dueWith (w : Bits64) (rows : List (Nat × List Word)) : State :=
  let s := grp fun g => { g with run := some (Run.of 0x1000 0 0xFFFFFFFF#32 [w]) }
  (s.setCore { s.core with rows := rows }).setCtl { s.ctl with agenda := [.word 0], cur := none }
/-- The state after one step. -/
def stepped (s : State) : State := match step s with | .next t => t | _ => s

/-- Illegal words of each kind: reserved opcodes of the three forms, a guard that says never, an I-form bit, a terminator without B, width 5. -/
theorem wit_IllegalWords :
    (fld 0x0278000000000000 62 1 = 0 ∧ fld (0x4F * 2 ^ 50) 50 8 = 0x4F ∧ fld (0xFF * 2 ^ 50) 50 8 = 0xFF) ∧
    (fld (2 ^ 62 + 15 * 2 ^ 52) 52 6 = 15 ∧ fld (2 ^ 62 + 15 * 2 ^ 52) 62 1 = 1) ∧
    (fld (2 ^ 61) 61 1 = 1 ∧ fld (2 ^ 61) 58 3 = 0) ∧ (fld (0x29 * 2 ^ 50 + 2 ^ 9) 4 6 = 32 ∧ fld (0x29 * 2 ^ 50 + 2 ^ 9) 50 8 = 0x29) ∧
    (fld (0x0E * 2 ^ 50) 50 8 ∈ terminators ∧ fld (0x0E * 2 ^ 50) 63 1 = 0) ∧ fld (0x80 * 2 ^ 50 + 5 * 2 ^ 9) 9 3 = 5 := by decide +kernel

/-- A legal word of each form, encoded and decoded. -/
theorem wit_encode :
    (iaddW (bare true) (.v 4) (.v 5) (.v 6) .none .rot 3 0).wf = true ∧ (iaddW (bare true) (.v 4) (.v 5) (.v 6) .none .rot 3 0).isWord = true ∧
    (Instr.kick).isWord = false := by decide +kernel

/-- A run that is fetched (and see wit_IssueSlots). -/
theorem wit_FetchedRun : ∃ ws s1, fetchRun (readyOn (2 ^ 36)) 0 1 (2 ^ 36) 24 = .words ws s1 ∧ (ws.length == 2) = true :=
  fetches_of (by decide +kernel)

/-- A word's turn with a legal word and with an illegal one; an event's; none. -/
theorem wit_StepRunsTheWord :
    ((dueWith 0#64 []).ctl.agenda = .word 0 :: [] ∧ ∃ i, decodeWord 0#64 = .ok i) ∧
    ((dueWith 0x03400C0000002000#64 []).ctl.agenda = .word 0 :: [] ∧ ∃ e, decodeWord 0x03400C0000002000#64 = .error e) ∧
    (base.setCtl { base.ctl with agenda := [.event (.kick 1 1)] }).ctl.agenda = [.event (.kick 1 1)] ∧ base.ctl.agenda = [] :=
  ⟨⟨by decide +kernel, _, rfl⟩, ⟨by decide +kernel, _, rfl⟩, by decide +kernel, by decide +kernel⟩

/-- A step whose memories are canonical before it. -/
theorem wit_MemoriesStayCanonical :
    Safety.MemoriesWf (dueWith 0#64 []) ∧ ∃ t, step (dueWith 0#64 []) = .next t :=
  ⟨by unfold Safety.MemoriesWf; decide +kernel, _, rfl⟩

/-! ## Witnesses: words and events that complete -/

/-- PagesServe, computed for a state whose core and die hold no translation. -/
def servesB (e : MRow) (w : MWord) (s : State) (c : Ctx) (o : ReqOp) : Bool :=
  (s.coreAt (s.coreOf c.g)).tlb.isEmpty && (s.die (s.coreOf c.g / 48)).tlb.isEmpty && (accessLanes c w).all fun l =>
    match translateNow s (s.coreOf c.g) (s.didOf c.g) (e.addr w s c l).toNat 3 with | .ok x _ _ => !pageRefuses x o | _ => true

theorem serves_of {e : MRow} {w : MWord} {s : State} {c : Ctx} {o : ReqOp} (h : servesB e w s c o = true) : e.PagesServe w s c o := by
  simp only [servesB, Bool.and_eq_true, List.isEmpty_iff, List.all_eq_true] at h
  refine fun l hl => ⟨fun x hx => ?_, fun x pa u hu => ?_⟩
  · rw [h.1.1, h.1.2] at hx
    simp at hx
  · have := h.2 l hl
    rw [hu] at this
    simpa using this

/-- Words that leave requests: each access a request; in memory that tables map; range operations of nothing and of 64 bytes; a fence behind
an access that is out. -/
theorem wit_MemoryRequests :
    let m := (tabled base).setFly base.fly
    (∀ x ∈ requestRows, Issuing base hd c0 ∧ x.1.PagesServe (mw 256) base c0 (x.2 (mw 256)) ∧ (x.1.op ∉ [0x8C, 0x8D, 0x8E] → x.1.Reach (mw 256) base c0) ∧
      x.1.remote (mw 256) = false) ∧
    (∀ x ∈ requestRows, x.1.op ∈ [0x8C, 0x8D, 0x8E] → x.1.Apart (mw 8) oneLane (cx hd oneLane)) ∧
    (Issuing m hd (cx hd m) ∧ stRow.Reach (mw 8) m (cx hd m) ∧ stRow.PagesServe (mw 8) m (cx hd m) .store) ∧
    (∀ e ∈ rangeRows, e.Reach (mw 0) base c0) ∧ Quiet base ∧
    (let s := base.setFly { base.fly with reqs := [(6, reqAt .store .point)] }
     Issuing s hd (cx hd s) ∧ (cx hd s).act ≠ 0#32 ∧ groupAccesses s 0 = [6]) := by
  refine ⟨fun x hx => ⟨base_issues, serves_of ?_, ?_, ?_⟩, ?_, ⟨issuing_cx (by decide +kernel), ?_, serves_of (by decide +kernel)⟩, ?_, ?_,
    issuing_cx (by decide +kernel), by decide +kernel⟩
  · revert x; decide +kernel
  · revert x; unfold MRow.Reach; decide +kernel
  · revert x; decide +kernel
  · unfold MRow.Apart; decide +kernel
  · unfold MRow.Reach; decide +kernel
  · unfold MRow.Reach; decide +kernel
  · unfold Quiet; decide +kernel

/-- A deaccession ring at virtual address 0, in memory that tables map, with its head, tail and pair registers of an entry. -/
def ringed (s : State) (head tail : Nat) : State :=
  s.modDom 1 fun d => { d with cur := { d.cur with v := true, basePage := 0, order := 0, head := head, tail := tail } }

/-- The write of an entry of 8 bytes at 0 ends and leaves the curator as it was. -/
def entersB (c : Curator) (e : TlbEntry) (pa : Nat) (s : State) : Bool :=
  match unitAccess s e pa 0 16 c0.g.gts (some (leOf 16 (8 * 2 ^ 64))) with | .done _ _ t => (t.dom 1).cur == c | _ => false

/-- The ring's ends: none; an empty range; a full ring; an entry; HEAD at RIPE, and a ripe entry. -/
theorem wit_DeaccessionCompletions :
    let w := plainR hd (.v 1) (.s 4) (.s 6) (.s 7) 0#4
    let m := owned (tabled base)
    let s := ringed (withS m 6 8) 0 0
    let full := ringed (withS m 6 8) 0 256
    (Met base w ⟨1, 2, 1, 1⟩ false false (oneTeam 1) ∧ (base.dom 1).cur.v = false) ∧
    (Met (ringed m 0 0) w ⟨1, 2, 1, 1⟩ false false (oneTeam 1) ∧ sopd (ringed m 0 0) (cx hd (ringed m 0 0)) (.s 6) 1 = 0) ∧
    (∃ e pa s2, freshWalk (sending (ringed m 0 0) (cx hd (ringed m 0 0)) (.v 1) 1 false) 1 [] 1 0 2 = .ok e pa s2 ∧ (pa == 2 ^ 36) = true) ∧
    (Met full w ⟨1, 2, 1, 1⟩ false false (oneTeam 1) ∧ sopd full (cx hd full) (.s 6) 1 = 8 ∧ ((full.dom 1).cur.tail + 2 ^ 32 - 0) % 2 ^ 32 = 2 ^ 8) ∧
    (Met s w ⟨1, 2, 1, 1⟩ false false (oneTeam 1) ∧ issued (s.dom 1).cur 0 = true ∧
      ∃ e pa s2, freshWalk (sending s (cx hd s) (.v 1) 1 false) 1 [] 1 0 2 = .ok e pa s2 ∧
        entersB (s.dom 1).cur e pa s2 = true) := by
  refine ⟨⟨met_of (by decide +kernel), by decide +kernel⟩, ⟨met_of (by decide +kernel), by decide +kernel⟩, page_of (by decide +kernel),
    ⟨met_of (by decide +kernel), by decide +kernel⟩, met_of (by decide +kernel), by decide +kernel, page_of (by decide +kernel)⟩

/-- A die's START, its CLEAR, and the end of a grace period, as events that are due. -/
theorem wit_CuratorCompletions :
    let s := fun (h : Happening) (x : State) => offered h x
    ((s (.curatorStart 0 1) (graced [] [] [] false)).sys.up = true ∧ (s (.curatorStart 0 1) (graced [] [] [] false)).ctl.ev = some (.curatorStart 0 1) ∧
      ((s (.curatorStart 0 1) (graced [] [] [] false)).dom 1).cur.running = some []) ∧
    (let x := s (.dieCuratorClear 0 1) (graced [0] [] [1] false)
     (x.dom 1).cur.running = some [0] ∧ (∀ m ∈ (x.dom 1).cur.marked, m % 4 ≠ 0) ∧ 0 ∉ (x.dom 1).cur.clear) ∧
    ∀ v, let x := s (.gracePeriodComplete 1) (graced [0, 1, 2, 3] [3, 2, 1, 0] [] v)
      (x.dom 1).cur.running ≠ none ∧ (∀ d, d < 4 → d ∈ (x.dom 1).cur.clear) ∧ (x.dom 1).cur.pendv = v := by decide +kernel

/-! ## Steps whose results the specification works out -/

/-- IADD v4, v5, v6~rot3 of 16 R240: lane i reads lane (i + 3) mod 32 (R244). -/
theorem test_iadd_rot :
    ((stepped (dueWith 0x8040101418001030#64 [(5, lanes32.map fun l => BitVec.ofNat 32 l), (6, lanes32.map fun l => BitVec.ofNat 32 (100 * l))])).row 0 4) =
      lanes32.map fun l => BitVec.ofNat 32 (l + 100 * ((l + 3) % 32)) := by decide +kernel
/-- ESLIDE v1, v2, v3, 3 (17 R285): element e of the result is element e + 3 of the 128. -/
theorem test_eslide :
    ((stepped (dueWith 0x81A404080C000003#64 [(2, lanes32.map fun l => BitVec.ofNat 32 (2 * l + 65536 * (2 * l + 1))),
        (3, lanes32.map fun l => BitVec.ofNat 32 (64 + 2 * l + 65536 * (65 + 2 * l)))])).row 0 1) =
      lanes32.map fun l => BitVec.ofNat 32 (2 * l + 3 + 65536 * (2 * l + 4)) := by decide +kernel
/-- Division (17 R269): −7 by 2 gives −3 and −1; 7 by 0 leaves 7. -/
theorem test_divide :
    (aluDiv false (BitVec.ofInt 32 (-7)) 2#32).1 = 0xFFFFFFFD#64 ∧ (aluRem false (BitVec.ofInt 32 (-7)) 2#32).1 = 0xFFFFFFFF#64 ∧
    aluRem true 7#32 0#32 = (7#64, fDIVZERO) := by decide +kernel
/-- FRCP.RZ of 2^−149 (17 R273); FSCALE.RN of 1.5 by −150 (17 R275). -/
theorem test_float_edges :
    fltRcp 1 1#32 = (0x7F7FFFFF#64, fOVERFLOW ||| fINEXACT) ∧
    fltScale 0 0x3FC00000#32 (BitVec.ofInt 32 (-150)) = (1#64, fUNDERFLOW ||| fINEXACT) := by decide +kernel
/-- PMUL2.Q15 of both halves' examples (17 R283). -/
theorem test_pmul2 : aluPmul2 3 0x40008000#32 0x00038000#32 = (0x00027FFF#64, fSAT) := by decide +kernel
/-- A word that encodes nothing traps with cause 1 (16 R254). -/
theorem test_illegal_step :
    (((stepped (dueWith 0x03400C0000002000#64 [])).group 0).bind (·.run)).map (fun r => (r.closed, r.trap.map fun x => (x.cause, x.info))) =
      some (true, some (0x01, 0x03400C0000002000)) := by decide +kernel

/-- The worked walk of 09 R145: indices, page, key and home die. -/
theorem test_translation :
    [3, 2, 1, 0].map (tableIndex 0x7F1234567890) = [0, 0x7F1, 0x11A, 0x159] ∧ ptePa 0xF000001004C00A80 = 0x1004C00000 ∧
    pteKey 0xF000001004C00A80 = 0x2A ∧ (pteV 0xF000001004C00A80 && pteL 0xF000001004C00A80 && pteRd 0xF000001004C00A80 && pteWr 0xF000001004C00A80) = true ∧
    stackOf 0x1004C03890 = 1 ∧ dieOfPoint (homeSlice State.reset 0x1004C03890) = 0 := by decide +kernel

/-- The worked lease of 07 R110: group A's store at 200 to a line with wts 100, rts 356 and class 3, then group B's load at 150. -/
theorem test_lease :
    let l := { aLine with wts := 100, rts := 356, cls := 3 }
    let s := (base.setLine lk0 l).setFly { base.fly with reqs := [(6, { reqAt .store .point with gts := ⟨200, false⟩ })] }
    let t := after .l2Store (offered (.l2Store 6) s)
    let u := after .l2Load (offered (.l2Load 6)
      (t.setFly { base.fly with reqs := [(6, { reqAt .load .point with gts := ⟨150, false⟩, renew := some ⟨100, false⟩ })] }))
    (t.line lk0).map (fun x => (x.wts, x.rts, x.cls)) = some (357, 357, 2) ∧
    (u.req 6).bind (·.ts) = some (357, 421, false) ∧ (u.line lk0).map (·.rts) = some 421 := by decide +kernel

/-- The TEXT of 16 R259's example forms three runs; a branch that stands on no boundary forms none (03 R41). -/
theorem test_runs :
    let ws := [0x8040101418001030#64, 0x401041841C080A0C#64, 0x88080003FFFFFC00#64, 0x801C000000000000#64]
    runsFormed 0 ws = true ∧ runStarts 0 true ws = [0, 8, 24] ∧ runsFormed 0 [0x08080003FFFFFC00#64, 0x801C000000000000#64] = false := by
  decide +kernel
/-- The relocation of that branch, and the pieces of an address (03 R39). -/
theorem test_relocations :
    relocated 2 0x8808000000000000 (0x400008) (0x400010) true = some 0x88080003FFFFFC00 ∧
    relocValue 2 (0x400008) (0x400010) false = none ∧
    [3, 4, 5, 6].map (fun k => relocValue k 0x0123456789ABCDEF 0 false) = [some 0xCDEF, some 0x89AB, some 0x4567, some 0x123] := by
  decide +kernel
/-- A record filled from a descriptor reads back (02 R32, 03 R40). -/
theorem test_record : launchFields (recordOf (launchFields aRecord)) = launchFields aRecord := by decide +kernel

end Sys2Proof.Tests
end

section
/-! SUPPORT. Lists in order, words with a field replaced, and folds over the state: what the commands of the host need of them. -/

namespace Sys2Proof.Context

open Sys2Proof.Machine Sys2Proof.Claims

/-! ## Lists and tables -/

/-- An element put in its place is there, with all the others. -/
theorem mem_insertSorted {α : Type} (le : α → α → Bool) (x y : α) (l : List α) :
    y ∈ insertSorted le x l ↔ y = x ∨ y ∈ l := by
  induction l with
  | nil => simp [insertSorted]
  | cons z r ih =>
    simp only [insertSorted]
    split
    · simp
    · simp only [List.mem_cons, ih]
      exact or_left_comm

/-- Sorting keeps the elements. -/
@[simp] theorem mem_sortBy {α : Type} (le : α → α → Bool) (y : α) (l : List α) : y ∈ sortBy le l ↔ y ∈ l := by
  induction l with
  | nil => simp [sortBy]
  | cons x r ih => simp [sortBy, mem_insertSorted, ih]

/-- Two changes of one entry are one change. -/
theorem tmod_tmod {β : Type} (t : Tab β) (k : Nat) (f g : β → β) : tmod (tmod t k f) k g = tmod t k (g ∘ f) := by
  induction t with
  | nil => rfl
  | cons e r ih =>
    obtain ⟨j, u⟩ := e
    by_cases h : j = k <;> simp [tmod, h, ih]

/-- A run of entries set to one value reads as that value. -/
theorem tget_foldl_tset {β : Type} (t : Tab β) (a n p : Nat) (v : β) :
    tget ((upTo n).foldl (fun t i => tset t (a + i) v) t) p = if a ≤ p ∧ p < a + n then some v else tget t p := by
  induction n with
  | zero => rw [if_neg (by omega)]; rfl
  | succ n ih =>
    simp only [upTo, List.range_succ, List.foldl_append, List.foldl_cons, List.foldl_nil] at ih ⊢
    by_cases h : p = a + n
    · subst h; simp
    · rw [tget_tset_ne _ _ h, ih]
      have hsame : (a ≤ p ∧ p < a + (n + 1)) = (a ≤ p ∧ p < a + n) := propext (by omega)
      simp only [hsame]

/-- What each step of a fold keeps, the fold keeps. -/
theorem foldl_keeps {σ α β : Type} (proj : σ → β) (f : σ → α → σ) (h : ∀ s a, proj (f s a) = proj s) (l : List α) (s : σ) :
    proj (l.foldl f s) = proj s := by
  induction l generalizing s with
  | nil => rfl
  | cons a r ih => exact (ih _).trans (h s a)

/-- What a fold does in one place, each element of the list once in its own. -/
theorem foldl_at {σ β : Type} (proj : Nat → σ → β) (f : σ → Nat → σ) (g : Nat → β → β)
    (h : ∀ s a c, proj c (f s a) = if c = a then g a (proj a s) else proj c s) (l : List Nat) (hl : l.Nodup) (s : σ) (c : Nat) :
    proj c (l.foldl f s) = if c ∈ l then g c (proj c s) else proj c s := by
  induction l generalizing s with
  | nil => simp
  | cons a r ih =>
    obtain ⟨ha, hr⟩ := List.nodup_cons.mp hl
    rw [List.foldl_cons, ih hr, h]
    by_cases hc : c = a
    · subst hc; simp [ha]
    · simp [hc]

/-! ## Cores, domains and partitions after an update -/

/-- A core after one core has been changed. -/
theorem coreAt_modCore (s : State) (a : Nat) (f : Core → Core) (c : Nat) :
    (s.modCore a f).coreAt c = if c = a then f (s.coreAt a) else s.coreAt c := by
  by_cases h : c = a
  · subst h; simp [State.coreAt]
  · simp [State.coreAt, h, tget_tset_ne]

/-- A domain just changed. -/
@[simp] theorem dom_modDom_same (s : State) (d : Nat) (f : Dom → Dom) : (s.modDom d f).dom d = f (s.dom d) := by
  simp [State.dom]

/-- Every other domain. -/
theorem dom_modDom_ne (s : State) {d e : Nat} (f : Dom → Dom) (h : e ≠ d) : (s.modDom d f).dom e = s.dom e := by
  simp [State.dom, tget_tset_ne _ _ h]

/-- A partition just changed. -/
@[simp] theorem part_modPart_same (s : State) (p : Nat) (f : Part → Part) : (s.modPart p f).part p = f (s.part p) := by
  simp [State.part]

@[simp] theorem part_setCore (s : State) (x : CoreSpace) (p : Nat) : (s.setCore x).part p = s.part p := rfl
theorem setCore_modPart (s : State) (p : Nat) (f : Part → Part) (x : CoreSpace) :
    (s.modPart p f).setCore x = (s.setCore x).modPart p f := rfl
@[simp] theorem coreAt_modPart (s : State) (p : Nat) (f : Part → Part) (c : Nat) : (s.modPart p f).coreAt c = s.coreAt c := rfl

/-- Every other partition. -/
theorem part_modPart_ne (s : State) {p q : Nat} (f : Part → Part) (h : q ≠ p) : (s.modPart p f).part q = s.part q := by
  simp [State.part, tget_tset_ne _ _ h]

/-! ## Words with a field replaced -/

/-- A word of 64 bits whose bits [63:63] and [55:50] are replaced, as a commit writes it: V, PART, and what stands below PART. -/
theorem committed_word_fields (w p : Nat) (hw : w < 2 ^ 64) (hp : p < 64) :
    let x := (BitVec.ofNat 64 (setBits (setBits w 63 63 1) 55 50 p))
    x.getLsbD 63 = true ∧ bits x.toNat 55 50 = p ∧ bits x.toNat 49 0 = bits w 49 0 := by
  simp only [← BitVec.testBit_toNat, Nat.testBit_eq_decide_div_mod_eq, BitVec.toNat_ofNat, setBits, bits, decide_eq_true_eq]
  simp only [Nat.reduceAdd, Nat.reduceSub, Nat.reducePow]
  omega

/-- WEIGHT written twice is written once. -/
theorem setWeight_idem (w : Bits64) (x : Nat) :
    BitVec.ofNat 64 (setBits (BitVec.ofNat 64 (setBits w.toNat 10 4 x)).toNat 10 4 x) = BitVec.ofNat 64 (setBits w.toNat 10 4 x) := by
  have hw := w.isLt
  apply BitVec.eq_of_toNat_eq
  simp only [BitVec.toNat_ofNat, setBits, bits]
  simp only [Nat.reduceAdd, Nat.reduceSub, Nat.reducePow]
  omega

end Sys2Proof.Context
end

section
/-! SUPPORT. What a command of the host does once it is offered: its status, and what it writes (01 R13 to R25, R383). -/

namespace Sys2Proof.Context

open Sys2Proof.Machine Sys2Proof.Claims

/-! ## Who may give a command -/

/-- Naming a partition, as a test and as a proposition. -/
theorem ownsPart_iff (fn p : Nat) : ownsPart fn p = true ↔ MayShape fn p := by
  simp [ownsPart, MayShape]

/-- Naming a domain, as a test and as a proposition. -/
theorem ownsDom_iff (s : State) (fn did : Nat) : ownsDom s fn did = true ↔ MayName s fn did := by
  simp [ownsDom, MayName, and_assoc]

/-- The function that may give a write of a register owns the register. -/
theorem regOwn_of_mayGive {s : State} {fn : Nat} {r : RegWrite} (h : mayGive s (.registerWrite fn r)) : regOwn s fn r = true := by
  cases r with
  | dsave did _ _ | dwdogLimit did _ | dprovHead did _ | gateTable did _ _ => exact (ownsDom_iff s fn did).mpr h
  | prqBase _ | prqOrder _ | prqHead _ => rfl
  | tbase _ | tsize _ | peerBind _ _ _ _ _ | powerLimit _ | tablePages _ _ _ => exact beq_iff_eq.mpr h

/-! ## Statuses -/

@[simp] theorem dom_setStatus (s : State) (fn v d : Nat) : (setStatus s fn v).dom d = s.dom d := rfl
@[simp] theorem part_setStatus (s : State) (fn v p : Nat) : (setStatus s fn v).part p = s.part p := rfl
@[simp] theorem coreAt_setStatus (s : State) (fn v c : Nat) : (setStatus s fn v).coreAt c = s.coreAt c := rfl

/-- The status just set is read back. -/
@[simp] theorem status_setStatus (s : State) (fn v : Nat) : tget (setStatus s fn v).sys.status fn = some v := by
  simp [setStatus]

/-- A status changes the device-wide state alike wherever that is alike. -/
theorem setStatus_sys_congr {s t : State} (h : t.sys = s.sys) (fn v : Nat) : (setStatus t fn v).sys = (setStatus s fn v).sys := by
  simp [setStatus, h]

/-- A command that nothing refuses is DONE. -/
theorem command_done {s : State} {fn : Nat} {own : Bool} {no : List (Bool × Nat)} (f : State → State) (hfn : fn ≤ 64)
    (hup : s.sys.up = true) (hfatal : s.sys.fatal = none) (hown : own = true) (hno : ∀ e ∈ no, e.1 = false) :
    command s fn own no f = setStatus (f s) fn 0 := by
  have hfind : no.find? (·.1) = none := List.find?_eq_none.mpr fun e he => by simp [hno e he]
  simp [command, commandWith, takesCommands, Nat.not_lt.mpr hfn, hup, hfatal, hown, hfind]

/-- A command that a condition of its list refuses ends with the first such status. -/
theorem command_refused {s : State} {fn : Nat} {own : Bool} {no : List (Bool × Nat)} (f : State → State) {e : Bool × Nat} (hfn : fn ≤ 64)
    (hup : s.sys.up = true) (hfatal : s.sys.fatal = none) (hown : own = true) (hno : no.find? (·.1) = some e) :
    command s fn own no f = setStatus s fn e.2 := by
  simp [command, commandWith, takesCommands, Nat.not_lt.mpr hfn, hup, hfatal, hown, hno]

/-- A command that nothing refuses leads to its effect with status 0. -/
theorem leads_done {i : Instr} {h : Happening} {s : State} {p : State → Prop} {fn : Nat} {own : Bool} {no : List (Bool × Nat)}
    {f : State → State} (hexec : s.ctl.ev = some h → exec i s = .next (command s fn own no f)) (hfn : fn ≤ 64)
    (hfatal : s.sys.fatal = none) (hown : own = true) (hno : ∀ e ∈ no, e.1 = false) (hp : p (setStatus (f s) fn 0)) : Leads i h s p := by
  intro hev hup
  exact ⟨_, (hexec hev).trans (congrArg _ (command_done f hfn hup hfatal hown hno)), hp⟩

/-- A command that its list refuses leads to that status. -/
theorem leads_refused {i : Instr} {h : Happening} {s : State} {p : State → Prop} {fn : Nat} {own : Bool} {no : List (Bool × Nat)}
    {f : State → State} {e : Bool × Nat} (hexec : s.ctl.ev = some h → exec i s = .next (command s fn own no f)) (hfn : fn ≤ 64)
    (hfatal : s.sys.fatal = none) (hown : own = true) (hno : no.find? (·.1) = some e) (hp : p (setStatus s fn e.2)) : Leads i h s p := by
  intro hev hup
  exact ⟨_, (hexec hev).trans (congrArg _ (command_refused f hfn hup hfatal hown hno)), hp⟩

/-- What leads to one state leads to all that holds of it. -/
theorem leads_imp {i : Instr} {h : Happening} {s : State} {p q : State → Prop} (hp : Leads i h s p) (hpq : ∀ t, p t → q t) :
    Leads i h s q := fun hev hup =>
  let ⟨t, ht, hpt⟩ := hp hev hup
  ⟨t, ht, hpq t hpt⟩

/-! ## What each command is -/

theorem exec_partitionCommit {s : State} {fn : Nat} {d : PartDesc} (hev : s.ctl.ev = some (.partitionCommit fn d)) :
    exec .partitionCommit s =
      .next (command s fn (fn == 0) [(descBadArg d, 3), (descBadPart s d, 2)] fun s => commitPart s d) := by
  change execPartitionCommit s = _
  simp only [execPartitionCommit, hev]

theorem exec_weightOnlyCommit {s : State} {fn part weight : Nat} (hev : s.ctl.ev = some (.weightOnlyCommit fn part weight)) :
    exec .weightOnlyCommit s = .next (command s fn (fn == 0)
      [(decide (63 < part ∨ weight < 1 ∨ 64 < weight), 3), (!(s.part part).committed, 2)] fun s => commitWeight s part weight) := by
  change execWeightOnlyCommit s = _
  simp only [execWeightOnlyCommit, hev]

theorem exec_faultLogClear {s : State} {fn part : Nat} {value : Bits64} (hev : s.ctl.ev = some (.faultLogClear fn part value)) :
    exec .faultLogClear s = .next (command s fn (ownsPart fn part) [(decide (63 < part) || bits value.toNat 33 0 != 0, 3)] fun s =>
      if value.getLsbD 63 then s.modPart part fun p => { p with log := 0#64 } else s) := by
  change execFaultLogClear s = _
  simp only [execFaultLogClear, hev]

theorem exec_barstatClear {s : State} {fn part value : Nat} (hev : s.ctl.ev = some (.barstatClear fn part value)) :
    exec .barstatClear s = .next (command s fn (ownsPart fn part) [(decide (63 < part ∨ 7 < value), 3)] fun s =>
      s.modPart part fun p => { p with barstat := p.barstat &&& (7 ^^^ value) }) := by
  change execBarstatClear s = _
  simp only [execBarstatClear, hev]

theorem exec_registerWrite {s : State} {fn : Nat} {r : RegWrite} (hev : s.ctl.ev = some (.registerWrite fn r)) :
    exec .registerWrite s = .next (command s fn (regOwn s fn r) (regRefusal s r) fun s => writeReg s fn r) := by
  change execRegisterWrite s = _
  simp only [execRegisterWrite, hev]

theorem exec_curatorRingWrite {s : State} {fn did : Nat} {w : Bits64} (hev : s.ctl.ev = some (.curatorRingWrite fn did w)) :
    exec .curatorRingWrite s = .next (command s fn (ownsDom s fn did)
      [(notIn s did [.closed], 1), (bits w.toNat 62 57 != 0 || bits w.toNat 11 4 != 0 || decide (12 < bits w.toNat 3 0), 3)]
      fun s => modCur s did fun c => { c with v := w.getLsbD 63, basePage := bits w.toNat 56 12, order := bits w.toNat 3 0,
                                              head := 0, ripe := 0, tail := 0, entries := [] }) := by
  change execCuratorRingWrite s = _
  simp only [execCuratorRingWrite, hev]
  rfl

theorem exec_dprovRingWrite {s : State} {fn did : Nat} {w : Bits64} (hev : s.ctl.ev = some (.dprovRingWrite fn did w)) :
    exec .dprovRingWrite s = .next (command s fn (ownsDom s fn did)
      [(notIn s did [.closed], 1), (bits w.toNat 62 57 != 0 || bits w.toNat 11 4 != 0, 3)]
      fun s => s.modDom did fun d => { d with provV := w.getLsbD 63, provBase := bits w.toNat 56 12 * 4096,
                                              provOrder := bits w.toNat 3 0, provHead := 0, provTail := 0 }) := by
  change execDprovRingWrite s = _
  simp only [execDprovRingWrite, hev]
  rfl

/-! ## Commits (01 R14, R16) -/

/-- Roles settle in the banks alone: a core keeps everything else. -/
theorem settleRoles_keeps {β : Type} (proj : Core → β)
    (h : ∀ c roles bankPart l1, proj { c with roles := roles, bankPart := bankPart, l1 := l1 } = proj c) (c : Core) :
    proj (settleRoles c) = proj c := by
  refine foldl_keeps proj _ (fun c b => ?_) _ c
  dsimp only
  split
  · split
    · exact h c _ _ _
    · rfl
  · split <;> exact h c _ _ _

@[simp] theorem settleRoles_dpreg (c : Core) : (settleRoles c).dpreg = c.dpreg := settleRoles_keeps Core.dpreg (fun _ _ _ _ => rfl) c
@[simp] theorem settleRoles_deficits (c : Core) : (settleRoles c).deficits = c.deficits :=
  settleRoles_keeps Core.deficits (fun _ _ _ _ => rfl) c
@[simp] theorem settleRoles_pointers (c : Core) : (settleRoles c).pointers = c.pointers :=
  settleRoles_keeps Core.pointers (fun _ _ _ _ => rfl) c
@[simp] theorem settleRoles_buckets (c : Core) : (settleRoles c).buckets = c.buckets :=
  settleRoles_keeps Core.buckets (fun _ _ _ _ => rfl) c

/-- A core below 192 after a commit: of the partition's set, or outside it. -/
def settled (d : PartDesc) (c : Nat) (x : Core) : Core := if d.cores.contains c then commitCore d x else uncommitCore d x

/-- A partition after a commit at a fabric cycle. -/
def shaped (d : PartDesc) (fab : Nat) (p : Part) : Part :=
  { p with committed := true, cores := sortBy (fun a b => decide (a ≤ b)) d.cores.eraseDups, domLimit := d.domLimit,
           quota := d.quota, lim0 := d.lim0, lim1 := d.lim1, barb := [d.barb0, d.barb1, d.barb2], winAt := List.replicate 3 fab,
           ent0 := (descWords d).1, ent1 := d.ent1, e := d.e }

/-- The turn of one core at a commit. -/
def settleStep (d : PartDesc) (s : State) (c : Nat) : State :=
  if d.cores.contains c then s.modCore c (commitCore d)
  else if (tget (s.coreAt c).dpreg d.e).isSome then s.modCore c (uncommitCore d) else s

theorem commitPart_eq (s : State) (d : PartDesc) :
    commitPart s d = (upTo 192).foldl (settleStep d) (s.modPart d.part (shaped d s.sys.fab)) := rfl

/-- The turn of a core settles it, and no other. -/
theorem coreAt_settleStep (d : PartDesc) (s : State) (a c : Nat) :
    (settleStep d s a).coreAt c = if c = a then settled d a (s.coreAt a) else s.coreAt c := by
  by_cases hin : d.cores.contains a = true
  · simp only [settleStep, hin, if_true, coreAt_modCore, settled]
  · simp only [settleStep, hin, Bool.false_eq_true, if_false, settled]
    split
    · exact coreAt_modCore s a _ c
    · next hnone =>
      have hsame : uncommitCore d (s.coreAt a) = s.coreAt a := by
        simp only [Option.not_isSome_iff_eq_none] at hnone
        simp only [uncommitCore, hnone]
      rw [hsame]
      split
      · next h => rw [h]
      · rfl

/-- The turn of a core changes nothing but cores. -/
theorem settleStep_outside (d : PartDesc) (s : State) (c : Nat) (x : CoreSpace) : (settleStep d s c).setCore x = s.setCore x := by
  simp only [settleStep]
  split
  · rfl
  · split <;> rfl

/-- A commit settles every core below 192, and no other. -/
theorem coreAt_commitPart (s : State) (d : PartDesc) (c : Nat) :
    (commitPart s d).coreAt c = if c < 192 then settled d c (s.coreAt c) else s.coreAt c := by
  have hfold := foldl_at (fun c (s : State) => s.coreAt c) (settleStep d) (settled d) (coreAt_settleStep d) (upTo 192) List.nodup_range
    (s.modPart d.part (shaped d s.sys.fab)) c
  rw [commitPart_eq, hfold]
  simp only [upTo, List.mem_range, coreAt_modPart]

/-- A commit changes nothing but cores and its partition. -/
theorem commitPart_outside (s : State) (d : PartDesc) (x : CoreSpace) :
    (commitPart s d).setCore x = (s.modPart d.part (shaped d s.sys.fab)).setCore x := by
  rw [commitPart_eq]
  exact foldl_keeps (fun s : State => s.setCore x) (settleStep d) (fun s c => settleStep_outside d s c x) (upTo 192) _

@[simp] theorem commitPart_sys (s : State) (d : PartDesc) : (commitPart s d).sys = s.sys := by
  simpa using congrArg State.sys (commitPart_outside s d s.core)
@[simp] theorem commitPart_work (s : State) (d : PartDesc) : (commitPart s d).work = s.work := by
  simpa using congrArg State.work (commitPart_outside s d s.core)
@[simp] theorem commitPart_mem (s : State) (d : PartDesc) : (commitPart s d).mem = s.mem := by
  simpa using congrArg State.mem (commitPart_outside s d s.core)
@[simp] theorem commitPart_fly (s : State) (d : PartDesc) : (commitPart s d).fly = s.fly := by
  simpa using congrArg State.fly (commitPart_outside s d s.core)
@[simp] theorem commitPart_doms (s : State) (d : PartDesc) : (commitPart s d).adm.doms = s.adm.doms := by
  simpa using congrArg (·.adm.doms) (commitPart_outside s d s.core)

/-- The partition after its commit. -/
@[simp] theorem part_commitPart (s : State) (d : PartDesc) : (commitPart s d).part d.part = shaped d s.sys.fab (s.part d.part) := by
  simpa using congrArg (·.part d.part) (commitPart_outside s d s.core)

/-- A descriptor without a bad field names a partition below 64 and cores below 192. -/
theorem bounds_of_descBadArg {d : PartDesc} (h : descBadArg d = false) : d.part < 64 ∧ ∀ c ∈ d.cores, c < 192 := by
  simp only [descBadArg, Bool.or_eq_false_iff, decide_eq_false_iff_not, List.any_eq_false] at h
  obtain ⟨⟨⟨⟨⟨⟨⟨⟨⟨hfields, -⟩, hcores⟩, -⟩, -⟩, -⟩, -⟩, -⟩, -⟩, -⟩ := h
  exact ⟨by omega, fun c hc => by simpa using hcores c hc⟩

/-- A core of the set after a commit that is accepted: its deficits are 0, its pointers stand before partition 0, its buckets are full, and
the entry of the partition is valid. -/
theorem coreAt_commitPart_of_mem {s : State} {d : PartDesc} (hd : descBadArg d = false) {c : Nat} (hc : c ∈ d.cores) :
    ((commitPart s d).coreAt c).deficits = [] ∧ ((commitPart s d).coreAt c).pointers = [] ∧
    tget ((commitPart s d).coreAt c).buckets d.part =
      some ⟨bits d.lim0.toNat 63 48 * 1024, bits d.lim0.toNat 31 16 * 1024, bits d.lim1.toNat 63 48 * 1024⟩ ∧
    ∃ w, tget ((commitPart s d).coreAt c).dpreg d.e = some (w, d.ent1) ∧ w.getLsbD 63 = true ∧ bits w.toNat 55 50 = d.part ∧
      bits w.toNat 49 0 = bits d.ent0.toNat 49 0 := by
  obtain ⟨hpart, hcores⟩ := bounds_of_descBadArg hd
  have hcore : (commitPart s d).coreAt c = commitCore d (s.coreAt c) := by
    simp [coreAt_commitPart, hcores c hc, settled, hc]
  rw [hcore]
  exact ⟨by simp [commitCore], by simp [commitCore], by simp [commitCore],
    (descWords d).1, by simp [commitCore, descWords], committed_word_fields _ _ d.ent0.isLt hpart⟩

/-- A core outside the set loses an entry of the partition at the descriptor's index. -/
theorem dpreg_commitPart_of_not_mem {s : State} {d : PartDesc} {c : Nat} {w : Bits64 × Bits64} (hlt : c < 192) (hc : c ∉ d.cores)
    (hw : tget (s.coreAt c).dpreg d.e = some w) (hv : w.1.getLsbD 63 = true) (hp : bits w.1.toNat 55 50 = d.part) :
    ((commitPart s d).coreAt c).dpreg = tdel (s.coreAt c).dpreg d.e := by
  have hentry : (entryOf w).v = true ∧ (entryOf w).part = d.part := ⟨hv, hp⟩
  simp [coreAt_commitPart, hlt, settled, hc, uncommitCore, hw, hentry]

/-! ## A commit of the weight alone (01 R14) -/

/-- Cores changed one after another by a function that changes nothing the second time. -/
theorem coreAt_foldl_modCore {f : Core → Core} (hf : ∀ x, f (f x) = f x) (l : List Nat) (s : State) (c : Nat) :
    (l.foldl (fun s a => s.modCore a f) s).coreAt c = if c ∈ l then f (s.coreAt c) else s.coreAt c := by
  induction l generalizing s with
  | nil => simp
  | cons a r ih =>
    rw [List.foldl_cons, ih, coreAt_modCore]
    by_cases hc : c = a
    · subst hc; simp [hf]
    · simp [hc]

/-- Word 0 of an entry with a weight. -/
def reweighed (weight : Nat) (w : Bits64) : Bits64 := BitVec.ofNat 64 (setBits w.toNat 10 4 weight)

/-- A core whose entry of an index has a weight. -/
def reweighCore (e weight : Nat) (x : Core) : Core := { x with dpreg := tmod x.dpreg e fun w => (reweighed weight w.1, w.2) }

/-- A weight given twice is given once. -/
theorem reweighCore_idem (e weight : Nat) (x : Core) : reweighCore e weight (reweighCore e weight x) = reweighCore e weight x := by
  simp only [reweighCore, tmod_tmod, Function.comp_def, reweighed, setWeight_idem]

/-- The cores of a list, one after another, have an entry's weight changed. -/
def reweighCores (e weight : Nat) (l : List Nat) (s : State) : State := l.foldl (fun s c => s.modCore c (reweighCore e weight)) s

/-- That changes nothing but cores. -/
theorem reweighCores_outside (e weight : Nat) (l : List Nat) (s : State) (x : CoreSpace) :
    (reweighCores e weight l s).setCore x = s.setCore x :=
  foldl_keeps (fun s : State => s.setCore x) (fun s c => s.modCore c (reweighCore e weight)) (fun _ _ => rfl) l s

theorem commitWeight_eq (s : State) (part weight : Nat) :
    commitWeight s part weight =
      (reweighCores (s.part part).e weight (s.part part).cores s).modPart part
        fun p => { p with ent0 := reweighed weight p.ent0 } := rfl

/-- A core after a commit of the weight: of the partition's set, or outside it. -/
theorem coreAt_commitWeight (s : State) (part weight c : Nat) :
    (commitWeight s part weight).coreAt c =
      if c ∈ (s.part part).cores then reweighCore (s.part part).e weight (s.coreAt c) else s.coreAt c := by
  rw [commitWeight_eq, coreAt_modPart]
  exact coreAt_foldl_modCore (reweighCore_idem (s.part part).e weight) (s.part part).cores s c

/-- A commit of the weight changes nothing but cores and word 0 of its partition's entry. -/
theorem commitWeight_outside (s : State) (part weight : Nat) (x : CoreSpace) :
    (commitWeight s part weight).setCore x = (s.modPart part fun p => { p with ent0 := reweighed weight p.ent0 }).setCore x := by
  rw [commitWeight_eq, setCore_modPart, reweighCores_outside, setCore_modPart]

@[simp] theorem commitWeight_sys (s : State) (part weight : Nat) : (commitWeight s part weight).sys = s.sys := by
  simpa using congrArg State.sys (commitWeight_outside s part weight s.core)
@[simp] theorem commitWeight_work (s : State) (part weight : Nat) : (commitWeight s part weight).work = s.work := by
  simpa using congrArg State.work (commitWeight_outside s part weight s.core)
/-- The partition after a commit of its weight. -/
@[simp] theorem part_commitWeight (s : State) (part weight : Nat) :
    (commitWeight s part weight).part part = { s.part part with ent0 := reweighed weight (s.part part).ent0 } := by
  simpa using congrArg (·.part part) (commitWeight_outside s part weight s.core)

end Sys2Proof.Context
end

section
/-! SUPPORT. Registers as they are written, and the words of the inspection window (01 R383, 13 R208, R384, 12 R197). -/

namespace Sys2Proof.Context

open Sys2Proof.Machine Sys2Proof.Claims

/-! ## Registers -/

@[simp] theorem noteLinks_sys (s : State) : (noteLinks s).sys = s.sys := rfl

/-- A register holds what has been written to it. -/
theorem registerHolds_writeReg (s : State) (fn : Nat) (r : RegWrite) :
    registerHolds s (setStatus (writeReg s fn r) fn 0) fn r := by
  cases r with
  | dsave did _ _ | dwdogLimit did _ | dprovHead did _ | gateTable did _ _ => simp [registerHolds, writeReg]
  | prqBase _ | prqOrder _ | prqHead _ => simp [registerHolds, writeReg, State.prq, setStatus]
  | tbase _ | tsize _ | powerLimit _ => rfl
  | peerBind i v link ldid rdid => cases v <;> simp [registerHolds, writeReg, setStatus]
  | tablePages first n did =>
    intro p hlo hhi
    exact (tget_foldl_tset s.sys.tablePages first n p did).trans (if_pos ⟨hlo, hhi⟩)

/-- What a write of any register leaves. -/
theorem writeReg_fields (s : State) (fn : Nat) (r : RegWrite) :
    (writeReg s fn r).core = s.core ∧ (writeReg s fn r).mem = s.mem ∧ (writeReg s fn r).fly = s.fly ∧ (writeReg s fn r).ctl = s.ctl ∧
    (writeReg s fn r).work.groups = s.work.groups ∧ (writeReg s fn r).work.teams = s.work.teams ∧
    (writeReg s fn r).adm.queues = s.adm.queues ∧ (writeReg s fn r).adm.parts = s.adm.parts := by
  cases r <;> exact ⟨rfl, rfl, rfl, rfl, rfl, rfl, rfl, rfl⟩

/-! ## The inspection window -/

/-- The state after a read of IWDATA: the word stands there, and WORD has advanced. -/
def afterRead (s : State) (fn : Nat) : State :=
  let x := (s.iwsel fn).toNat
  let s1 := s.setSys { s.sys with iwdata := inspect s fn x,
                                  iwsel := tset s.sys.iwsel fn (BitVec.ofNat 64 (setBits x 15 0 (iwWord x + 1))) }
  s1.setCtl { s1.ctl with free := s1.ctl.free + 1 }

theorem exec_iwdataRead {s : State} {fn : Nat} (hfn : fn ≤ 64) (hev : s.ctl.ev = some (.iwdataRead fn)) (hup : s.sys.up = true) :
    exec .iwdataRead s = .next (afterRead s fn) := by
  change execIwdataRead s = _
  simp only [execIwdataRead, hev, whenUp, hup, if_true, hfn, afterRead]

theorem exec_iwselWrite {s : State} {fn : Nat} {v : Bits64} (hfn : fn ≤ 64) (hev : s.ctl.ev = some (.iwselWrite fn v))
    (hup : s.sys.up = true) : exec .iwselWrite s = .next (s.setSys { s.sys with iwsel := tset s.sys.iwsel fn v }) := by
  change execIwselWrite s = _
  simp only [execIwselWrite, hev, whenUp, hup, if_true, hfn]

/-- WORD replaced in a selection keeps it a word of 64 bits. -/
theorem setWord_lt {x : Nat} (h : x < 2 ^ 64) (w : Nat) : setBits x 15 0 w < 2 ^ 64 := by
  simp only [setBits, bits]
  omega

/-- The selection after a read. -/
theorem iwsel_afterRead (s : State) (fn : Nat) :
    ((afterRead s fn).iwsel fn).toNat = setBits (s.iwsel fn).toNat 15 0 (iwWord (s.iwsel fn).toNat + 1) := by
  have hlt := setWord_lt (s.iwsel fn).isLt (iwWord (s.iwsel fn).toNat + 1)
  rw [← Nat.mod_eq_of_lt hlt, ← BitVec.toNat_ofNat]
  simp [afterRead, State.iwsel]

/-- The selections of the other functions. -/
theorem iwsel_afterRead_ne (s : State) {fn f : Nat} (h : f ≠ fn) : (afterRead s fn).iwsel f = s.iwsel f := by
  simp [afterRead, State.iwsel, tget_tset_ne _ _ h]

/-- A VF reads zeros of a domain that it may not name. -/
theorem readsZero_of_not_mayName {s : State} {fn x : Nat} (hfn : fn ≠ 0) (hc : iwClass x ∈ [1, 2, 3, 4, 10, 12, 13])
    (hd : ¬ MayName s fn (iwDid x)) : readsZero s fn x = true := by
  have h0 : iwClass x ≠ 0 := fun h => absurd (h ▸ hc) (by decide)
  have hown : ownsDom s fn (iwDid x) = false := Bool.eq_false_iff.mpr fun h => hd ((ownsDom_iff s fn _).mp h)
  have hclass : didClass (iwClass x) = true := List.contains_iff_mem.mpr hc
  simp [readsZero, hfn, h0, hclass, hown]

/-- A VF reads zeros of the classes without a domain. -/
theorem readsZero_of_no_did {s : State} {fn x : Nat} (hfn : fn ≠ 0) (hc : iwClass x ∈ [5, 6, 7, 8, 9, 11]) :
    readsZero s fn x = true := by
  have hclass : iwClass x ≠ 0 ∧ didClass (iwClass x) = false :=
    (by decide : ∀ c ∈ [5, 6, 7, 8, 9, 11], c ≠ 0 ∧ didClass c = false) _ hc
  simp [readsZero, hfn, hclass]

/-- A function that may name the domain selected sees the objects of its classes. -/
theorem not_readsZero {s : State} {fn x : Nat} (hc : iwClass x ∈ [1, 2, 3, 4, 10, 12, 13]) (hd : MayName s fn (iwDid x)) :
    readsZero s fn x = false := by
  have h0 : iwClass x ≠ 0 := fun h => absurd (h ▸ hc) (by decide)
  have hclass : didClass (iwClass x) = true := List.contains_iff_mem.mpr hc
  simp [readsZero, h0, hclass, (ownsDom_iff s fn _).mpr hd]

/-- A word of an object that the reader sees. -/
theorem inspect_of_word {s : State} {fn x w : Nat} {l : List Nat} (hz : readsZero s fn x = false) (hl : objectWords s fn x = some l)
    (hw : l[iwWord x]? = some w) : inspect s fn x = BitVec.ofNat 64 w := by
  simp only [inspect, hz, hl, hw, Bool.false_eq_true, if_false]

/-- A word of a domain's descriptor (class 1). -/
theorem inspect_domain {s : State} {fn x w : Nat} (hc : iwClass x = 1) (hd : MayName s fn (iwDid x))
    (hw : (domWords s (iwDid x) (fn == 0))[iwWord x]? = some w) : inspect s fn x = BitVec.ofNat 64 w :=
  inspect_of_word (not_readsZero (by simp [hc]) hd) (by simp only [objectWords, hc]) hw

/-- The words of a descriptor that hold one register each. -/
theorem domWords_register (s : State) (did : Nat) (pf : Bool) :
    let d := s.dom did
    ∀ e ∈ ([(1, d.stinfo), (2, d.root), (3, d.vector), (4, d.gates), (5, d.gateCnt), (7, d.save0.toNat), (8, d.save1.toNat)] :
      List (Nat × Nat)), (domWords s did pf)[e.1]? = some e.2 := by
  simp [domWords]

/-- Word 3 of a curator (class 12): NEXT and DONE. -/
theorem inspect_curator_tickets {s : State} {fn x : Nat} (hc : iwClass x = 12) (hd : MayName s fn (iwDid x)) (hw : iwWord x = 3) :
    (inspect s fn x).toNat = (s.dom (iwDid x)).cur.next % 2 ^ 32 * 2 ^ 32 + (s.dom (iwDid x)).cur.doneTk % 2 ^ 32 := by
  have hword : inspect s fn x = BitVec.ofNat 64 (fieldsOf [(32, 32, (s.dom (iwDid x)).cur.next), (0, 32, (s.dom (iwDid x)).cur.doneTk)]) :=
    inspect_of_word (l := curatorWords (s.dom (iwDid x)).cur) (not_readsZero (by simp [hc]) hd) (by simp only [objectWords, hc])
      (by rw [hw]; rfl)
  rw [hword]
  simp only [fieldsOf, BitVec.toNat_ofNat]
  omega

end Sys2Proof.Context
end

section
/-! The statements about the state at reset, and about partitions and the registers of a function. -/

namespace Sys2Proof.Context

open Sys2Proof.Machine Sys2Proof.Claims

/-- Settles O56: every table is empty at reset, so that each accessor gives its default. -/
theorem resetValues : Obligations.ResetValues := by
  have hlane : ∀ l, l < 32 → (List.replicate 32 (0#32 : Word)).getD l 0#32 = 0#32 := by decide
  exact ⟨rfl, rfl, rfl, rfl, rfl, rfl, fun _ => ⟨rfl, rfl⟩, fun _ => rfl, fun _ => ⟨rfl, rfl, rfl⟩, fun _ _ => rfl,
    fun _ _ _ l hl => ⟨hlane l hl, rfl⟩, fun _ => rfl, fun _ => rfl, rfl, rfl, rfl, rfl, rfl, rfl, rfl⟩

/-! ## Partitions -/

/-- PARTITION_COMMIT ends BAD_ARG or BAD_PART, or settles every core of the device (01 R14, R16). -/
theorem partitionCommit_leads {s : State} (hfatal : s.sys.fatal = none) (d : PartDesc) :
    (descBadArg d = true → Leads .partitionCommit (.partitionCommit 0 d) s fun t => t = setStatus s 0 3) ∧
    (descBadArg d = false → descBadPart s d = true → Leads .partitionCommit (.partitionCommit 0 d) s fun t => t = setStatus s 0 2) ∧
    (descBadArg d = false → descBadPart s d = false → Leads .partitionCommit (.partitionCommit 0 d) s fun t =>
      t = setStatus (commitPart s d) 0 0) := by
  refine ⟨fun hbad => ?_, fun harg hbad => ?_, fun harg hpart => ?_⟩
  · exact leads_refused (e := (true, 3)) exec_partitionCommit (Nat.zero_le _) hfatal rfl (by simp [hbad]) rfl
  · exact leads_refused (e := (true, 2)) exec_partitionCommit (Nat.zero_le _) hfatal rfl (by simp [harg, hbad]) rfl
  · exact leads_done exec_partitionCommit (Nat.zero_le _) hfatal rfl (by simp [harg, hpart]) rfl

/-- A bit of a barometer status that is cleared by a write of ones. -/
theorem testBit_clearOnes (x v b : Nat) (hb : b < 3) : (x &&& (7 ^^^ v)).testBit b = (x.testBit b && !v.testBit b) := by
  have h7 : (7 : Nat).testBit b = true := (by decide : ∀ b < 3, (7 : Nat).testBit b = true) b hb
  simp [Nat.testBit_and, Nat.testBit_xor, h7]

/-- The commits and clears of a partition. -/
theorem partitions : Claims.Partitions := by
  intro s hfatal
  refine ⟨fun d => ?_, fun part weight hpart hcommitted hlo hhi => ?_, fun fn part value hfn hown hpart hbits => ?_,
    fun fn part value hfn hown hpart hvalue => ?_⟩
  · obtain ⟨hbadArg, hbadPart, hdone⟩ := partitionCommit_leads hfatal d
    refine ⟨hbadArg, hbadPart, fun harg hpart => leads_imp (hdone harg hpart) ?_⟩
    rintro t rfl
    simp only [part_setStatus, part_commitPart]
    refine ⟨rfl, fun c => by simp [shaped], rfl, rfl, rfl, rfl, rfl, rfl, fun c hc => ?_, fun c w hlt hc hw hv hp => ?_, commitPart_work s d,
      commitPart_mem s d, commitPart_fly s d, commitPart_doms s d⟩
    · simp only [coreAt_setStatus]
      exact coreAt_commitPart_of_mem harg hc
    · rw [coreAt_setStatus]
      exact dpreg_commitPart_of_not_mem hlt hc hw hv hp
  · refine leads_done exec_weightOnlyCommit (Nat.zero_le _) hfatal rfl ?_ ?_
    · have hrange : ¬ (63 < part ∨ weight < 1 ∨ 64 < weight) := by omega
      simp only [hrange, hcommitted, decide_false, Bool.not_true, List.forall_mem_cons, true_and]
      exact List.forall_mem_nil _
    · refine ⟨fun c w hc hw => ?_, fun c hc => ?_, by simp, by simp, setStatus_sys_congr (by simp) 0 0⟩
      · simp [coreAt_commitWeight, hc, reweighCore, hw, reweighed]
      · simp [coreAt_commitWeight, hc]
  · refine leads_done exec_faultLogClear hfn hfatal ((ownsPart_iff fn part).mpr hown) ?_ ?_
    · have hrange : ¬ 63 < part := by omega
      simp only [hrange, hbits, decide_false, bne_self_eq_false, Bool.or_self, List.forall_mem_cons, true_and]
      exact List.forall_mem_nil _
    · cases hv : value.getLsbD 63
      · exact ⟨rfl, fun _ _ => rfl, rfl, rfl, rfl⟩
      · refine ⟨by simp, fun p hp => ?_, rfl, rfl, rfl⟩
        simp [part_modPart_ne s _ hp]
  · refine leads_done exec_barstatClear hfn hfatal ((ownsPart_iff fn part).mpr hown) ?_ ?_
    · have hrange : ¬ (63 < part ∨ 7 < value) := by omega
      simp only [hrange, decide_false, List.forall_mem_cons, true_and]
      exact List.forall_mem_nil _
    · refine ⟨fun b hb => ?_, by simp, fun p hp => ?_, rfl, rfl⟩
      · simpa using testBit_clearOnes (s.part part).barstat value b hb
      · simp [part_modPart_ne s _ hp]

/-! ## Registers -/

/-- A domain that is CLOSED is in none of the other states. -/
theorem notIn_closed {s : State} {did : Nat} (h : (s.dom did).st = .closed) : notIn s did [.closed] = false := by
  simp [notIn, h]

/-- The registers of a function, the rings of a domain and the inspection window. -/
theorem registers : Claims.Registers := by
  intro s fn hfn hfatal
  refine ⟨fun r hgive hno => ?_, fun did w hname hclosed hhigh hlow => ⟨fun horder => ?_, ?_⟩, fun v hev hup => ?_, fun hev hup => ?_⟩
  · exact leads_done exec_registerWrite hfn hfatal (regOwn_of_mayGive hgive) hno
      ⟨registerHolds_writeReg s fn r, status_setStatus _ _ _, writeReg_fields s fn r⟩
  · refine leads_done exec_curatorRingWrite hfn hfatal ((ownsDom_iff s fn did).mpr hname) ?_
      ⟨by simp [modCur], fun d hd => ?_, rfl, rfl, rfl⟩
    · simp [notIn_closed hclosed, hhigh, hlow, horder]
    · simp [modCur, dom_modDom_ne s _ hd]
  · refine leads_done exec_dprovRingWrite hfn hfatal ((ownsDom_iff s fn did).mpr hname) ?_
      ⟨by simp, fun d hd => ?_, rfl, rfl, rfl⟩
    · simp [notIn_closed hclosed, hhigh, hlow]
    · simp [dom_modDom_ne s _ hd]
  · refine ⟨_, exec_iwselWrite hfn hev hup, ?_, fun f hf => ?_, rfl, rfl, rfl, rfl⟩
    · simp [State.iwsel]
    · simp [State.iwsel, tget_tset_ne _ _ hf]
  · refine ⟨_, exec_iwdataRead hfn hev hup, iwsel_afterRead s fn, fun f hf => iwsel_afterRead_ne s hf, rfl, rfl, rfl, rfl, rfl,
      fun h0 hc hd => ?_, fun h0 hc => ?_, fun hc hd e he hw => ?_, fun hc hd hw => ?_⟩
    · exact if_pos (readsZero_of_not_mayName h0 hc hd)
    · exact if_pos (readsZero_of_no_did h0 hc)
    · refine inspect_domain hc hd ?_
      rw [show iwWord _ = e.1 from hw]
      exact domWords_register s _ _ e he
    · exact inspect_curator_tickets hc hd hw

/-- Settles O34: what a commit does to a core is said core by core, and what a read of the window returns class by class. -/
theorem partitionCommands : Obligations.PartitionCommands := ⟨partitions, registers⟩

end Sys2Proof.Context
end

section
/-! Two statements that fail, each with the state in which the model does otherwise. -/

namespace Sys2Proof.Context

open Sys2Proof.Machine Sys2Proof.Claims

/-! ## The end of a watchdog -/

/-- The device with one LIVE domain whose watchdog has expired, of which a group issues a run: it has counted one scalar operation. -/
def overdue : State :=
  let s := State.reset.setDom 1 { Dom.fresh with st := .live, wlimit := 1, wcount := 2 ^ 20 }
  let g := { oneGroup [0#64] with run := some { Run.of 0x1000 0 0xFFFFFFFF#32 [0#64] with counts := [(14, 1)] } }
  let s1 := s.setWork { grids := [(0, oneGrid 1)], teams := [(0, oneTeam 1)], groups := [(0, g)] }
  (s1.setSys { s1.sys with up := true }).setCtl { s1.ctl with ev := some (.watchdogExpiry 1) }

/-- The counts that the run of group 0 holds in the state that a step answers. -/
def countsAfter : Out → Option (Tab Nat)
  | .next t => ((t.group 0).bind (·.run)).map (·.counts)
  | _ => none

/-- The stop of the domain commits the run's count and leaves none to be committed again (14 R210). -/
theorem countsAfter_watchdogExpiry : countsAfter (exec .watchdogExpiry overdue) = some [] := by decide +kernel

/-- Refutes O33: of a group that the watchdog stops, the statement lets the state alone change, while the model also clears the counts of a
run in progress, which it has just committed (14 R210). -/
theorem not_domainCommands : ¬ Obligations.DomainCommands := by
  unfold Obligations.DomainCommands Claims.DomainLife
  rintro ⟨-, hlife⟩
  obtain ⟨-, -, -, -, -, -, -, -, hwatchdog⟩ := hlife overdue 0 1 (by decide) rfl
  obtain ⟨t, hstep, -, hdue⟩ := hwatchdog rfl rfl
  obtain ⟨-, -, -, hgroups⟩ := hdue (by decide +kernel)
  have hstopped := hgroups 0 _ rfl (by decide +kernel) (by decide +kernel)
  have hcounts := countsAfter_watchdogExpiry
  rw [hstep, countsAfter, hstopped] at hcounts
  exact absurd hcounts (by decide +kernel)

/-! ## A reply whose block is not found -/

/-- A GRET without operands: the reply stands at offset 0 and has no length. -/
def emptyReply : RWord := plainR (bare false) .none .none .none .none 0#4

/-- The device with one LIVE domain and one group that issues a GRET and holds no call. The group is of team 1, and stands under number 0,
which is a number of team 0. -/
def misnumbered : State :=
  let s := State.reset.setDom 1 { Dom.fresh with st := .live }
  let s1 := s.setWork { grids := [(0, oneGrid 1)], teams := [(1, oneTeam 1)], groups := [(0, { oneGroup [0#64] with team := 1 })] }
  (s1.setSys { s1.sys with up := true }).setCtl { s1.ctl with cur := some 0 }

/-- What its next word sees. -/
def misnumberedCtx : Ctx :=
  { k := 0, g := { oneGroup [0#64] with team := 1 }, r := Run.of 0x1000 0 0xFFFFFFFF#32 [0#64], pc := 0x1000, act := 0xFFFFFFFF#32 }

theorem issuing_misnumbered : Issuing misnumbered emptyReply.h misnumberedCtx := rfl

theorem syncReady_misnumbered : SyncReady misnumbered misnumberedCtx emptyReply {} false false :=
  ⟨by decide +kernel, ⟨fun _ => rfl, List.forall_mem_nil _⟩, List.forall_mem_nil _, by decide +kernel, nofun⟩

theorem idle_misnumbered : Idle misnumbered misnumberedCtx (oneTeam 1) := ⟨rfl, rfl, rfl, rfl, nofun⟩

/-- Whether the last result that group 0 awaits is complete in the state that a step answers. -/
def lastDone : Out → Option Bool
  | .next t => ((t.group 0).bind (·.results.getLast?)).map (·.done)
  | _ => none

/-- The GRET waits for its block in the team that the group's number names, and its result stays open. -/
theorem lastDone_gret_misnumbered : lastDone (exec (.gret emptyReply) misnumbered) = some false := by decide +kernel

/-- Refutes O25: no hypothesis says that the group that issues stands under a number of its own team. The model reads the block of a GRET in
the team that the number names, the statement in the group's; where these differ, the block is here by the statement, and the word still
waits where it should end with NO_CALL. -/
theorem not_gates : ¬ Obligations.Gates := by
  unfold Obligations.Gates
  rintro ⟨-, -, hgret⟩
  obtain ⟨-, hhere⟩ := hgret _ _ _ _ issuing_misnumbered syncReady_misnumbered idle_misnumbered
  obtain ⟨hnoCall, -⟩ := hhere (Nat.zero_le _) rfl
  obtain ⟨u, ⟨hstep, -⟩, x, ⟨g, hg, -, hlast, -⟩, hdone, -⟩ := hnoCall rfl
  have hopen := lastDone_gret_misnumbered
  rw [hstep, lastDone, show u.group 0 = some g from hg] at hopen
  simp [hlast, hdone] at hopen

end Sys2Proof.Context
end

section
/-! SUPPORT. A queue after an update, and the commands on it (02 R27 to R29). -/

namespace Sys2Proof.Queues

open Sys2Proof.Machine Sys2Proof.Claims Sys2Proof.Context

/-! ## One queue changed -/

/-- Setting an entry twice sets it to the second value. -/
@[simp] theorem tset_tset {β : Type} (t : Tab β) (k : Nat) (v w : β) : tset (tset t k v) k w = tset t k w := by
  induction t with
  | nil => simp [tset]
  | cons e r ih =>
    obtain ⟨j, u⟩ := e
    by_cases hlt : k < j
    · simp [tset, hlt]
    · by_cases heq : j = k
      · simp [tset, heq]
      · simp [tset, hlt, heq, ih]

/-- A queue just changed. -/
@[simp] theorem queue_modQueue_same (s : State) (did q : Nat) (f : Queue → Queue) :
    (s.modQueue did q f).queue did q = f (s.queue did q) := by
  simp [State.modQueue, State.queue]

/-- Every other queue. -/
theorem queues_modQueue_ne (s : State) {did q k : Nat} (f : Queue → Queue) (h : k ≠ did * 16 + q) :
    tget (s.modQueue did q f).adm.queues k = tget s.adm.queues k := tget_tset_ne _ _ h

/-- Two changes of one queue are one change. -/
@[simp] theorem modQueue_modQueue (s : State) (did q : Nat) (f g : Queue → Queue) :
    (s.modQueue did q f).modQueue did q g = s.modQueue did q fun x => g (f x) := by
  simp only [State.modQueue, State.setAdm, State.queue, tset_tset, tget_tset_same, Option.getD_some]

/-- A change of a queue is what it makes of the queue as it stands. -/
theorem modQueue_congr {s : State} {did q : Nat} {f g : Queue → Queue} (h : f (s.queue did q) = g (s.queue did q)) :
    s.modQueue did q f = s.modQueue did q g := by
  simp only [State.modQueue, h]

/-- One queue changed, with a command that is DONE. -/
theorem queueBecomes_modQueue {s : State} {fn did q : Nat} {f : Queue → Queue} {y : Queue} (h : f (s.queue did q) = y) :
    QueueBecomes s (setStatus (s.modQueue did q f) fn 0) fn did q y :=
  ⟨(queue_modQueue_same s did q f).trans h, fun _ hk => queues_modQueue_ne s f hk, rfl, rfl, rfl, rfl, rfl, rfl, rfl, rfl⟩

/-- No queue changed. -/
theorem queueBecomes_self (s : State) (fn did q : Nat) : QueueBecomes s (setStatus s fn 0) fn did q (s.queue did q) :=
  ⟨rfl, fun _ _ => rfl, rfl, rfl, rfl, rfl, rfl, rfl, rfl, rfl⟩

/-! ## Commands on a queue -/

/-- A command that its function may give does what it does where its list refuses nothing. -/
theorem commandWith_done {s : State} {fn : Nat} {own : Bool} {no : List (Bool × Nat)} (f : State → State) (hfn : fn ≤ 64)
    (hup : s.sys.up = true) (hfatal : s.sys.fatal = none) (hown : own = true) (hno : no.find? (·.1) = none) :
    commandWith s fn own no f = f s := by
  simp [commandWith, takesCommands, Nat.not_lt.mpr hfn, hup, hfatal, hown, hno]

/-- A command that its list refuses ends with the first status whose condition holds. -/
theorem commandWith_refused {s : State} {fn : Nat} {own : Bool} {no : List (Bool × Nat)} (f : State → State) {e : Bool × Nat}
    (hfn : fn ≤ 64) (hup : s.sys.up = true) (hfatal : s.sys.fatal = none) (hown : own = true) (hno : no.find? (·.1) = some e) :
    commandWith s fn own no f = setStatus s fn e.2 := by
  simp [commandWith, takesCommands, Nat.not_lt.mpr hfn, hup, hfatal, hown, hno]

/-- What refuses any queue command does not refuse one that is taken: its own list decides. -/
theorem find_of_taken {s : State} {fn did q : Nat} (h : QueueTaken s fn did q) (no : List (Bool × Nat)) :
    ((decide (255 < did) || !(notIn s did [.free, .retiring]), 1) :: (decide (15 < q), 3) :: no).find? (·.1) = no.find? (·.1) := by
  obtain ⟨-, -, -, hdid, hfree, hretiring, hq⟩ := h
  have hstate : notIn s did [.free, .retiring] = true := by simp [notIn, hfree, hretiring]
  simp [hstate, Nat.not_lt.mpr (Nat.le_of_lt_succ hdid), Nat.not_lt.mpr (Nat.le_of_lt_succ hq)]

/-- A queue command that nothing refuses leads to what it does. -/
theorem leads_queueCommand {i : Instr} {h : Happening} {s : State} {p : State → Prop} {fn did q : Nat} {no : List (Bool × Nat)}
    {f : State → State} (hexec : s.ctl.ev = some h → exec i s = .next (queueCommand s fn did q no f)) (htaken : QueueTaken s fn did q)
    (hno : ∀ e ∈ no, e.1 = false) (hp : p (f s)) : Leads i h s p := by
  intro hev hup
  obtain ⟨hfn, hfatal, hname, -⟩ := id htaken
  have hfind : no.find? (·.1) = none := List.find?_eq_none.mpr fun e he => by simp [hno e he]
  have hdone : queueCommand s fn did q no f = f s :=
    commandWith_done f hfn hup hfatal ((ownsDom_iff s fn did).mpr hname) ((find_of_taken htaken no).trans hfind)
  exact ⟨_, (hexec hev).trans (congrArg _ hdone), hp⟩

/-- A queue command that its own list refuses leads to that status. -/
theorem leads_queueRefused {i : Instr} {h : Happening} {s : State} {p : State → Prop} {fn did q : Nat} {no : List (Bool × Nat)}
    {f : State → State} {e : Bool × Nat} (hexec : s.ctl.ev = some h → exec i s = .next (queueCommand s fn did q no f))
    (htaken : QueueTaken s fn did q) (hno : no.find? (·.1) = some e) (hp : p (setStatus s fn e.2)) : Leads i h s p := by
  intro hev hup
  obtain ⟨hfn, hfatal, hname, -⟩ := id htaken
  have hrefused : queueCommand s fn did q no f = setStatus s fn e.2 :=
    commandWith_refused f hfn hup hfatal ((ownsDom_iff s fn did).mpr hname) ((find_of_taken htaken no).trans hno)
  exact ⟨_, (hexec hev).trans (congrArg _ hrefused), hp⟩

theorem exec_queueDescriptorWrite {s : State} {fn did q : Nat} {w0 w1 : Bits64}
    (hev : s.ctl.ev = some (.queueDescriptorWrite fn did q w0 w1)) :
    exec .queueDescriptorWrite s = .next (queueCommand s fn did q
      [(queueFixed (s.queue did q) w0.toNat w1.toNat, 1), (queueBad w0.toNat w1.toNat, 3)]
      fun s => writeQueue s fn did q w0.toNat w1.toNat) := by
  change execQueueDescriptorWrite s = _
  simp only [execQueueDescriptorWrite, hev]

theorem exec_queueEnable {s : State} {fn did q : Nat} (hev : s.ctl.ev = some (.queueEnable fn did q)) :
    exec .queueEnable s = .next (queueCommand s fn did q [] fun s => setStatus (enableQueue s did q) fn 0) := by
  change execQueueEnable s = _
  simp only [execQueueEnable, hev]

theorem exec_queueDisable {s : State} {fn did q : Nat} (hev : s.ctl.ev = some (.queueDisable fn did q)) :
    exec .queueDisable s = .next (queueCommand s fn did q [] fun s => setStatus (disableQueue s did q) fn 0) := by
  change execQueueDisable s = _
  simp only [execQueueDisable, hev]

theorem exec_errcClear {s : State} {fn did q b : Nat} (hev : s.ctl.ev = some (.errcClear fn did q b)) :
    exec .errcClear s = .next (queueCommand s fn did q [(decide (255 < b), 3)] fun s =>
      setStatus (if b = 0 then s else s.modQueue did q fun x => { x with errc := 0 }) fn 0) := by
  change execErrcClear s = _
  simp only [execErrcClear, hev]

theorem exec_queueTailWrite {s : State} {fn did q tail : Nat} (hev : s.ctl.ev = some (.queueTailWrite fn did q tail)) :
    exec .queueTailWrite s = .next (queueCommand s fn did q [] fun s => writeTail s fn did q tail) := by
  change execQueueTailWrite s = _
  simp only [execQueueTailWrite, hev]

/-- The record in ERROR is discarded, and the queue goes on (02 R29). -/
def skipRecord (s : State) (did q : Nat) : State :=
  stirQueue (s.modQueue did q fun x =>
    { x with head := (x.head + 1) % 2 ^ 16, errc := 0, record := none, waitGen := none, st := .idle,
             outst := if x.kind then x.outst - 1 else x.outst }) did q

theorem exec_skip {s : State} {fn did q : Nat} (hev : s.ctl.ev = some (.skip fn did q)) :
    exec .skip s = .next (queueCommand s fn did q [((s.queue did q).st != .error, 1)] fun s => setStatus (skipRecord s did q) fn 0) := by
  change execSkip s = _
  simp only [execSkip, hev, skipRecord]

theorem exec_doorbell {s : State} {fn offset value did q : Nat} (hev : s.ctl.ev = some (.doorbell fn offset value))
    (hup : s.sys.up = true) (htarget : doorbellTarget s fn offset = some (did, q)) :
    exec .doorbell s = .next (if (s.queue did q).kind then s else (setTail s did q value).1) := by
  change execDoorbell s = _
  simp only [execDoorbell, hev, whenUp, hup, if_true, htarget]

/-! ## What a command does to its queue -/

/-- A queue as it goes on where its ring may have come to hold records: out of IDLE, and out of WAITING where its domain is not LIVE. -/
def stirredQueue (s : State) (did : Nat) (x : Queue) : Queue :=
  { x with st := if x.st = .idle then stirred s did x.head x.tail
                 else if x.st = .waiting ∧ (s.dom did).st ≠ .live then .held else x.st }

theorem stirQueue_eq (s : State) (did q : Nat) : stirQueue s did q = s.modQueue did q (stirredQueue s did) := by
  refine modQueue_congr ?_
  generalize s.queue did q = x
  by_cases hidle : x.st = .idle
  · by_cases hring : x.head = x.tail
    · cases x
      simp_all [wakeQueue, stirredQueue, stirred]
    · by_cases hlive : (s.dom did).st = .live <;> simp [wakeQueue, stirredQueue, stirred, hidle, hring, hlive]
  · by_cases hwait : x.st = .waiting ∧ (s.dom did).st ≠ .live <;> simp [wakeQueue, stirredQueue, hidle, hwait]

/-- A queue that is changed and then goes on. -/
theorem stirQueue_modQueue (s : State) (did q : Nat) (f : Queue → Queue) :
    stirQueue (s.modQueue did q f) did q = s.modQueue did q fun x => stirredQueue s did (f x) := by
  rw [stirQueue_eq, modQueue_modQueue]
  rfl

/-- A queue that is enabled on a descriptor that has not been written since, with its ring as it stands (02 R29). -/
theorem enableQueue_of_off {s : State} {did q : Nat} (hoff : (s.queue did q).st = .off) (hfresh : (s.queue did q).fresh = false) :
    enableQueue s did q = s.modQueue did q fun x =>
      { x with st := stirred s did x.head x.tail, record := none, outst := counted s did q x.head x.tail x.kind } := by
  simp only [enableQueue, hoff, hfresh, ne_eq, not_true_eq_false, if_false, stirQueue_modQueue]
  exact modQueue_congr rfl

/-- A queue that is enabled for the first time since its descriptor was written: its ring is empty (02 R29). -/
theorem enableQueue_of_fresh {s : State} {did q : Nat} (hoff : (s.queue did q).st = .off) (hfresh : (s.queue did q).fresh = true) :
    enableQueue s did q = s.modQueue did q fun x =>
      { x with st := .idle, head := 0, tail := 0, fresh := false, record := none, outst := counted s did q 0 0 x.kind } := by
  simp only [enableQueue, hoff, hfresh, ne_eq, not_true_eq_false, if_false, if_true, stirQueue_modQueue]
  exact modQueue_congr rfl

theorem enableQueue_of_not_off {s : State} {did q : Nat} (hoff : (s.queue did q).st ≠ .off) : enableQueue s did q = s := if_pos hoff

/-! ## TAIL -/

/-- A TAIL that the ring has room for (02 R28). -/
theorem setTail_of_fits {s : State} {did q tail : Nat} (htail : tail < 2 ^ 16)
    (hroom : (tail + 2 ^ 16 - (s.queue did q).head) % 2 ^ 16 ≤ 2 ^ ((s.queue did q).order + 4)) :
    setTail s did q tail = (s.modQueue did q fun x => stirredQueue s did { x with tail := tail }, true) := by
  simp only [setTail, htail, hroom, decide_true, Bool.and_self, if_true, stirQueue_modQueue]

/-- A TAIL that it has no room for (02 R28). -/
theorem setTail_of_overrun {s : State} {did q tail : Nat}
    (hroom : 2 ^ ((s.queue did q).order + 4) < (tail + 2 ^ 16 - (s.queue did q).head) % 2 ^ 16) :
    setTail s did q tail = (s.modQueue did q fun x => { x with errc := 6 }, false) := by
  simp only [setTail, decide_eq_false (Nat.not_le.mpr hroom), Bool.and_false, Bool.false_eq_true, if_false]

/-- A TAIL written by a command to a host queue that is not OFF is checked as a doorbell (02 R27). -/
theorem writeTail_of_on {s : State} {fn did q tail : Nat} (hoff : (s.queue did q).st ≠ .off) (hhost : (s.queue did q).kind = false) :
    writeTail s fn did q tail = setStatus (setTail s did q tail).1 fn (if (setTail s did q tail).2 then 0 else 3) := by
  simp only [writeTail, hoff, hhost, Bool.false_eq_true, if_false]

/-- The target of the doorbell of a queue (02 R28). -/
theorem doorbellTarget_of_slot {s : State} {part slot q did : Nat} (hpart : part < 64) (hslot : slot < 256) (hq : q < 16)
    (hdom : ((domsOf s part).find? fun e => e.2.slot == slot).map (·.1) = some did) :
    doorbellTarget s (part + 1) (0x10000 + 0x40 * (16 * slot + q)) = some (did, q) := by
  obtain ⟨e, hfind, rfl⟩ := Option.map_eq_some_iff.mp hdom
  have hn : (0x10000 + 0x40 * (16 * slot + q) - 0x10000) / 0x40 = 16 * slot + q := by omega
  have hslotOf : (16 * slot + q) / 16 = slot := by omega
  have hqOf : (16 * slot + q) % 16 = q := by omega
  have hrange : ¬ (part + 1 = 0 ∨ 64 < part + 1 ∨ 0x10000 + 0x40 * (16 * slot + q) < 0x10000 ∨
      (0x10000 + 0x40 * (16 * slot + q)) % 0x40 ≠ 0 ∨ 4096 ≤ 16 * slot + q) := by omega
  simp only [doorbellTarget, hn, hrange, if_false, Nat.add_sub_cancel, hslotOf, hqOf, hfind, Option.map_some]

/-! ## The descriptor -/

/-- A descriptor whose fields are as their tables require (02 R27). -/
theorem queueBad_eq_false_iff (a b : Nat) : queueBad a b = false ↔
    a.testBit 57 = false ∧ bits a 7 0 = 0 ∧ bits b 59 56 = 0 ∧ bits b 63 60 ≤ 11 ∧ (a.testBit 62 = true ↔ bits b 55 40 ≠ 0) := by
  cases hkind : a.testBit 62 <;> by_cases hquota : bits b 55 40 = 0 <;> simp [queueBad, and_assoc, hkind, hquota]

/-- A written descriptor whose fixed fields are those that stand. -/
theorem queueFields_eq_iff (x : Queue) (a b : Nat) : queueFields a b = (x.kind, x.qpri, x.base, x.order, x.quota) ↔
    a.testBit 62 = x.kind ∧ bits a 61 58 = x.qpri ∧ bits a 56 0 = x.base ∧ bits b 63 60 = x.order ∧ bits b 55 40 = x.quota := by
  simp [queueFields]

/-- The queue that a descriptor written while it is OFF leaves; it is fresh, unless the write enables it and changes no fixed field. -/
def described (x : Queue) (a b : Nat) : Queue :=
  { x with kind := a.testBit 62, qpri := bits a 61 58, base := bits a 56 0, order := bits b 63 60, quota := bits b 55 40,
           tail := bits b 15 0, errc := if bits b 39 32 = 0 then x.errc else 0,
           fresh := x.fresh || !(a.testBit 63 && queueFields a b == (x.kind, x.qpri, x.base, x.order, x.quota)) }

/-- A descriptor written while its queue is OFF. -/
theorem writeQueue_of_off {s : State} {fn did q a b : Nat} (hoff : (s.queue did q).st = .off) :
    writeQueue s fn did q a b = setStatus (if a.testBit 63 then enableQueue (s.modQueue did q fun x => described x a b) did q
      else s.modQueue did q fun x => described x a b) fn 0 := by
  by_cases hclear : bits b 39 32 = 0
  · simp only [writeQueue, hoff, hclear, if_true, described]
    rfl
  · simp only [writeQueue, hoff, hclear, if_true, if_false, modQueue_modQueue, described]
    rfl

end Sys2Proof.Queues
end

section
/-! The commands on a queue (02 R27 to R29). -/

namespace Sys2Proof.Queues

open Sys2Proof.Machine Sys2Proof.Claims

/-! ## A descriptor written while its queue is OFF -/

/-- A descriptor write that is refused neither for the queue's state nor for its fields. -/
theorem leads_descriptorWrite {s : State} {fn did q : Nat} {w0 w1 : Bits64} {p : State → Prop} (htaken : QueueTaken s fn did q)
    (hfixed : queueFixed (s.queue did q) w0.toNat w1.toNat = false) (hbad : queueBad w0.toNat w1.toNat = false)
    (hp : p (writeQueue s fn did q w0.toNat w1.toNat)) :
    Leads .queueDescriptorWrite (.queueDescriptorWrite fn did q w0 w1) s p :=
  leads_queueCommand exec_queueDescriptorWrite htaken (by simp [hfixed, hbad]) hp

/-- While a queue is OFF every field may change. -/
theorem queueFixed_of_off {x : Queue} (hoff : x.st = .off) (a b : Nat) : queueFixed x a b = false := by
  simp [queueFixed, hoff]

/-- A descriptor write that does not enable its queue leaves it fresh and OFF. -/
theorem descriptorWrite_off {s : State} {fn did q : Nat} {w0 w1 : Bits64} (htaken : QueueTaken s fn did q)
    (hoff : (s.queue did q).st = .off) (hbad : queueBad w0.toNat w1.toNat = false) (hen : w0.toNat.testBit 63 = false) :
    Leads .queueDescriptorWrite (.queueDescriptorWrite fn did q w0 w1) s fun t =>
      QueueBecomes s t fn did q { described (s.queue did q) w0.toNat w1.toNat with fresh := true } := by
  refine leads_descriptorWrite htaken (queueFixed_of_off hoff _ _) hbad ?_
  rw [writeQueue_of_off hoff, if_neg (Bool.eq_false_iff.mp hen)]
  exact queueBecomes_modQueue (by simp [described, hen])

/-- A write that enables its queue and changes no fixed field enables it with its ring as it stands (log 32). -/
theorem descriptorWrite_enable {s : State} {fn did q : Nat} {w0 w1 : Bits64} (htaken : QueueTaken s fn did q)
    (hoff : (s.queue did q).st = .off) (hbad : queueBad w0.toNat w1.toNat = false) (hen : w0.toNat.testBit 63 = true)
    (hsame : queueFields w0.toNat w1.toNat =
      ((s.queue did q).kind, (s.queue did q).qpri, (s.queue did q).base, (s.queue did q).order, (s.queue did q).quota))
    (hfresh : (s.queue did q).fresh = false) :
    Leads .queueDescriptorWrite (.queueDescriptorWrite fn did q w0 w1) s fun t =>
      let y := described (s.queue did q) w0.toNat w1.toNat
      QueueBecomes s t fn did q { y with fresh := false, st := stirred s did y.head y.tail, record := none,
                                         outst := counted s did q y.head y.tail y.kind } := by
  refine leads_descriptorWrite htaken (queueFixed_of_off hoff _ _) hbad ?_
  have hkept : (described (s.queue did q) w0.toNat w1.toNat).fresh = false := by simp [described, hen, hsame, hfresh]
  rw [writeQueue_of_off hoff, if_pos hen, enableQueue_of_off (by simpa [described] using hoff) (by simpa using hkept),
    modQueue_modQueue]
  refine queueBecomes_modQueue ?_
  simp only [hkept]
  rfl

/-- A write that enables its queue where a fixed field changes, or has changed since the queue was last enabled, empties the ring. -/
theorem descriptorWrite_enable_fresh {s : State} {fn did q : Nat} {w0 w1 : Bits64} (htaken : QueueTaken s fn did q)
    (hoff : (s.queue did q).st = .off) (hbad : queueBad w0.toNat w1.toNat = false) (hen : w0.toNat.testBit 63 = true)
    (hfresh : queueFields w0.toNat w1.toNat ≠
      ((s.queue did q).kind, (s.queue did q).qpri, (s.queue did q).base, (s.queue did q).order, (s.queue did q).quota) ∨
      (s.queue did q).fresh = true) :
    Leads .queueDescriptorWrite (.queueDescriptorWrite fn did q w0 w1) s fun t =>
      let y := described (s.queue did q) w0.toNat w1.toNat
      QueueBecomes s t fn did q { y with st := .idle, head := 0, tail := 0, fresh := false, record := none,
                                         outst := counted s did q 0 0 y.kind } := by
  refine leads_descriptorWrite htaken (queueFixed_of_off hoff _ _) hbad ?_
  have hset : (described (s.queue did q) w0.toNat w1.toNat).fresh = true := by
    rcases hfresh with hother | hstill <;> simp [described, *]
  rw [writeQueue_of_off hoff, if_pos hen, enableQueue_of_fresh (by simpa [described] using hoff) (by simpa using hset),
    modQueue_modQueue]
  exact queueBecomes_modQueue rfl

/-! ## A descriptor written outside OFF -/

/-- Outside OFF a write that changes a fixed field, or a device queue's TAIL, ends BAD_STATE. -/
theorem descriptorWrite_fixed {s : State} {fn did q : Nat} {w0 w1 : Bits64} (htaken : QueueTaken s fn did q)
    (hfixed : queueFixed (s.queue did q) w0.toNat w1.toNat = true) :
    Leads .queueDescriptorWrite (.queueDescriptorWrite fn did q w0 w1) s fun t => t = setStatus s fn 1 :=
  leads_queueRefused (e := (true, 1)) exec_queueDescriptorWrite htaken (by simp [hfixed]) rfl

/-- What a write outside OFF may not change. -/
theorem queueFixed_iff {x : Queue} (hoff : x.st ≠ .off) (a b : Nat) : queueFixed x a b = true ↔
    queueFields a b ≠ (x.kind, x.qpri, x.base, x.order, x.quota) ∨ (x.kind = true ∧ bits b 15 0 ≠ x.tail) := by
  simp [queueFixed, hoff]

/-- Outside OFF a write that leaves TAIL clears ERRC where it says so, and disables the queue with EN = 0. -/
theorem writeQueue_of_not_off {s : State} {fn did q a b : Nat} (hoff : (s.queue did q).st ≠ .off)
    (htail : bits b 15 0 = (s.queue did q).tail) :
    QueueBecomes s (writeQueue s fn did q a b) fn did q
      (let y := { s.queue did q with errc := if bits b 39 32 = 0 then (s.queue did q).errc else 0 }
       if a.testBit 63 then y else { y with st := .off, record := none, waitGen := none }) := by
  by_cases hclear : bits b 39 32 = 0 <;> cases hen : a.testBit 63 <;>
    simp only [writeQueue, hoff, htail, hclear, hen, if_true, if_false, Bool.not_true, Bool.false_eq_true, disableQueue, modQueue_modQueue]
  · exact queueBecomes_modQueue rfl
  · exact queueBecomes_self s fn did q
  · exact queueBecomes_modQueue rfl
  · exact queueBecomes_modQueue rfl

theorem queueRewrites (s : State) (fn did q : Nat) : QueueRewrites s fn did q (s.queue did q) := by
  intro w0 w1 htaken hoff
  refine ⟨fun hchange => descriptorWrite_fixed htaken ?_, fun hsame hgood htail => ?_⟩
  · rwa [queueFixed_iff hoff, ne_eq, queueFields_eq_iff]
  · have hfixed : queueFixed (s.queue did q) w0.toNat w1.toNat = false := by
      rw [Bool.eq_false_iff, ne_eq, queueFixed_iff hoff, ne_eq, queueFields_eq_iff]
      simp [hsame, htail]
    exact leads_descriptorWrite htaken hfixed ((queueBad_eq_false_iff _ _).mpr hgood) (writeQueue_of_not_off hoff htail)

/-! ## TAIL and SKIP -/

/-- A new TAIL changes its queue alone. -/
theorem setTail_frame (s : State) (did q tail : Nat) :
    (setTail s did q tail).1.work = s.work ∧ (setTail s did q tail).1.core = s.core ∧ (setTail s did q tail).1.mem = s.mem ∧
    (setTail s did q tail).1.sys = s.sys := by
  simp only [setTail, stirQueue_modQueue]
  split <;> exact ⟨rfl, rfl, rfl, rfl⟩

/-- A TAIL written by a command, in each state of its queue (02 R27, R28). -/
theorem writeTail_cases (s : State) (fn did q tail : Nat) :
    let x := s.queue did q
    let t := writeTail s fn did q tail
    (x.st = .off → tail < 2 ^ 16 → QueueBecomes s t fn did q { x with tail := tail }) ∧
    (x.st = .off → 2 ^ 16 ≤ tail → t = setStatus s fn 3) ∧ (x.st ≠ .off → x.kind = true → t = setStatus s fn 1) ∧
    (x.st ≠ .off → x.kind = false → tail < 2 ^ 16 → (tail + 2 ^ 16 - x.head) % 2 ^ 16 ≤ 2 ^ (x.order + 4) →
      QueueBecomes s t fn did q (stirredQueue s did { x with tail := tail })) ∧
    (x.st ≠ .off → x.kind = false → tail < 2 ^ 16 → 2 ^ (x.order + 4) < (tail + 2 ^ 16 - x.head) % 2 ^ 16 →
      t.queue did q = { x with errc := 6 } ∧ tget t.sys.status fn = some 3) := by
  intro x t
  refine ⟨fun hoff htail => ?_, fun hoff htail => ?_, fun hoff hdev => ?_, fun hoff hhost htail hroom => ?_, fun hoff hhost _ hroom => ?_⟩
  · have ht : t = setStatus (s.modQueue did q fun x => { x with tail := tail }) fn 0 :=
      (if_pos hoff).trans (if_neg (Nat.not_le.mpr htail))
    exact ht ▸ queueBecomes_modQueue rfl
  · exact (if_pos hoff).trans (if_pos htail)
  · exact (if_neg hoff).trans (if_pos hdev)
  · have ht : t = setStatus (s.modQueue did q fun x => stirredQueue s did { x with tail := tail }) fn 0 :=
      (writeTail_of_on hoff hhost).trans (by rw [setTail_of_fits htail hroom, if_pos rfl])
    exact ht ▸ queueBecomes_modQueue rfl
  · have ht : t = setStatus (s.modQueue did q fun x => { x with errc := 6 }) fn 3 :=
      (writeTail_of_on hoff hhost).trans (by rw [setTail_of_overrun hroom, if_neg Bool.false_ne_true])
    exact ht ▸ ⟨queue_modQueue_same s did q fun x => { x with errc := 6 }, Context.status_setStatus _ _ _⟩

/-- The queue after SKIP. -/
theorem skipRecord_eq (s : State) (did q : Nat) : skipRecord s did q = s.modQueue did q fun x =>
    { x with head := (x.head + 1) % 2 ^ 16, errc := 0, record := none, waitGen := none, outst := if x.kind then x.outst - 1 else x.outst,
             st := stirred s did ((x.head + 1) % 2 ^ 16) x.tail } :=
  (stirQueue_modQueue s did q _).trans (modQueue_congr rfl)

/-! ## The statement -/

theorem queueCommands : Claims.QueueCommands := by
  intro s fn did q x
  refine ⟨fun w0 w1 htaken hoff => ?_, queueRewrites s fn did q, fun htaken hoff hfresh => ?_, fun htaken hoff => ?_, fun htaken => ?_,
    fun b htaken hb hb0 => ?_, fun tail htaken => ?_, fun htaken herror => ?_, fun part slot tail hpart hslot hq hdom hev hup => ?_⟩
  · intro a b y good
    have hbad : queueBad a b = false ↔ good := queueBad_eq_false_iff a b
    refine ⟨fun hgood => ?_, fun hgood hen => ?_, fun hgood hen hsame hfresh => ?_, fun hgood hen hfresh => ?_⟩
    · refine leads_queueRefused (e := (true, 3)) exec_queueDescriptorWrite htaken ?_ rfl
      simp [queueFixed_of_off (x := s.queue did q) hoff, show queueBad w0.toNat w1.toNat = true from eq_true_of_ne_false (mt hbad.mp hgood)]
    · exact descriptorWrite_off htaken hoff (hbad.mpr hgood) hen
    · have hkind : y.kind = x.kind := hsame.1
      refine Context.leads_imp (descriptorWrite_enable htaken hoff (hbad.mpr hgood) hen ((queueFields_eq_iff x a b).mpr hsame) hfresh) ?_
      intro t ht
      rw [← hkind]
      exact ht
    · refine Context.leads_imp (descriptorWrite_enable_fresh htaken hoff (hbad.mpr hgood) hen
        (hfresh.imp_left fun h => mt (queueFields_eq_iff x a b).mp h)) ?_
      exact fun t ht => ⟨_, ht, rfl, rfl, rfl, rfl, rfl, rfl, rfl, rfl, rfl, rfl⟩
  · refine leads_queueCommand exec_queueEnable htaken (List.forall_mem_nil _) ?_
    rw [enableQueue_of_off hoff hfresh]
    exact queueBecomes_modQueue rfl
  · refine leads_queueCommand exec_queueEnable htaken (List.forall_mem_nil _) ?_
    rw [enableQueue_of_not_off hoff]
  · exact leads_queueCommand exec_queueDisable htaken (List.forall_mem_nil _) (queueBecomes_modQueue rfl)
  · refine leads_queueCommand exec_errcClear htaken (by simpa using hb) ?_
    rw [if_neg hb0]
    exact queueBecomes_modQueue rfl
  · exact leads_queueCommand exec_queueTailWrite htaken (List.forall_mem_nil _) (writeTail_cases s fn did q tail)
  · refine leads_queueCommand exec_skip htaken (by simpa using herror) ?_
    rw [skipRecord_eq]
    exact queueBecomes_modQueue rfl
  · have hexec := exec_doorbell hev hup (doorbellTarget_of_slot hpart hslot hq hdom)
    by_cases hkind : x.kind = true
    · rw [if_pos hkind] at hexec
      exact ⟨s, hexec, fun _ => rfl, fun hhost => absurd hkind (by simp [hhost]), fun hhost => absurd hkind (by simp [hhost]),
        rfl, rfl, rfl, rfl⟩
    · rw [if_neg hkind] at hexec
      refine ⟨_, hexec, fun hdev => absurd hdev hkind, fun _ htail hroom => ?_, fun _ _ hroom => ?_, setTail_frame s did q tail⟩
      · rw [setTail_of_fits htail hroom]
        exact queue_modQueue_same s did q fun x => stirredQueue s did { x with tail := tail }
      · rw [setTail_of_overrun hroom]
        exact queue_modQueue_same s did q fun x => { x with errc := 6 }

end Sys2Proof.Queues
end

section
/-! The distributor: records as they are read, the queue whose turn it is, what a dispatch leaves (02 R29 to R33), and the statement. -/

namespace Sys2Proof.Queues

open Sys2Proof.Machine Sys2Proof.Claims

/-! ## Records -/

theorem exec_queueRecordRead {s : State} {did q : Nat} (hev : s.ctl.ev = some (.queueRecordRead did q)) (hup : s.sys.up = true)
    (hdid : did < 256) (hq : q < 16) : exec .queueRecordRead s = .next (readRecord s did q) := by
  change execQueueRecordRead s = _
  simp only [execQueueRecordRead, hev, whenUp, hup, if_true, hdid, hq, and_self]

theorem exec_waitphTurnNotify {s : State} {did q : Nat} (hev : s.ctl.ev = some (.waitphTurnNotify did q)) (hup : s.sys.up = true) :
    exec .waitphTurnNotify s = .next (readyQueue s did q) := by
  change execWaitphTurnNotify s = _
  simp only [execWaitphTurnNotify, hev, whenUp, hup, if_true]

/-- A record whose version is not 1 fails the first check (02 R32). -/
theorem recordCheck_version {w : Nat} (h : bits w 7 0 ≠ 1) (s : State) (did : Nat) : recordCheck s did w = some 1 := by
  have hbad : recordBad s (s.dom did).part w = true := by simp [recordBad, h]
  exact if_pos hbad

/-- The queue with the record that has been read, which waits on no phaser. -/
def recordedQueue (x : Queue) (bs : Bytes) : Queue := { x with hash := leVal (sha384 bs), record := some (launchFields (leVal bs)) }

/-- What becomes of the bytes at HEAD: a code of ERROR, or a record that is kept (02 R29, R30). -/
theorem readRecord_of_read {s s1 : State} {did q : Nat} {bs : Bytes} {ts : Ts}
    (hst : (s.queue did q).st = .idle ∨ (s.queue did q).st = .waiting) (hring : (s.queue did q).head ≠ (s.queue did q).tail)
    (hnone : (s.queue did q).record = none) (hpage : pageWaits s (queueWaiter did q) = false) (hlive : (s.dom did).st = .live)
    (hread : distRead (s.modQueue did q fun x => { x with st := .waiting }) did
      ((s.queue did q).base + 256 * ((s.queue did q).head % 2 ^ ((s.queue did q).order + 4))) 256 (queueWaiter did q) = .ok bs ts s1) :
    (∀ code, recordCheck s1 did (leVal bs) = some code → readRecord s did q = queueError s1 did q code) ∧
    (recordCheck s1 did (leVal bs) = none → (launchFields (leVal bs)).wt = false →
      readRecord s did q = readyQueue (s1.modQueue did q fun x => recordedQueue x bs) did q) := by
  have hread' : ¬ (((s.queue did q).st ≠ .idle ∧ (s.queue did q).st ≠ .waiting) ∨ (s.queue did q).head = (s.queue did q).tail ∨
      (s.queue did q).record.isSome = true ∨ pageWaits s (queueWaiter did q) = true) := by
    rcases hst with h | h <;> simp [h, hring, hnone, hpage]
  refine ⟨fun code hcode => ?_, fun hpass hwt => ?_⟩
  · simp only [readRecord, hread', hlive, hread, hcode, if_false, ne_eq, not_true_eq_false]
  · simp only [readRecord, hread', hlive, hread, hpass, hwt, if_false, ne_eq, not_true_eq_false, Bool.false_eq_true, modQueue_modQueue]
    rfl

/-- A WAITING queue whose record waits on no phaser is READY once every team of the grid before has been placed (02 R29). -/
theorem readyQueue_of_no_wait {s : State} {did q : Nat} {r : Launch} (hst : (s.queue did q).st = .waiting)
    (hrec : (s.queue did q).record = some r) (hwt : r.wt = false) :
    readyQueue s did q = if lastPlaced s (s.queue did q) then s.modQueue did q fun x => { x with st := .ready } else s := by
  simp only [readyQueue, hrec, hst, hwt, Bool.not_false, Bool.true_or, true_and]

/-- A WAITING queue whose record waits on a phaser is READY once that has turned as well (02 R33). -/
theorem readyQueue_of_wait {s : State} {did q a m : Nat} {r : Launch} (hst : (s.queue did q).st = .waiting)
    (hrec : (s.queue did q).record = some r) (hwt : r.wt = true) (hgen : (s.queue did q).waitGen = some (a, m)) :
    readyQueue s did q =
      if m ≠ 0 ∧ lastPlaced s (s.queue did q) = true then s.modQueue did q fun x => { x with st := .ready } else s := by
  simp only [readyQueue, hrec, hst, hwt, hgen, Bool.not_true, Bool.false_or, true_and, bne_iff_ne]

/-! ## Turns (02 R31) -/

/-- The element chosen is one of the list. -/
theorem mem_of_leastBy {α : Type} {key : α → Nat} {l : List α} {x : α} (h : leastBy key l = some x) : x ∈ l := by
  induction l generalizing x with
  | nil => cases h
  | cons y ys ih =>
    simp only [leastBy] at h
    split at h
    · simp_all
    · next z hz =>
      split at h
      · cases h; exact List.mem_cons_of_mem _ (ih hz)
      · cases h; exact List.mem_cons_self

/-- The greatest of a number and a list is at least each of them. -/
theorem le_foldl_max {l : List Nat} {n a : Nat} (h : n ≤ a ∨ n ∈ l) : n ≤ l.foldl max a := by
  induction l generalizing a with
  | nil => simpa using h
  | cons b r ih =>
    refine ih ?_
    rcases h with h | h
    · exact .inl (Nat.le_trans h (Nat.le_max_left a b))
    · rcases List.mem_cons.mp h with rfl | h
      · exact .inl (Nat.le_max_right a n)
      · exact .inr h

/-- The queue whose turn it is has the highest priority of those that are ready. -/
theorem qpri_le_of_turnQueue {s : State} {did q : Nat} (h : turnQueue s did = some q) :
    ∀ p ∈ readyQueues s did, (s.queue did p).qpri ≤ (s.queue did q).qpri := by
  intro p hp
  have htop := (List.mem_filter.mp (mem_of_leastBy h)).2
  rw [beq_iff_eq.mp htop]
  exact le_foldl_max (.inr (List.mem_map.mpr ⟨p, hp, rfl⟩))

/-! ## Dispatch (02 R31) -/

theorem exec_recordDispatch {s : State} {part did q : Nat} (hev : s.ctl.ev = some (.recordDispatch part)) (hup : s.sys.up = true)
    (hdom : turnDomain s part = some did) (hqueue : turnQueue s did = some q) :
    exec .recordDispatch s = .next (dispatchFrom s part did q) := by
  change execRecordDispatch s = _
  simp only [execRecordDispatch, hev, whenUp, hup, if_true, hdom, hqueue]

/-- A queue whose record has been dispatched as the grid of a number: HEAD advances, and the queue goes on. -/
def dispatchedQueue (s : State) (did id : Nat) (x : Queue) : Queue :=
  stirredQueue s did { x with head := (x.head + 1) % 2 ^ 16, record := none, waitGen := none, lastGrid := some id, st := .idle }

/-- The state that a dispatch leaves, from the state that the read of the constants left. -/
def dispatched (s1 : State) (part did q qpri : Nat) (g : Grid) : State :=
  let s2 := s1.fresh.2.setWork { s1.work with grids := tset s1.work.grids s1.ctl.nextId g }
  noteLinks (((s2.modQueue did q (dispatchedQueue s1 did s1.ctl.nextId)).modDom did fun d =>
    { d with rrQueue := tset d.rrQueue qpri q }).modPart part fun p => { p with rrDom := did })

/-- A dispatch whose constants have been read makes a grid of the record, with nothing placed yet. -/
theorem dispatchFrom_of_read {s s1 : State} {part did q : Nat} {r : Launch} {bs : Bytes} {ts : Ts}
    (hrec : (s.queue did q).record = some r)
    (hread : distReadRun s did (queueWaiter did q) (r.csize / 16 + 2) r.const (16 * r.csize) = .ok bs ts s1) :
    ∃ g, dispatchFrom s part did q = dispatched s1 part did q (s.queue did q).qpri g ∧ g.did = did ∧ g.part = part ∧ g.queue = q ∧
      g.index = (s.queue did q).head ∧ g.launch = r ∧ g.consts = bs ∧ g.next = 0 ∧ g.retired = 0 ∧ g.hash = (s.queue did q).hash ∧
      g.done = false := by
  simp only [dispatchFrom, hrec, hread, stirQueue_modQueue]
  exact ⟨_, rfl, rfl, rfl, rfl, rfl, rfl, rfl, rfl, rfl, rfl, rfl⟩

/-- A table changed by a function of its entries. -/
theorem tget_map_entry {β γ : Type} (t : Tab β) (f : Nat × β → γ) (k : Nat) :
    tget (t.map fun e => (e.1, f e)) k = (tget t k).map fun v => f (k, v) := tget_map t (fun k v => f (k, v)) k

/-- Noting the peer links changes nothing of a grid but the links that it has seen. -/
theorem noteLinks_grid {s : State} {id : Nat} {g : Grid} (h : s.grid id = some g) : ∃ l, (noteLinks s).grid id = some { g with links := l } := by
  have hmap : (noteLinks s).grid id = _ := (tget_map_entry s.work.grids _ id).trans (congrArg (Option.map _) h)
  by_cases hover : g.done = true ∨ g.stage ≠ 0
  · exact ⟨g.links, hmap.trans (congrArg some (if_pos hover))⟩
  · exact ⟨_, hmap.trans (congrArg some (if_neg hover))⟩

/-- What keeps the administration keeps every queue. -/
theorem queue_of_adminKept {s t : State} (h : AdminKept s t) (did q : Nat) : t.queue did q = s.queue did q := by
  obtain ⟨-, hqueues, -⟩ := h
  simp only [State.queue, hqueues]

/-- It keeps every domain. -/
theorem dom_of_adminKept {s t : State} (h : AdminKept s t) (did : Nat) : t.dom did = s.dom did := by
  obtain ⟨hdoms, -, -⟩ := h
  simp only [State.dom, hdoms]

/-! ## The statement -/

/-- A dispatch whose constants have been read: the grid, its queue, the turns, and the teams and groups, which stand. -/
theorem dispatched_fields {s s1 : State} {part did q qpri : Nat} {g : Grid} (hkept : AdminKept s s1) (hwork : s1.work = s.work) :
    let t := dispatched s1 part did q qpri g
    (∃ l, t.grid s1.ctl.nextId = some { g with links := l }) ∧
    t.queue did q = dispatchedQueue s did s1.ctl.nextId (s.queue did q) ∧ tget (t.dom did).rrQueue qpri = some q ∧
    (t.part part).rrDom = did ∧ t.work.groups = s.work.groups ∧ t.work.teams = s.work.teams := by
  refine ⟨noteLinks_grid (tget_tset_same _ _ g), ?_, ?_, ?_, ?_, ?_⟩
  · have hqueue : (dispatched s1 part did q qpri g).queue did q = dispatchedQueue s1 did s1.ctl.nextId (s1.queue did q) :=
      queue_modQueue_same _ did q _
    rw [hqueue, queue_of_adminKept hkept]
    simp only [dispatchedQueue, stirredQueue, stirred, dom_of_adminKept hkept]
  · have hdom : (dispatched s1 part did q qpri g).dom did = { s1.dom did with rrQueue := tset (s1.dom did).rrQueue qpri q } :=
      Context.dom_modDom_same _ did fun d => { d with rrQueue := tset d.rrQueue qpri q }
    rw [hdom]
    exact tget_tset_same _ _ _
  · have hpart : (dispatched s1 part did q qpri g).part part = { s1.part part with rrDom := did } :=
      Context.part_modPart_same _ part fun p => { p with rrDom := did }
    rw [hpart]
  · exact (rfl : _ = s1.work.groups).trans (congrArg Work.groups hwork)
  · exact (rfl : _ = s1.work.teams).trans (congrArg Work.teams hwork)

theorem dispatching : Claims.Dispatching := by
  intro s did q hdid hq x s0
  refine ⟨fun bs ts s1 hst hring hnone hpage hlive hread hqueues hev hup => ?_, fun w hw => recordCheck_version hw s did,
    fun r a m hst hrec hwt hgen hev hup => ?_, fun part r bs ts s1 hdom hqueue hrec hread hkept hwork hlive => ⟨?_, fun hev hup => ?_⟩⟩
  · obtain ⟨hcode, hpass⟩ := readRecord_of_read hst hring hnone hpage hlive hread
    have hx : s1.queue did q = { x with st := .waiting } :=
      (congrArg (fun t => (tget t (did * 16 + q)).getD Queue.unwritten) hqueues).trans (queue_modQueue_same s did q _)
    refine ⟨_, exec_queueRecordRead hev hup hdid hq, fun code hc => ?_, fun hp hwt => ?_⟩
    · rw [hcode code hc, queueError, queue_modQueue_same, hx]
    · have hnow : (s1.modQueue did q fun x => recordedQueue x bs).queue did q = recordedQueue { x with st := .waiting } bs := by
        rw [queue_modQueue_same, hx]
      have hlast : lastPlaced (s1.modQueue did q fun x => recordedQueue x bs) (recordedQueue { x with st := .waiting } bs) =
          lastPlaced s1 x := rfl
      rw [hpass hp hwt, readyQueue_of_no_wait (by rw [hnow]; rfl) (by rw [hnow]; rfl) hwt, hnow, hlast]
      by_cases hplaced : lastPlaced s1 x = true
      · simp only [hplaced, if_true, modQueue_modQueue, queue_modQueue_same, recordedQueue, hx, and_self]
      · simp only [hplaced, Bool.false_eq_true, if_false, queue_modQueue_same, recordedQueue, hx, and_self]
  · refine ⟨_, exec_waitphTurnNotify hev hup, ?_⟩
    rw [readyQueue_of_wait hst hrec hwt hgen]
    refine ⟨fun hm hplaced => ?_, fun hstay => if_neg ?_⟩
    · rw [if_pos ⟨hm, hplaced⟩, queue_modQueue_same]
    · rintro ⟨hm, hplaced⟩
      rcases hstay with h | h
      · exact hm h
      · exact absurd hplaced (Bool.eq_false_iff.mp h)
  · exact qpri_le_of_turnQueue hqueue
  · obtain ⟨g, hstate, hdid, hpart, hqueueOf, hindex, hlaunch, hconsts, hnext, hretired, hhash, hdone⟩ :=
      dispatchFrom_of_read (part := part) hrec hread
    obtain ⟨⟨l, hgrid⟩, hadvance, hturn, hround, hgroups, hteams⟩ :=
      dispatched_fields (part := part) (q := q) (did := did) (qpri := x.qpri) (g := g) hkept hwork
    exact ⟨_, (exec_recordDispatch hev hup hdom hqueue).trans (congrArg _ hstate), _, _, hgrid, hdid, hpart, hqueueOf, hindex, hlaunch,
      hconsts, hnext, hretired, hhash, hdone, hadvance, hturn, hround, hgroups, hteams⟩

/-- Settles O35: each operation on a queue changes that queue alone, so that it is said as a change of one queue; a dispatch is said from
the state that the read of its constants left. -/
theorem queuesAndDispatch : Obligations.QueuesAndDispatch := ⟨queueCommands, dispatching⟩

end Sys2Proof.Queues
end

section
/-! A statement about the ends of grids that fails, with the state in which the model does otherwise. -/

namespace Sys2Proof.Queues

open Sys2Proof.Machine Sys2Proof.Claims

/-- The bytes of a number are as many as asked for. -/
@[simp] theorem length_leOf (n w : Nat) : (leOf n w).length = n := by
  induction n generalizing w with
  | zero => rfl
  | succ n ih => simp [leOf, ih]

/-- A snapshot record that host memory does not take yet stays on its way (14 R214, 07 R106). -/
theorem exec_snapshotComplete_held {s : State} {did : Nat} {x : Snap} {r : List Snap} (hev : s.ctl.ev = some (.snapshotComplete did))
    (hup : s.sys.up = true) (hsnaps : (s.dom did).snaps = x :: r) (hheld : hostPutHolds s x.addr 512 = true) :
    exec .snapshotComplete s = .next s := by
  change execSnapshotComplete s = _
  simp only [execSnapshotComplete, hev, whenUp, hup, hsnaps, signedRecord, length_leOf, hheld, if_true]

/-- A snapshot of domain 1 that is to be written at host address 64. -/
def pendingSnap : Snap := { fn := 1, nonce := 5, addr := 64, final := false, pieces := [] }

/-- A line of host memory at address 0, leased up to the last timestamp of its epoch. -/
def lastLease : Line :=
  { v := true, pa := 0, wts := 0, rts := 2 ^ 40 - 1, cls := 2, key := noKey, h := false, ep := false, snooped := false, dirty := 0,
    data := List.replicate 256 0#8, used := 0, mesi := [1, 1, 1, 1], poison := 0 }

/-- The device with one LIVE domain whose snapshot is due to be written, while the bridge holds the line that it is to go to under the
last lease. -/
def awaitingRebase : State :=
  let s := State.reset.setDom 1 { Dom.fresh with st := .live, snaps := [pendingSnap] }
  let s1 := s.setMem { s.mem with bridge := { Bridge.reset with lines := [(0, lastLease)] } }
  (s1.setSys { s1.sys with up := true }).setCtl { s1.ctl with ev := some (.snapshotComplete 1) }

/-- Dropping the line would take the host clock past the last timestamp, so that the write waits for the rebase. -/
theorem hostPutHolds_awaitingRebase : hostPutHolds awaitingRebase pendingSnap.addr 512 = true := by decide +kernel

/-- Refutes O40: no hypothesis says that host memory takes the snapshot's record now. Where the bridge holds a line of the record under a
lease that ends with the last timestamp, SNAPSHOT_COMPLETE waits for the rebase (07 R106), and the snapshot stays on its way. -/
theorem not_gridEnds : ¬ Obligations.GridEnds := by
  unfold Obligations.GridEnds
  intro h
  obtain ⟨-, -, -, -, hsnapshot, -⟩ := h awaitingRebase
  obtain ⟨t, hstep, hgone, -⟩ := hsnapshot 1 pendingSnap [] rfl rfl rfl
  have hstays : Answers .snapshotComplete awaitingRebase awaitingRebase :=
    exec_snapshotComplete_held rfl rfl rfl hostPutHolds_awaitingRebase
  have hsame : t = awaitingRebase := Host.Outcome.next.inj (hstep.symm.trans hstays)
  subst hsame
  exact absurd hgone (by decide +kernel)

end Sys2Proof.Queues
end

section
/-! SUPPORT. Injection: how many beats the buckets of a partition hold the tokens of, and what leaves its queue (05 R73, 08 R129). -/

namespace Sys2Proof.Issue

open Sys2Proof.Machine Sys2Proof.Claims Sys2Proof.Context

/-! ## Beats and their tokens -/

/-- One bucket's limit on a number of beats: a rate of 0 is none, and else their tokens are there. -/
theorem le_limit_iff {rate held one n k : Nat} (hk : k ≤ n) :
    (k ≤ if rate = 0 ∨ one = 0 then n else held / one) ↔ rate = 0 ∨ k * one ≤ held := by
  split
  · next h =>
    refine iff_of_true hk ?_
    obtain hrate | hone := h
    · exact .inl hrate
    · exact .inr (by simp [hone])
  · next h =>
    obtain ⟨hrate, hone⟩ := not_or.mp h
    simp [hrate, Nat.le_div_iff_mul_le (Nat.pos_of_ne_zero hone)]

/-- The beats that the buckets hold the tokens of are those of the number asked for that they afford. -/
theorem le_beatsHeld_iff {s : State} {core part n k : Nat} {cost : Nat × Nat × Nat} :
    k ≤ beatsHeld s core part cost n ↔ k ≤ n ∧ Affords s core part (costOf cost k) := by
  simp only [beatsHeld, Nat.le_min, Affords, costOf]
  exact and_congr_right fun hk => by rw [le_limit_iff hk, le_limit_iff hk, le_limit_iff hk]

/-- Buckets that afford some beats afford fewer. -/
theorem affords_mono {s : State} {core part a b : Nat} {cost : Nat × Nat × Nat} (hab : a ≤ b)
    (hb : Affords s core part (costOf cost b)) : Affords s core part (costOf cost a) :=
  (le_beatsHeld_iff.mp (Nat.le_trans hab (le_beatsHeld_iff.mpr ⟨Nat.le_refl b, hb⟩))).2

/-- All the beats asked for are held where they are afforded. -/
theorem beatsHeld_of_affords {s : State} {core part n : Nat} {cost : Nat × Nat × Nat} (h : Affords s core part (costOf cost n)) :
    beatsHeld s core part cost n = n :=
  Nat.le_antisymm (le_beatsHeld_iff.mp (Nat.le_refl _)).1 (le_beatsHeld_iff.mpr ⟨Nat.le_refl n, h⟩)

/-- Where not all are afforded, the beats held are the most that are, and fewer than asked for. -/
theorem beatsHeld_of_short {s : State} {core part n k : Nat} {cost : Nat × Nat × Nat} (hn : ¬ Affords s core part (costOf cost n))
    (hk : Affords s core part (costOf cost k)) (hmax : ¬ Affords s core part (costOf cost (k + 1))) :
    beatsHeld s core part cost n = k ∧ k < n := by
  have hlt : k < n := Nat.lt_of_not_le fun h => hn (affords_mono h hk)
  have hle : beatsHeld s core part cost n ≤ k := Nat.le_of_not_lt fun h => hmax (le_beatsHeld_iff.mp h).2
  exact ⟨Nat.le_antisymm hle (le_beatsHeld_iff.mpr ⟨Nat.le_of_lt hlt, hk⟩), hlt⟩

/-- No beats cost nothing. -/
theorem affords_none (s : State) (core part : Nat) (cost : Nat × Nat × Nat) : Affords s core part (costOf cost 0) := by
  simp [Affords, costOf]

/-- A renewal waits on no bucket, so that a request that waits renews no lease. -/
theorem renew_of_not_affords {s : State} {core part n : Nat} {q : Req} (h : ¬ Affords s core part (costOf q.beatCost n)) :
    q.renew = none := by
  cases hrenew : q.renew with
  | none => rfl
  | some ts => exact absurd (by simp [Affords, costOf, Req.beatCost, hrenew]) h

/-! ## What injection changes -/

@[simp] theorem req_setReq_same (s : State) (i : Nat) (q : Req) : (s.setReq i q).req i = some q := tget_tset_same _ _ _
theorem req_setReq_ne (s : State) {i j : Nat} (q : Req) (h : j ≠ i) : (s.setReq i q).req j = s.req j := tget_tset_ne _ _ h

theorem injQueue_of_inj {s : State} {core part : Nat} {l : List Nat} (h : tget (s.coreAt core).inj part = some l) :
    injQueue s core part = l := by
  simp [injQueue, h]

/-- A core after tokens are spent. -/
theorem coreAt_spendTokens (s : State) (core part : Nat) (cost : Nat × Nat × Nat) :
    ((spendTokens s core part cost).coreAt core).inj = (s.coreAt core).inj ∧
    tget ((spendTokens s core part cost).coreAt core).buckets part =
      (let b := (tget (s.coreAt core).buckets part).getD ⟨0, 0, 0⟩
       some ⟨b.mem - cost.1, b.peer - cost.2.1, b.host - cost.2.2⟩) := by
  simp [spendTokens, coreAt_modCore]

/-- A core with the injection queue of a partition replaced. -/
def withQueue (part : Nat) (l : List Nat) (c : Core) : Core := { c with inj := tset c.inj part l }

@[simp] theorem withQueue_buckets (part : Nat) (l : List Nat) (c : Core) : (withQueue part l c).buckets = c.buckets := rfl
@[simp] theorem withQueue_inj (part : Nat) (l : List Nat) (c : Core) : tget (withQueue part l c).inj part = some l := tget_tset_same _ _ _

/-- The core that a request is injected from. -/
theorem coreAt_injectReq (s : State) (core part i : Nat) {q : Req} (hrange : q.op.isRange = false) :
    (injectReq s core part i q).coreAt core = withQueue part ((injQueue s core part).filter (· != i)) (s.coreAt core) := by
  simp only [injectReq, hrange, Bool.false_eq_true, if_false]
  exact (coreAt_modCore s core (withQueue part ((injQueue s core part).filter (· != i))) core).trans (if_pos rfl)

/-- The core that a message is injected from. -/
theorem coreAt_injectMsg (s : State) (core part i : Nat) (m : Msg) :
    (injectMsg s core part i m).coreAt core = withQueue part ((injQueue s core part).filter (· != i)) (s.coreAt core) :=
  (coreAt_modCore s core (withQueue part ((injQueue s core part).filter (· != i))) core).trans (if_pos rfl)

/-- A request that is injected stands before the request network, and every other one as it did. -/
theorem injectReq_sends (s : State) (core part i : Nat) {q : Req} (hrange : q.op.isRange = false) :
    let t := injectReq s core part i q
    (∃ x, t.req i = some x ∧ x.stage = .net ∧ x.hops = requestRoute s core q.point) ∧ (∀ j, j ≠ i → t.req j = s.req j) ∧
    t.mem = s.mem ∧ t.work = s.work ∧ t.adm = s.adm := by
  simp only [injectReq, hrange, Bool.false_eq_true, if_false]
  exact ⟨⟨_, req_setReq_same _ _ _, rfl, rfl⟩, fun j hj => req_setReq_ne _ _ hj, rfl, rfl, rfl⟩

/-- A message that is injected stands before its first crossing. -/
theorem injectMsg_sends (s : State) (core part i : Nat) (m : Msg) :
    let t := injectMsg s core part i m
    (∃ x, tget t.fly.msgs i = some x ∧ x.sent = true ∧ x.hops = msgRoute s m) ∧ t.mem = s.mem ∧ t.work = s.work ∧ t.adm = s.adm :=
  ⟨⟨_, tget_tset_same _ _ _, rfl, rfl⟩, rfl, rfl, rfl⟩

/-! ## Renewals that pass (05 R73, 08 R123) -/

/-- A request of such a list, found or not, renews nothing. -/
theorem not_renews {s : State} {l : List Nat} (h : NoRenewal s l) {i : Nat} (hi : i ∈ l) : (s.req i).any (·.renew.isSome) = false := by
  cases hreq : s.req i with
  | none => rfl
  | some q => simp [h i hi q hreq]

/-- A request of a queue renews a lease, and nothing that stands before it is of its group to its ordering point. -/
def mayPass (s : State) (l : List Nat) (i : Nat) : Bool :=
  let place := fun (j : Nat) => (s.req j).map fun q => (q.grp, q.point)
  (s.req i).any (·.renew.isSome) && (l.takeWhile (· != i)).all fun j => place j != place i

/-- Where no request of the queue renews a lease, none passes. -/
theorem passRenewal_of_noRenewal {s : State} {core part : Nat} (h : NoRenewal s (injQueue s core part)) :
    passRenewal s core part = s := by
  have hfind : (injQueue s core part).find? (mayPass s (injQueue s core part)) = none :=
    List.find?_eq_none.mpr fun i hi => by simp [mayPass, not_renews h hi]
  unfold mayPass at hfind
  simp only [passRenewal, hfind]

/-- The first renewal of the queue passes what stands before it, where nothing of that is of its group to its ordering point. -/
theorem passRenewal_of_first {s : State} {core part j : Nat} {a b : List Nat} {p : Req} (hqueue : injQueue s core part = a ++ j :: b)
    (ha : NoRenewal s a) (hj : s.req j = some p) (hrenew : p.renew.isSome = true)
    (hother : ∀ x ∈ a, ∀ y, s.req x = some y → (y.grp, y.point) ≠ (p.grp, p.point)) :
    passRenewal s core part = injectReq s core part j p := by
  have hnot : ∀ x ∈ a, x ≠ j := by
    rintro x hx rfl
    simp [ha x hx p hj] at hrenew
  have hbefore : (a ++ j :: b).takeWhile (· != j) = a := by
    rw [List.takeWhile_append_of_pos (by simpa using hnot), List.takeWhile_cons_of_neg (by simp), List.append_nil]
  have hpasses : mayPass s (a ++ j :: b) j = true := by
    simp only [mayPass, hbefore, hj, Option.any_some, hrenew, Bool.true_and, List.all_eq_true]
    intro x hx
    cases hreq : s.req x with
    | none => simp
    | some y => simpa using hother x hx y hreq
  have hfind : (injQueue s core part).find? (mayPass s (injQueue s core part)) = some j := by
    rw [hqueue, List.find?_append, List.find?_eq_none.mpr fun i hi => by simp [mayPass, not_renews ha hi], Option.none_or,
      List.find?_cons_of_pos hpasses]
  unfold mayPass at hfind
  simp only [passRenewal, hfind, hj]

end Sys2Proof.Issue
end

section
/-! SUPPORT. What a grant of tokens does with the head of an injection queue, and the claim on injection (05 R73). -/

namespace Sys2Proof.Issue

open Sys2Proof.Machine Sys2Proof.Claims Sys2Proof.Context

/-- BEAT_TOKEN_GRANT at a queue that is not empty grants tokens to its head. -/
theorem leads_beatTokenGrant {s : State} {core part i : Nat} {rest : List Nat} {p : State → Prop}
    (hinj : tget (s.coreAt core).inj part = some (i :: rest)) (hp : p (grantTokens s core part)) :
    Leads .beatTokenGrant (.beatTokenGrant core part) s p := by
  intro hev hup
  refine ⟨_, ?_, hp⟩
  change execBeatTokenGrant s = _
  simp only [execBeatTokenGrant, hev, whenUp, hup, if_true, injQueue_of_inj hinj, List.isEmpty_cons, Bool.false_eq_true, if_false]

section
variable {s : State} {core part i : Nat} {rest : List Nat}

/-! ## The head is a request -/

/-- A request all of whose tokens are held is injected. -/
theorem grantTokens_req_all {q : Req} (hqueue : injQueue s core part = i :: rest) (hq : s.req i = some q)
    (hheld : beatsHeld s core part q.beatCost (q.beats - q.paid) = q.beats - q.paid) :
    grantTokens s core part = injectReq (spendTokens s core part (costOf q.beatCost (q.beats - q.paid))) core part i q := by
  simp only [grantTokens, hqueue, hq, hheld, if_true, tokensOf]

/-- A request none of whose tokens is held waits, and a renewal may pass. -/
theorem grantTokens_req_none {q : Req} (hqueue : injQueue s core part = i :: rest) (hq : s.req i = some q)
    (hheld : beatsHeld s core part q.beatCost (q.beats - q.paid) = 0) (hmore : 0 < q.beats - q.paid) :
    grantTokens s core part = passRenewal s core part := by
  simp only [grantTokens, hqueue, hq, hheld, Nat.ne_of_lt hmore, if_true, if_false]

/-- A request some of whose tokens are held takes them, and a renewal may pass. -/
theorem grantTokens_req_some {q : Req} {n : Nat} (hqueue : injQueue s core part = i :: rest) (hq : s.req i = some q)
    (hheld : beatsHeld s core part q.beatCost (q.beats - q.paid) = n) (hn : 0 < n) (hmore : n < q.beats - q.paid) :
    grantTokens s core part =
      passRenewal ((spendTokens s core part (costOf q.beatCost n)).setReq i { q with paid := q.paid + n }) core part := by
  simp only [grantTokens, hqueue, hq, hheld, Nat.ne_of_lt hmore, Nat.ne_of_gt hn, if_false]

/-- Tokens spent from the buckets, with an injection queue that has become this. -/
theorem spent_of_core {t : State} {cost : Nat × Nat × Nat} {l : List Nat} {c : Core}
    (ht : t.coreAt core = c) (hbuckets : c.buckets = ((spendTokens s core part cost).coreAt core).buckets)
    (hinj : tget c.inj part = some l) : Spent s t core part cost l := by
  subst ht
  exact ⟨hbuckets ▸ (coreAt_spendTokens s core part cost).2, hinj⟩

/-- What is left of the queue that the head leaves. -/
theorem queue_without_head (hinj : tget (s.coreAt core).inj part = some (i :: rest)) (cost : Nat × Nat × Nat) :
    (injQueue (spendTokens s core part cost) core part).filter (· != i) = rest.filter (· != i) := by
  have hqueue : injQueue (spendTokens s core part cost) core part = i :: rest :=
    injQueue_of_inj (by rw [(coreAt_spendTokens s core part cost).1, hinj])
  simp [hqueue]

/-- The head leaves its queue with its tokens spent, where the core that injects it has only lost it. -/
theorem spent_of_injected {t : State} {cost : Nat × Nat × Nat} (hinj : tget (s.coreAt core).inj part = some (i :: rest))
    (ht : t.coreAt core = withQueue part ((injQueue (spendTokens s core part cost) core part).filter (· != i))
      ((spendTokens s core part cost).coreAt core)) :
    Spent s t core part cost (rest.filter (· != i)) :=
  spent_of_core ht rfl (by rw [withQueue_inj, queue_without_head hinj])

/-- The head keeps its place with its tokens spent, where the core has only spent them. -/
theorem spent_of_waiting {t : State} {cost : Nat × Nat × Nat} (hinj : tget (s.coreAt core).inj part = some (i :: rest))
    (ht : t.coreAt core = (spendTokens s core part cost).coreAt core) : Spent s t core part cost (i :: rest) :=
  spent_of_core ht rfl (by rw [(coreAt_spendTokens s core part cost).1, hinj])

/-- Where the head renews no lease, and none behind it does, none passes. -/
theorem passRenewal_of_rest {t : State} (ht : injQueue t core part = i :: rest) (hrest : NoRenewal s rest)
    (hhead : ∀ q, t.req i = some q → q.renew = none) (hsame : ∀ j, j ≠ i → t.req j = s.req j) : passRenewal t core part = t := by
  refine passRenewal_of_noRenewal fun j hj p hp => ?_
  by_cases hji : j = i
  · subst hji; exact hhead p hp
  · obtain rfl | hmem := List.mem_cons.mp (ht ▸ hj)
    · exact absurd rfl hji
    · exact hrest j hmem p (hsame j hji ▸ hp)

/-- A request that does not hold the tokens of all its beats takes those that are held, and waits. -/
theorem request_waits {q : Req} {n : Nat} (hinj : tget (s.coreAt core).inj part = some (i :: rest)) (hq : s.req i = some q)
    (hall : ¬ Affords s core part (costOf q.beatCost (q.beats - q.paid))) (hrest : NoRenewal s rest)
    (hn : Affords s core part (costOf q.beatCost n)) (hmax : ¬ Affords s core part (costOf q.beatCost (n + 1))) :
    (n = 0 → grantTokens s core part = s) ∧
    (0 < n → grantTokens s core part = (spendTokens s core part (costOf q.beatCost n)).setReq i { q with paid := q.paid + n }) := by
  obtain ⟨hheld, hmore⟩ := beatsHeld_of_short hall hn hmax
  have hqueue := injQueue_of_inj hinj
  have hrenew := renew_of_not_affords hall
  constructor
  · rintro rfl
    rw [grantTokens_req_none hqueue hq hheld hmore]
    exact passRenewal_of_rest hqueue hrest (fun q' h => by cases hq.symm.trans h; exact hrenew) fun _ _ => rfl
  · intro hpos
    rw [grantTokens_req_some hqueue hq hheld hpos hmore]
    refine passRenewal_of_rest (s := s) ?_ hrest (fun q' h => ?_) fun j hj => req_setReq_ne _ _ hj
    · exact injQueue_of_inj ((congrArg (tget · part) (coreAt_spendTokens s core part _).1).trans hinj)
    · rw [req_setReq_same] at h; cases h; exact hrenew

/-! ## The head is a message -/

/-- A message all of whose tokens are held is injected. -/
theorem grantTokens_msg_all {m : Msg} (hqueue : injQueue s core part = i :: rest) (hq : s.req i = none) (hm : tget s.fly.msgs i = some m)
    (hheld : beatsHeld s core part m.beatCost (m.beats - m.paid) = m.beats - m.paid) :
    grantTokens s core part = injectMsg (spendTokens s core part (costOf m.beatCost (m.beats - m.paid))) core part i m := by
  simp only [grantTokens, hqueue, hq, hm, hheld, if_true, msgTokens]

/-- The state in which a message has taken the tokens of some more of its beats. -/
def paidMsg (s : State) (core part i : Nat) (m : Msg) (n : Nat) : State :=
  let s1 := spendTokens s core part (costOf m.beatCost n)
  s1.setFly { s1.fly with msgs := tset s1.fly.msgs i { m with paid := m.paid + n } }

/-- A message that does not hold the tokens of all its beats takes those that are held, and waits. -/
theorem message_waits {m : Msg} {n : Nat} (hinj : tget (s.coreAt core).inj part = some (i :: rest)) (hq : s.req i = none)
    (hm : tget s.fly.msgs i = some m) (hall : ¬ Affords s core part (costOf m.beatCost (m.beats - m.paid))) (hrest : NoRenewal s rest)
    (hn : Affords s core part (costOf m.beatCost n)) (hmax : ¬ Affords s core part (costOf m.beatCost (n + 1))) :
    (n = 0 → grantTokens s core part = s) ∧ (0 < n → grantTokens s core part = paidMsg s core part i m n) := by
  obtain ⟨hheld, hmore⟩ := beatsHeld_of_short hall hn hmax
  have hqueue := injQueue_of_inj hinj
  constructor
  · rintro rfl
    have hgrant : grantTokens s core part = passRenewal s core part := by
      simp only [grantTokens, hqueue, hq, hm, hheld, Nat.ne_of_lt hmore, if_true, if_false]
    rw [hgrant]
    exact passRenewal_of_rest hqueue hrest (fun q' h => by cases hq.symm.trans h) fun _ _ => rfl
  · intro hpos
    have hgrant : grantTokens s core part = passRenewal (paidMsg s core part i m n) core part := by
      simp only [grantTokens, hqueue, hq, hm, hheld, Nat.ne_of_lt hmore, Nat.ne_of_gt hpos, if_false, paidMsg]
    rw [hgrant]
    refine passRenewal_of_rest (s := s) ?_ hrest (fun q' h => by cases hq.symm.trans h) fun _ _ => rfl
    exact injQueue_of_inj ((congrArg (tget · part) (coreAt_spendTokens s core part _).1).trans hinj)

end

/-! ## The claim -/

/-- Injection sends the head of a queue, or a renewal that passes it, or takes the tokens that are held. -/
theorem injection : Claims.Injection := by
  intro s core part i rest hinj
  have hqueue := injQueue_of_inj hinj
  refine ⟨fun q hq hrange _ => ⟨fun hall => leads_beatTokenGrant hinj ?sent,
      fun hall hrest n hn hmax => leads_beatTokenGrant hinj ?waits, ?passes⟩,
    fun m hq hm _ => ⟨fun hall => leads_beatTokenGrant hinj ?msgSent,
      fun hall hrest n hn hmax => leads_beatTokenGrant hinj ?msgWaits⟩⟩
  case sent =>
    rw [grantTokens_req_all hqueue hq (beatsHeld_of_affords hall)]
    obtain ⟨hsent, -, hmem, hwork, hadm⟩ := injectReq_sends (spendTokens s core part (costOf q.beatCost (q.beats - q.paid))) core part i hrange
    exact ⟨spent_of_injected hinj (coreAt_injectReq _ core part i hrange), hsent, hmem, hwork, hadm⟩
  case waits =>
    obtain ⟨hnone, hsome⟩ := request_waits hinj hq hall hrest hn hmax
    refine ⟨hnone, fun hpos => ?_⟩
    rw [hsome hpos]
    exact ⟨spent_of_waiting hinj rfl, req_setReq_same _ _ _, rfl, rfl, rfl⟩
  case passes =>
    rintro hone hmore a j b p rfl ha hj hrenew hrangej hother
    refine leads_beatTokenGrant hinj ?_
    have hnone : beatsHeld s core part q.beatCost (q.beats - q.paid) = 0 :=
      (beatsHeld_of_short (fun h => hone (affords_mono (by omega) h)) (affords_none s core part _) hone).1
    have hhead := renew_of_not_affords hone
    have hne : i ≠ j := by
      rintro rfl
      cases hq.symm.trans hj
      simp [hhead] at hrenew
    have hbefore : NoRenewal s (i :: a) := fun x hx y hy => by
      obtain rfl | hx := List.mem_cons.mp hx
      · cases hq.symm.trans hy; exact hhead
      · exact ha x hx y hy
    rw [grantTokens_req_none hqueue hq hnone (by omega), passRenewal_of_first (a := i :: a) hqueue hbefore hj hrenew hother]
    obtain ⟨hsent, hothers, hmem, -, -⟩ := injectReq_sends s core part j hrangej
    rw [coreAt_injectReq s core part j hrangej, hqueue]
    exact ⟨withQueue_inj _ _ _, rfl, (hothers i hne).trans hq, hsent, hmem⟩
  case msgSent =>
    rw [grantTokens_msg_all hqueue hq hm (beatsHeld_of_affords hall)]
    obtain ⟨hsent, hmem, hwork, hadm⟩ := injectMsg_sends (spendTokens s core part (costOf m.beatCost (m.beats - m.paid))) core part i m
    exact ⟨spent_of_injected hinj (coreAt_injectMsg _ core part i m), hsent, hmem, hwork, hadm⟩
  case msgWaits =>
    obtain ⟨hnone, hsome⟩ := message_waits hinj hq hm hall hrest hn hmax
    refine ⟨hnone, fun hpos => ?_⟩
    rw [hsome hpos]
    exact ⟨spent_of_waiting hinj rfl, tget_tset_same _ _ _, rfl, rfl, rfl⟩

end Sys2Proof.Issue
end

section
/-! SUPPORT. What a crossbar output grants, and what becomes of the packet and of the ranks (10 R156, R157). -/

namespace Sys2Proof.Issue

open Sys2Proof.Machine Sys2Proof.Claims Sys2Proof.Context

/-! ## The choice of a packet -/

/-- The better of two by key, the first of equals. -/
def better {α : Type} (key : α → Nat) (b : Option α) (p : α) : Option α :=
  match b with
  | none => some p
  | some c => if key c < key p then some p else some c

/-- From one element on, the better of two ends with an element whose key none exceeds. -/
theorem foldl_better_some {α : Type} (key : α → Nat) (l : List α) (c : α) :
    ∃ w ∈ c :: l, l.foldl (better key) (some c) = some w ∧ ∀ p ∈ c :: l, key p ≤ key w := by
  induction l generalizing c with
  | nil => exact ⟨c, by simp, rfl, by simp⟩
  | cons x r ih =>
    rw [List.foldl_cons, better]
    split
    · next hlt =>
      obtain ⟨w, hw, hfold, hmax⟩ := ih x
      refine ⟨w, List.mem_cons_of_mem c hw, hfold, List.forall_mem_cons.mpr ⟨?_, hmax⟩⟩
      exact Nat.le_trans (Nat.le_of_lt hlt) (hmax x (by simp))
    · next hge =>
      obtain ⟨w, hw, hfold, hmax⟩ := ih c
      obtain ⟨hc, hr⟩ := List.forall_mem_cons.mp hmax
      refine ⟨w, ?_, hfold, List.forall_mem_cons.mpr ⟨hc, List.forall_mem_cons.mpr ⟨Nat.le_trans (Nat.le_of_not_lt hge) hc, hr⟩⟩⟩
      obtain rfl | hw := List.mem_cons.mp hw <;> simp [*]

/-- A fold that takes the better of two ends with an element of the list whose key none exceeds. -/
theorem foldl_better {α : Type} (key : α → Nat) {l : List α} (hl : l ≠ []) :
    ∃ w ∈ l, (∀ f : Option α → α → Option α, (∀ b p, f b p = better key b p) → l.foldl f none = some w) ∧
      ∀ p ∈ l, key p ≤ key w := by
  obtain ⟨x, r, rfl⟩ := List.exists_cons_of_ne_nil hl
  obtain ⟨w, hw, hfold, hmax⟩ := foldl_better_some key r x
  refine ⟨w, hw, fun f hf => ?_, hmax⟩
  obtain rfl : f = better key := funext fun b => funext (hf b)
  exact hfold

/-- Each input offers the oldest packet that it holds. -/
theorem enq_le_of_packetsFor {s : State} {d out : Nat} {resp : Bool} {p w : Packet} (hp : p ∈ packetsFor s d resp out)
    (hw : w ∈ packetsFor s d resp out) (hinp : p.inp = w.inp) : w.enq ≤ p.enq := by
  simp only [packetsFor, List.mem_map, List.mem_filter, Bool.and_eq_true, List.all_eq_true, Bool.or_eq_true, bne_iff_ne,
    decide_eq_true_eq] at hp hw
  obtain ⟨x, ⟨hx, -⟩, rfl⟩ := hp
  obtain ⟨y, ⟨-, -, hold⟩, rfl⟩ := hw
  exact (hold x hx).resolve_left fun h => h hinp

/-- The state with the ranks of an output after the grant of an input. -/
def rerank (s : State) (d : Nat) (resp : Bool) (out w : Nat) : State :=
  s.modDie d fun x => { x with ranks := tset x.ranks ((if resp then 64 else 0) + out) (ranksAfter (ranksOf s d resp out) w) }

/-- An output to which nothing is offered grants nothing. -/
theorem grantPacket_of_nil {s : State} {d out : Nat} {resp : Bool} (h : packetsFor s d resp out = []) : grantPacket s d resp out = s := by
  simp only [grantPacket, h, List.foldl_nil]

/-- An output grants one of the packets offered to it, of an input of highest rank. -/
theorem grantPacket_of_ne_nil {s : State} {d out : Nat} {resp : Bool} (h : packetsFor s d resp out ≠ []) :
    ∃ w ∈ packetsFor s d resp out, grantPacket s d resp out = advance (rerank s d resp out w.inp) w ∧
      ∀ p ∈ packetsFor s d resp out, (ranksOf s d resp out).getD p.inp 0 ≤ (ranksOf s d resp out).getD w.inp 0 := by
  obtain ⟨w, hw, hfold, hmax⟩ := foldl_better (fun p : Packet => (ranksOf s d resp out).getD p.inp 0) h
  refine ⟨w, hw, ?_, hmax⟩
  simp only [grantPacket]
  rw [hfold]
  · rfl
  · rintro (_ | _) _ <;> rfl

/-! ## Where the granted packet goes -/

/-- Samples of a barometer change partitions alone. -/
theorem sampled_keeps {β : Type} (proj : State → β) (h : ∀ s p f, proj (s.modPart p f) = proj s) (s : State) (n part b lat : Nat) :
    proj ((upTo n).foldl (fun s _ => sampleBaro s part b lat) s) = proj s :=
  foldl_keeps proj _ (fun s _ => h s part _) (upTo n) s

/-- A granted packet leaves memory as it was, and with it the ranks. -/
theorem advance_mem (s : State) (w : Packet) : (advance s w).mem = s.mem := by
  simp only [advance]
  split
  · split
    · rfl
    · split
      · exact sampled_keeps State.mem (fun _ _ _ => rfl) _ _ _ _ _
      · rfl
  · split
    · rfl
    · split
      · exact sampled_keeps State.mem (fun _ _ _ => rfl) _ _ _ _ _
      · rfl

/-- A granted request has one crossing less before it, and after the last it stands at its ordering point. -/
theorem advance_req {s : State} {w : Packet} {q : Req} (hw : w.msg = false) (hq : s.req w.id = some q) :
    ∃ x, (advance s w).req w.id = some x ∧ x.hops = q.hops.tail ∧
      x.stage = if q.stage = .net ∧ q.hops.tail = [] then .point else q.stage := by
  have hq' : s.fresh.2.req w.id = some q := hq
  simp only [advance, hw, Bool.false_eq_true, if_false, hq']
  exact ⟨_, req_setReq_same _ _ _, rfl, rfl⟩

/-- A granted message has one crossing less before it. -/
theorem advance_msg {s : State} {w : Packet} {m : Msg} (hw : w.msg = true) (hm : tget s.fly.msgs w.id = some m) :
    ∃ x, tget (advance s w).fly.msgs w.id = some x ∧ x.hops = m.hops.tail := by
  have hm' : tget s.fresh.2.fly.msgs w.id = some m := hm
  simp only [advance, hw, if_true, hm']
  exact ⟨_, tget_tset_same _ _ _, rfl⟩

/-! ## The ranks after a grant -/

/-- The ranks of an output depend on memory alone. -/
theorem ranksOf_congr {s t : State} (h : t.mem = s.mem) (d : Nat) (resp : Bool) (out : Nat) : ranksOf t d resp out = ranksOf s d resp out := by
  simp only [ranksOf, State.die, h]

/-- The ranks of an output that has been given new ones. -/
theorem ranksOf_rerank (s : State) (d : Nat) (resp : Bool) (out w : Nat) :
    ranksOf (rerank s d resp out w) d resp out = ranksAfter (ranksOf s d resp out) w := by
  simp [ranksOf, rerank, State.die, State.modDie]

/-- The rank of one input after a grant. -/
theorem getD_ranksAfter {r : List Nat} {i : Nat} (w : Nat) (hi : i < r.length) :
    (ranksAfter r w).getD i 0 = if i = w then 0 else if r.getD i 0 < r.getD w 0 then r.getD i 0 + 1 else r.getD i 0 := by
  simp [ranksAfter, upTo, hi]

/-! ## The claim -/

/-- PACKET_GRANT is the grant of one output. -/
theorem leads_packetGrant {s : State} {d out : Nat} {resp : Bool} {p : State → Prop} (hp : p (grantPacket s d resp out)) :
    Leads .packetGrant (.packetGrant d resp out) s p := by
  intro hev hup
  refine ⟨_, ?_, hp⟩
  change execPacketGrant s = _
  simp only [execPacketGrant, hev, whenUp, hup, if_true]

/-- An output grants the oldest packet of the input of highest rank, whose rank becomes 0. -/
theorem crossbarGrants : Claims.CrossbarGrants := by
  intro s d resp out
  refine ⟨fun hnil => leads_packetGrant (grantPacket_of_nil hnil), fun hne => leads_packetGrant ?_⟩
  obtain ⟨w, hw, hgrant, hmax⟩ := grantPacket_of_ne_nil hne
  rw [hgrant]
  refine ⟨w, hw, fun p hp => ⟨enq_le_of_packetsFor hp hw, hmax p hp⟩, fun i hi => ?_,
    fun hmsg q hq => advance_req hmsg hq, fun hmsg m hm => advance_msg hmsg hm⟩
  rw [ranksOf_congr (advance_mem _ _), ranksOf_rerank, getD_ranksAfter _ hi]

/-- Settles O41: the head of an injection queue is sent once its buckets hold its tokens, and an output grants by rank. -/
theorem injectionAndCrossing : Obligations.InjectionAndCrossing := ⟨injection, crossbarGrants⟩

end Sys2Proof.Issue
end

section
/-! A statement about FROST and THAW that fails, with the state in which the model does otherwise. -/

namespace Sys2Proof.Issue

open Sys2Proof.Machine Sys2Proof.Claims

/-- A frozen group of team 0, its 32 lanes live. Nothing has been written to its registers, so that the frame in k0 to k3 is all zeros. -/
def frozenGroup (gid : Nat) : Group := { Group.start 0 gid gid 0xFFFFFFFF#32 ⟨0, false⟩ 0 with st := .frozen }

/-- A result of ones in every lane that is known and owed, for row 382 of register space: k2 of group 1 of team 0 (05 R78, 06 R87). -/
def owedOnes : Result :=
  { dest := .rows [382], lanes := 0xFFFFFFFF#32, vals := [(32, 0xFFFFFFFF)], flags := [], src := none, done := true, held := false }

/-- A group of another team to which this result is owed. -/
def owedGroup : Group := { Group.start 1 0 0 0xFFFFFFFF#32 ⟨0, false⟩ 0 with st := .blocked, owed := [owedOnes] }

/-- The frozen team of groups 0 and 1. -/
def frozenPair : Team := { oneTeam 1 with frozen := true }

/-- The device with one LIVE domain whose only team is frozen and is to thaw. The table of groups lists number 0 twice: first the group of
another team, then group 0 of the frozen team. -/
def listedTwice : State :=
  let s := State.reset.setDom 1 { Dom.fresh with st := .live }
  let s1 := s.setWork { grids := [(0, oneGrid 1)], teams := [(0, frozenPair)],
                        groups := [(0, owedGroup), (0, frozenGroup 0), (1, frozenGroup 1)] }
  (s1.setSys { s1.sys with up := true }).setCtl { s1.ctl with ev := some (.thaw 0 1 .all) }

/-- A table of one domain lists that domain, and every other one is as none was created. -/
theorem dom_listedTwice (d : Nat) : listedTwice.dom d = if 1 = d then { Dom.fresh with st := .live } else Dom.fresh := by
  change (tget [(1, { Dom.fresh with st := .live })] d).getD Dom.fresh = _
  simp only [tget]
  split <;> rfl

/-- Nothing else waits for something to happen. -/
theorem calm_listedTwice : Calm listedTwice := by
  refine ⟨rfl, fun e he im him => ?_, fun d => ?_, by decide +kernel⟩
  · obtain rfl : e = (0, frozenPair) := List.mem_singleton.mp he
    cases him
  · rw [dom_listedTwice]
    split <;> rfl

/-- The team may thaw where it stands: each entry of a group of its own is at peace. -/
theorem thawable_listedTwice : Thawable listedTwice 0 0 frozenPair :=
  ⟨rfl, rfl, rfl, rfl, rfl, ⟨rfl, rfl, rfl⟩, calm_listedTwice, by decide +kernel, by decide +kernel, rfl⟩

/-- The phaser registrations of group 1 in the state that a step answers. -/
def phregAfter : Out → Option Nat
  | .next t => (t.group 1).map (·.phreg)
  | _ => none

/-- THAW takes number 0 for the first group listed under it and pays what that is owed, into the frame that group 1 takes up next. -/
theorem phregAfter_thaw : phregAfter (exec .thaw listedTwice) = some 0xFFFFFFFF := by decide +kernel

/-- Refutes O37: no hypothesis says that each group stands once in the table of groups. Where a number of the frozen team is listed first for
a group of another team, THAW loads that group, which may be owed a result for a row that holds a frame of the team; the frame then taken up
is not the one that k0 to k3 held when THAW was given. -/
theorem not_frostAndThaw : ¬ Obligations.FrostAndThaw := by
  unfold Obligations.FrostAndThaw
  rintro ⟨-, -, -, hthaw, -⟩
  obtain ⟨t, hstep, -, -, hgroups⟩ := hthaw listedTwice 0 1 .all 0 frozenPair (Nat.zero_le _) rfl (.inl rfl) (by decide +kernel) rfl
    thawable_listedTwice nofun rfl rfl
  obtain ⟨x, hx, ⟨hphreg, -⟩, -⟩ := hgroups 1 (frozenGroup 1) rfl rfl rfl rfl
  have hzero : bits (readFrame listedTwice (frozenGroup 1)) 3015 2984 = 0 := by decide +kernel
  have hafter := phregAfter_thaw
  rw [hstep, phregAfter, hx, Option.map_some, hphreg, hzero] at hafter
  exact absurd hafter (by decide)

end Sys2Proof.Issue
end

section
/-! A statement about page requests that fails, with the state in which the model does otherwise. -/

namespace Sys2Proof.Paging

open Sys2Proof.Machine Sys2Proof.Claims

/-- Where nothing else is in flight, ERROR leaves what waits under the number of a team's image as it is: the team asks again (log 75). -/
theorem errorWaiter_spillWaiter {s : State} (hstill : Still s) (e : PendEntry) (team : Nat) : errorWaiter s e (spillWaiter team) = s := by
  obtain ⟨hreqs, hposts, hcmds⟩ := hstill
  have hgroup : parkedGroup s (spillWaiter team) = none := by
    simp [parkedGroup, State.req, State.post, State.cmd, hreqs, hposts, hcmds, tget]
  have himage : 2 ^ 62 ≤ spillWaiter team := Nat.le_add_right _ _
  simp only [errorWaiter, hgroup, himage, if_true]

/-- PGRESP with ERROR for an entry on which such a number alone waits drops the entry and ends DONE (09 R153). -/
theorem pgresp_error_spillWaiter {s : State} {fn die reqid team : Nat} {e : PendEntry} (hup : s.sys.up = true)
    (hfatal : s.sys.fatal = none) (hfn : fn ≤ 64) (hentry : (s.die die).pend.find? (·.id == reqid) = some e)
    (hown : ownsDom s fn e.did = true) (hwaiters : e.waiters = [spillWaiter team]) (hstill : Still s) :
    pgresp s fn die reqid 1 = setStatus (settleAll (withoutEntry s die reqid)) fn 0 := by
  have hnamed : ¬ 64 < fn := Nat.not_lt.mpr hfn
  have hleft := errorWaiter_spillWaiter (s := withoutEntry s die reqid) hstill e team
  simpa [pgresp, takesCommands, hnamed, hup, hfatal, hentry, hown, hwaiters, withoutEntry]
    using congrArg (fun u => setStatus (settleAll u) fn 0) hleft

/-- A number that no domain has, as a DID has 8 bits (01 R17). -/
def noDomain : Nat := 3 * 2 ^ 56

/-- The pending table would know a queue of such a domain by the number of a team's image. -/
theorem queueWaiter_noDomain : queueWaiter noDomain 0 = spillWaiter 0 := rfl

/-- A queue that waits. -/
def waitingQueue : Queue := { Queue.unwritten with st := .waiting }

/-- A page request of domain 1 on which queue 0 of the domain of that number alone waits. -/
def sharedRequest : PendEntry :=
  { id := 4, did := 1, page := 0, reason := rNotValid, access := 1, level := 0, core := 255, written := [],
    waiters := [queueWaiter noDomain 0] }

/-- The device with one LIVE domain and this one request, which the PF answers with ERROR. -/
def answeredWithError : State :=
  let s := State.reset.setDom 1 { Dom.fresh with st := .live }
  let s1 := (s.modQueue noDomain 0 fun _ => waitingQueue).modDie 0 fun x => { x with pend := [sharedRequest] }
  (s1.setSys { s1.sys with up := true }).setCtl { s1.ctl with ev := some (.pgrespError 0 0 4 1) }

theorem still_answeredWithError : Still answeredWithError := ⟨rfl, rfl, rfl⟩

/-- No curator has marked a group. -/
theorem marked_answeredWithError (d : Nat) : (answeredWithError.dom d).cur.marked = [] := by
  change ((tget [(1, { Dom.fresh with st := .live })] d).getD Dom.fresh).cur.marked = []
  simp only [tget]
  split <;> rfl

theorem calm_answeredWithError : Calm answeredWithError := ⟨rfl, List.forall_mem_nil _, marked_answeredWithError, List.forall_mem_nil _⟩

/-- The queue goes on waiting once the entry is gone. -/
theorem waits_withoutRequest : ((settleAll (withoutEntry answeredWithError 0 4)).queue noDomain 0).st = .waiting := by decide +kernel

/-- Refutes O44: no hypothesis says that the queue that waits for a page is one of a domain that can be, with a DID of 8 bits. Where it is
said to be one of a domain of number 3 * 2^56, the number under which it waits is that of a team's image, and the model leaves what waits
there as it is at ERROR (log 75), so that the queue does not come to ERROR. -/
theorem not_paging : ¬ Obligations.Paging := by
  unfold Obligations.Paging
  intro h
  obtain ⟨-, -, -, hpgresp, -⟩ := h answeredWithError
  obtain ⟨-, -, -, hqueue, -⟩ := hpgresp 0 0 4 sharedRequest rfl (Nat.zero_le _) rfl (.inl rfl)
  obtain ⟨t, hstep, hfailed, -⟩ :=
    hqueue noDomain 0 rfl (by decide) still_answeredWithError calm_answeredWithError rfl rfl rfl rfl
  have hleft : Answers .pgrespError answeredWithError (setStatus (settleAll (withoutEntry answeredWithError 0 4)) 0 0) :=
    congrArg Host.Outcome.next (pgresp_error_spillWaiter rfl rfl (Nat.zero_le _) rfl rfl (congrArg (fun n => [n]) queueWaiter_noDomain)
      still_answeredWithError)
  have hsame : t = setStatus (settleAll (withoutEntry answeredWithError 0 4)) 0 0 := Host.Outcome.next.inj (hstep.symm.trans hleft)
  have hwaits : (t.queue noDomain 0).st = .waiting := by rw [hsame]; exact waits_withoutRequest
  rw [hfailed] at hwaits
  cases hwaits

end Sys2Proof.Paging
end

section
/-! SUPPORT. What work in memory and in flight leaves as it is: the links, the messages that are out, and what groups await. -/

namespace Sys2Proof.Links

open Sys2Proof.Machine Sys2Proof.Claims Sys2Proof.Context

/-! ## The part of the state that a link that goes down changes -/

/-- The links, the messages that are out, and each group's results and pending boundary causes. -/
def linkSide (s : State) : List Link × Tab Msg × (Nat → Option (List Result × List Trap)) :=
  (s.sys.links, s.fly.msgs, fun k => (s.group k).map fun g => (g.results, g.btraps))

@[simp] theorem linkSide_setMem (s : State) (x : MemSys) : linkSide (s.setMem x) = linkSide s := rfl
@[simp] theorem linkSide_setCtl (s : State) (x : Control) : linkSide (s.setCtl x) = linkSide s := rfl
@[simp] theorem linkSide_setDir (s : State) (q : Nat) (d : Dir) : linkSide (s.setDir q d) = linkSide s := rfl

@[simp] theorem linkSide_setLine (s : State) (lk : Nat) (l : Line) : linkSide (s.setLine lk l) = linkSide s := by
  unfold State.setLine; split <;> rfl
@[simp] theorem linkSide_noLine (s : State) (lk : Nat) : linkSide (s.noLine lk) = linkSide s := by
  unfold State.noLine; split <;> rfl
@[simp] theorem linkSide_reportTs (s : State) (v : Nat) : linkSide (reportTs s v) = linkSide s := by
  unfold reportTs; split <;> rfl
@[simp] theorem linkSide_sendBisnp (s : State) (line : Nat) (w : Bool) : linkSide (sendBisnp s line w) = linkSide s := rfl

/-- A change of a group that keeps what it awaits and what it has pending. -/
theorem linkSide_modGroup (s : State) (k : Nat) {f : Group → Group} (h : ∀ g, (f g).results = g.results ∧ (f g).btraps = g.btraps) :
    linkSide (s.modGroup k f) = linkSide s := by
  have hgroup : ∀ j, ((s.modGroup k f).group j).map (fun g => (g.results, g.btraps)) =
      (s.group j).map fun g => (g.results, g.btraps) := by
    intro j
    by_cases hj : j = k
    · subst hj
      simp [State.group, Function.comp_def, h]
    · simp [State.group, tget_tmod_ne _ _ hj]
  simp only [linkSide, State.modGroup_sys, State.modGroup_fly, hgroup]

/-- A change of every group that keeps what each awaits and has pending. -/
theorem linkSide_mapGroups (s : State) {f : Nat → Group → Group}
    (h : ∀ k g, (f k g).results = g.results ∧ (f k g).btraps = g.btraps) :
    linkSide (s.mapGroups f) = linkSide s := by
  simp [linkSide, State.group, tget_map, Function.comp_def, h]

/-! ## Lines and stack engines (07 R107 to R119) -/

@[simp] theorem linkSide_writeBack (s : State) (lk : Nat) : linkSide (writeBack s lk) = linkSide s := by
  unfold writeBack
  split
  · rfl
  · simp only [linkSide_setLine]
    split <;> split <;> rfl

@[simp] theorem linkSide_dropLine (s : State) (lk : Nat) : linkSide (dropLine s lk) = linkSide s := by
  unfold dropLine
  dsimp only
  split <;> simp

@[simp] theorem linkSide_touchLine (s : State) (lk : Nat) : linkSide (touchLine s lk) = linkSide s := by
  unfold touchLine State.fresh
  dsimp only
  split <;> simp

@[simp] theorem linkSide_refill (s : State) (sl pa lk : Nat) : linkSide (refill s sl pa lk) = linkSide s := linkSide_setLine _ _ _

@[simp] theorem linkSide_adoptKey (s : State) (lk key : Nat) : linkSide (adoptKey s lk key) = linkSide s := by
  unfold adoptKey
  split
  · rfl
  · split
    · rfl
    · dsimp only
      split <;> simp

@[simp] theorem linkSide_nextSeq (s : State) (p : Nat) : linkSide (nextSeq s p) = linkSide s := by
  unfold nextSeq; split <;> rfl

@[simp] theorem linkSide_leaseWrite (s : State) (p lk gts : Nat) (data : Bytes) (dirty whole : Nat) :
    linkSide (leaseWrite s p lk gts data dirty whole).2 = linkSide s := by
  unfold leaseWrite
  split <;> simp

@[simp] theorem linkSide_dropBridge (s : State) (lk : Nat) : linkSide (dropBridge s lk) = linkSide s := by
  unfold dropBridge
  split <;> simp [raiseHts]

@[simp] theorem linkSide_fetchBridge (s : State) (pa : Nat) (own : List Nat) : linkSide (fetchBridge s pa own) = linkSide s := by
  unfold fetchBridge
  extract_lets n s1 b l
  have hroom : linkSide s1 = linkSide s := by
    unfold s1
    split
    · rfl
    · split
      · split
        · rfl
        · exact linkSide_dropBridge _ _
      · rfl
  split
  · rfl
  · simp [hroom]

@[simp] theorem linkSide_engineTick (s : State) (st gts : Nat) (w : Bool) : linkSide (engineTick s st gts w).2 = linkSide s :=
  linkSide_reportTs _ _

/-! ## How a unit's access ends (07 R113, R114) -/

/-- The state in which the search for a line ends. -/
def gotState : Got → State
  | .line _ s | .wait s => s

/-- The state in which an access ends. -/
def accState : Acc → State
  | .wait s | .denied _ _ _ _ s | .done _ _ s => s

/-- The state in which a translation ends. -/
def xlateState : Xlate → State
  | .ok _ _ s | .failed _ _ s | .alien _ s | .busy s => s

theorem linkSide_getLine {s : State} {p pa : Nat} {r : Got} (h : getLine s p pa = r) : linkSide (gotState r) = linkSide s := by
  subst h
  unfold getLine
  split
  · simp [gotState]
  · split
    · rfl
    · split
      · rfl
      · split
        · split
          · simp [gotState]
          · split <;> simp [gotState]
        · simp [gotState]

theorem linkSide_msAccess (s : State) (pa key va n : Nat) (gts : Ts) (w : Option Bytes) :
    linkSide (accState (msAccess s pa key va n gts w)) = linkSide s := by
  unfold msAccess
  dsimp only
  split
  · rfl
  · split
    · rfl
    · split
      · rfl
      · split
        · rfl
        · split
          · exact linkSide_engineTick _ _ _ _
          · exact Eq.trans (foldl_keeps linkSide _ (by intros; rfl) _ _) (linkSide_engineTick _ _ _ _)

theorem linkSide_lineAccess (s : State) (pa key va n : Nat) (gts : Ts) (w : Option Bytes) :
    linkSide (accState (lineAccess s pa key va n gts w)) = linkSide s := by
  unfold lineAccess
  extract_lets p own s0
  have hfetch : linkSide s0 = linkSide s := by
    unfold s0
    split
    · exact linkSide_fetchBridge _ _ _
    · rfl
  split
  · next s1 heq => exact (linkSide_getLine heq).trans hfetch
  · next lk s1 heq =>
    have hgot : linkSide s1 = linkSide s := (linkSide_getLine heq).trans hfetch
    split
    · exact hgot
    · split
      · exact hgot
      · split
        · exact hgot
        · split
          · exact hgot
          · split
            · simpa only [accState, apply_ite linkSide, linkSide_sendBisnp, ite_self] using hgot
            · split
              · exact hgot
              · refine Eq.trans (linkSide_leaseWrite _ _ _ _ _ _ _) (Eq.trans ?_ hgot)
                split <;> simp

theorem linkSide_unitAccess {s : State} {e : TlbEntry} {pa va n : Nat} {gts : Ts} {w : Option Bytes} {r : Acc}
    (h : unitAccess s e pa va n gts w = r) : linkSide (accState r) = linkSide s := by
  subst h
  unfold unitAccess
  split
  · exact linkSide_msAccess _ _ _ _ _ _ _
  · exact linkSide_lineAccess _ _ _ _ _ _ _

/-! ## Translations (09 R147 to R151) -/

theorem linkSide_sampleFree (s : State) (part b n : Nat) : linkSide (sampleFree s part b n) = linkSide s := by
  induction n generalizing s with
  | zero => rfl
  | succ n ih => exact ih _

theorem linkSide_tlbFill (s : State) (d : Nat) (cores : List Nat) (e : TlbEntry) (ptrs : List (Nat × Nat × Nat × Nat)) :
    linkSide (tlbFill s d cores e ptrs) = linkSide s :=
  foldl_keeps linkSide _ (by intros; rfl) cores _

theorem linkSide_startWalk (s : State) (d did page : Nat) : linkSide (startWalk s d did page) = linkSide s := by
  unfold startWalk; split <;> rfl

theorem linkSide_freshWalk {s : State} {d : Nat} {cores : List Nat} {did va acc : Nat} {r : Xlate}
    (h : freshWalk s d cores did va acc = r) : linkSide (xlateState r) = linkSide s := by
  subst h
  unfold freshWalk
  dsimp only
  split
  · rfl
  · split
    · exact linkSide_startWalk _ _ _ _
    · split
      · split
        · exact (linkSide_tlbFill _ _ _ _ _).trans (linkSide_sampleFree _ _ _ _)
        · exact linkSide_sampleFree _ _ _ _
      · exact linkSide_sampleFree _ _ _ _
      · exact linkSide_sampleFree _ _ _ _

theorem linkSide_tlbFind {s s1 : State} {core did page : Nat} {e : TlbEntry} (h : tlbFind s core did page = some (e, s1)) :
    linkSide s1 = linkSide s := by
  unfold tlbFind at h
  split at h
  · cases h; rfl
  · split at h <;> cases h
    rfl

theorem linkSide_translateNow {s : State} {core did va acc : Nat} {r : Xlate}
    (h : translateNow s core did va acc = r) : linkSide (xlateState r) = linkSide s := by
  subst h
  unfold translateNow
  split
  · next e s1 hfound =>
    have hkept := linkSide_tlbFind hfound
    split
    · exact hkept
    · exact (linkSide_freshWalk rfl).trans hkept
  · exact linkSide_freshWalk rfl

end Sys2Proof.Links
end

section
/-! SUPPORT. Where nothing of the groups is in flight, what is tried again after an event leaves the links and what groups await. -/

namespace Sys2Proof.Links

open Sys2Proof.Machine Sys2Proof.Claims Sys2Proof.Context

/-! ## Accesses of peer devices (18 R307) -/

theorem linkSide_replyPeer (s : State) (link : Nat) (r : PeerReply) : linkSide (replyPeer s link r) = linkSide s := by
  unfold replyPeer; split <;> rfl

theorem linkSide_endRemote (s : State) (i : Nat) (a : RemoteAcc) (r : PeerReply) : linkSide (endRemote s i a r) = linkSide s :=
  linkSide_replyPeer _ _ _

theorem linkSide_tryRemote (s : State) (i : Nat) (a : RemoteAcc) : linkSide (tryRemote s i a) = linkSide s := by
  unfold tryRemote
  dsimp only
  split
  · exact linkSide_endRemote _ _ _ _
  · split
    · rfl
    · next heq => exact linkSide_freshWalk heq
    · next heq => exact (linkSide_endRemote _ _ _ _).trans (linkSide_freshWalk heq)
    · next heq =>
      have hwalk := linkSide_freshWalk heq
      split
      · exact (linkSide_endRemote _ _ _ _).trans hwalk
      · split
        · rfl
        · next heq =>
          have hacc := (linkSide_unitAccess heq).trans hwalk
          split <;> exact (linkSide_endRemote _ _ _ _).trans hacc
        · next heq => exact (linkSide_endRemote _ _ _ _).trans ((linkSide_unitAccess heq).trans hwalk)

theorem linkSide_pumpRemotes (s : State) : linkSide (pumpRemotes s) = linkSide s := by
  refine foldl_keeps linkSide _ (fun s i => ?_) _ s
  split
  · split
    · rfl
    · exact linkSide_tryRemote _ _ _
  · rfl

/-! ## Writes of team images (05 R76) -/

theorem linkSide_spillRun (s : State) (core did team va fuel : Nat) (bs : Bytes) :
    linkSide (spillRun s core did team va fuel bs).1 = linkSide s := by
  induction fuel generalizing s va bs with
  | zero => rfl
  | succ fuel ih =>
    unfold spillRun
    dsimp only
    split
    · rfl
    · split
      · next heq =>
        have hxlate := linkSide_translateNow heq
        split
        · next heq => exact (ih _ _ _).trans ((linkSide_unitAccess heq).trans hxlate)
        · next heq => exact (linkSide_unitAccess heq).trans hxlate
        · next heq => exact (linkSide_unitAccess heq).trans hxlate
      · next heq => exact linkSide_translateNow heq
      · next heq => exact linkSide_translateNow heq
      · next heq => exact linkSide_translateNow heq

theorem linkSide_flushImage (s : State) (k fuel : Nat) : linkSide (flushImage s k fuel) = linkSide s := by
  induction fuel generalizing s with
  | zero => rfl
  | succ fuel ih =>
    unfold flushImage
    split
    · rfl
    · split
      · rfl
      · split
        · rfl
        · dsimp only
          split
          · exact (ih _).trans (linkSide_spillRun _ _ _ _ _ _ _)
          · rfl

theorem linkSide_flushImages (s : State) : linkSide (flushImages s) = linkSide s :=
  foldl_keeps linkSide _ (fun s k => linkSide_flushImage s k _) _ s

/-! ## Waits that end, and groups that a curator sees (12 R192) -/

theorem linkSide_endPostWaits (s : State) : linkSide (endPostWaits s) = linkSide s :=
  linkSide_mapGroups s fun _ g => by split <;> exact ⟨rfl, rfl⟩

theorem linkSide_raiseGroup (s : State) (k : Nat) (ts : Ts) : linkSide (raiseGroup s k ts) = linkSide s :=
  (linkSide_reportTs _ _).trans (linkSide_modGroup s k fun _ => ⟨rfl, rfl⟩)

theorem linkSide_rewriteFrame (s : State) (g : Group) (f : Nat) : linkSide (rewriteFrame s g f) = linkSide s := by
  unfold rewriteFrame
  split
  · rfl
  · split
    · exact foldl_keeps linkSide _ (fun s j => by split <;> rfl) _ s
    · refine foldl_keeps linkSide _ (fun s j => ?_) _ s
      split
      · rfl
      · split <;> rfl

theorem linkSide_raiseAll (s : State) (k : Nat) (ts : Ts) : linkSide (raiseAll s k ts) = linkSide s := by
  have hraised := linkSide_raiseGroup s k ts
  unfold raiseAll
  extract_lets s1
  split
  · exact hraised
  · split
    · refine Eq.trans (linkSide_modGroup _ k fun _ => ⟨rfl, rfl⟩) ?_
      split
      · exact hraised
      · exact (linkSide_rewriteFrame _ _ _).trans hraised
    · exact hraised

theorem linkSide_raiseParked (s : State) (k : Nat) : linkSide (raiseParked s k) = linkSide s := by
  unfold raiseParked
  split
  · rfl
  · split <;> rfl

theorem linkSide_seeGroup (s : State) (k : Nat) : linkSide (seeGroup s k) = linkSide s := by
  unfold seeGroup
  split
  · rfl
  · dsimp only
    split
    · rfl
    · split
      · rfl
      · split
        · exact (linkSide_raiseParked _ _).trans (linkSide_raiseAll _ _ _)
        · rfl

theorem linkSide_seeMarked (s : State) : linkSide (seeMarked s) = linkSide s :=
  foldl_keeps linkSide _ linkSide_seeGroup _ s

/-! ## After an event -/

/-- Where no request, operation of a word or command is in flight, only accesses of peers, images, ended waits and marked groups are
tried again. -/
theorem settleAll_of_still {s : State} (h : Still s) : settleAll s = seeMarked (flushImages (pumpRemotes (endPostWaits s))) := by
  obtain ⟨hreqs, hposts, hcmds⟩ := h
  simp [settleAll, pump, pumpPosts, pumpCmds, pumpSteps, hreqs, hposts, hcmds]

theorem linkSide_settleAll {s : State} (h : Still s) : linkSide (settleAll s) = linkSide s := by
  rw [settleAll_of_still h, linkSide_seeMarked, linkSide_flushImages, linkSide_pumpRemotes, linkSide_endPostWaits]

end Sys2Proof.Links
end

section
/-! The statement about peer links (10 R167, R168, 18 R307), with what each event of a link does. -/

namespace Sys2Proof.Links

open Sys2Proof.Machine Sys2Proof.Claims Sys2Proof.Context

/-! ## What the links, the messages and the groups of two states have in common -/

theorem links_of_linkSide {s t : State} (h : linkSide t = linkSide s) : t.sys.links = s.sys.links := congrArg (·.1) h
theorem msgs_of_linkSide {s t : State} (h : linkSide t = linkSide s) : t.fly.msgs = s.fly.msgs := congrArg (·.2.1) h

/-- A group awaits the same results and has the same causes pending. -/
theorem group_of_linkSide {s t : State} {k : Nat} {g : Group} (h : linkSide t = linkSide s) (hg : s.group k = some g) :
    ∃ x, t.group k = some x ∧ x.results = g.results ∧ x.btraps = g.btraps := by
  have hview : (t.group k).map (fun g => (g.results, g.btraps)) = some (g.results, g.btraps) :=
    (congrFun (congrArg (·.2.2) h) k).trans (congrArg (Option.map _) hg)
  obtain ⟨x, hx, heq⟩ := Option.map_eq_some_iff.mp hview
  obtain ⟨hresults, hbtraps⟩ := Prod.mk.inj heq
  exact ⟨x, hx, hresults, hbtraps⟩

/-! ## One link changed -/

/-- Replacing an element of a list by its number. -/
theorem setAt_eq_set {β : Type} (l : List β) (i : Nat) (v : β) : setAt l i v = l.set i v := by
  induction l generalizing i with
  | nil => rfl
  | cons x r ih => cases i <;> simp [setAt, ih]

/-- A change of a link replaces that link among the links. -/
@[simp] theorem modLink_links (s : State) (n : Nat) (f : Link → Link) :
    (modLink s n f).sys.links = setAt s.sys.links n (f (s.link n)) := rfl

/-- The link just changed. -/
theorem link_of_links {s t : State} {n : Nat} {l : Link} (hn : n < s.sys.links.length) (h : t.sys.links = setAt s.sys.links n l) :
    t.link n = l := by
  simp [State.link, h, setAt_eq_set, hn]

/-- That link now, and the others as they were. -/
theorem linkNow_of_links {s t : State} {n : Nat} {l : Link} (hn : n < s.sys.links.length) (h : t.sys.links = setAt s.sys.links n l) :
    LinkNow s t n l.st l.lanes := by
  have hsame := link_of_links hn h
  refine ⟨congrArg Link.st hsame, congrArg Link.lanes hsame, fun m hm => ?_⟩
  simp [State.link, h, setAt_eq_set, List.getElem?_set_ne (Ne.symm hm)]

/-- A link changed is as the change makes it, and the others are as they were. -/
theorem linkNow_modLink {s : State} {n : Nat} (hn : n < s.sys.links.length) (f : Link → Link) :
    LinkNow s (modLink s n f) n (f (s.link n)).st (f (s.link n)).lanes := linkNow_of_links hn (modLink_links s n f)

/-- A status changes no link. -/
theorem linkNow_setStatus {s t : State} {n st lanes : Nat} (h : LinkNow s t n st lanes) (fn v : Nat) :
    LinkNow s (setStatus t fn v) n st lanes := h

/-- An interrupt changes no link. -/
theorem linkNow_interrupt {s t : State} {n st lanes : Nat} (h : LinkNow s t n st lanes) (fn kind : Nat) :
    LinkNow s (interrupt t fn kind) n st lanes := h

/-! ## The end of the traffic of a link (10 R168, 18 R307) -/

/-- A link on which nothing is out has no traffic to end. -/
theorem endTraffic_of_idle {s : State} (hstill : Still s) (hmsgs : s.fly.msgs = []) (n : Nat) : endTraffic s n = settleAll s := by
  obtain ⟨hreqs, hposts, -⟩ := hstill
  simp [endTraffic, hreqs, hposts, hmsgs]

/-- The LINK trap of a group that has lost a message. -/
def linkDownTrap (n : Nat) (mask : Mask) : Trap :=
  { cause := cLINK, sub := 0, info := n, pc := 0, depth := 0, mask := mask, word := false, owner := 0 }

/-- A group with no cause pending that learns that its message was lost. -/
def losesMessage (n rid : Nat) (g : Group) : Group :=
  { g with btraps := [linkDownTrap n g.live], results := completeResult g.results rid 4 }

/-- A group to which nothing is owed is paid nothing. -/
theorem payOwed_of_none {s : State} {k : Nat} {g : Group} (hg : s.group k = some g) (howed : g.owed = []) : payOwed s k = s := by
  simp [payOwed, hg, howed]

/-- A group with a run in progress takes no pending cause. -/
theorem takeAtRest_of_run {s : State} {k : Nat} {g : Group} (hg : s.group k = some g) (hrun : g.run ≠ none) : takeAtRest s k = s := by
  simp [takeAtRest, hg, hrun]

/-- What a table gives under a number is one of its entries. -/
theorem mem_of_tget {β : Type} {t : Tab β} {k : Nat} {v : β} (h : tget t k = some v) : (k, v) ∈ t := by
  induction t with
  | nil => cases h
  | cons e r ih =>
    obtain ⟨j, u⟩ := e
    simp only [tget] at h
    split at h
    · next hj =>
      obtain rfl := Option.some.inj h
      exact hj ▸ List.mem_cons_self
    · exact List.mem_cons_of_mem _ (ih h)

/-- The state in which a message is gone and its group told, before that is paid what it is owed. -/
def withoutMessage (s : State) (n i rid : Nat) (m : Msg) : State :=
  (addBoundaryTrap (s.setFly { s.fly with msgs := tdel s.fly.msgs i }) m.grp
    (linkDownTrap n (((s.group m.grp).map (·.live)).getD 0#32))).modGroup m.grp fun g =>
      { g with results := completeResult g.results rid 4, owed := completeResult g.owed rid 4 }

/-- The group of a lost message, where nothing else is pending for it or owed to it. -/
theorem group_withoutMessage {s : State} {m : Msg} {g : Group} (n i rid : Nat) (hg : s.group m.grp = some g) (howed : g.owed = [])
    (hbtraps : g.btraps = []) : (withoutMessage s n i rid m).group m.grp = some (losesMessage n rid g) := by
  have hentry : tget s.work.groups m.grp = some g := hg
  simp [withoutMessage, addBoundaryTrap, State.group, hentry, hbtraps, howed, losesMessage, completeResult]

/-- Where one message alone is out on a link, its end is that of the link's traffic. -/
theorem endTraffic_of_message {s : State} {n i rid : Nat} {m : Msg} (hstill : Still s) (hmsgs : s.fly.msgs = [(i, m)])
    (hlink : m.link = some n) (hres : m.res = some rid) :
    endTraffic s n = settleAll (takeAtRest (payOwed (withoutMessage s n i rid m) m.grp) m.grp) := by
  obtain ⟨hreqs, hposts, -⟩ := hstill
  simp only [endTraffic, hreqs, hposts, List.filter_nil, List.foldl_nil]
  simp [hmsgs, hlink, hres, withoutMessage, finishResult, linkDownTrap, State.group]

/-- What a link that goes down with one message on it leaves. -/
theorem endTraffic_message {s : State} {n i rid : Nat} {m : Msg} {g : Group} (hmsgs : s.fly.msgs = [(i, m)]) (hlink : m.link = some n)
    (hres : m.res = some rid) (hstill : Still s) (howed : NoneOwed s) (hg : s.group m.grp = some g) (hrun : g.run ≠ none)
    (hbtraps : g.btraps = []) :
    (endTraffic s n).sys.links = s.sys.links ∧ (endTraffic s n).fly.msgs = [] ∧ Answered s (endTraffic s n) m.grp rid 4 ∧
    ∃ x, (endTraffic s n).group m.grp = some x ∧ x.btraps = [linkDownTrap n g.live] := by
  have hnone : g.owed = [] := howed _ (mem_of_tget hg)
  have hgroup := group_withoutMessage n i rid hg hnone hbtraps
  rw [endTraffic_of_message hstill hmsgs hlink hres, payOwed_of_none hgroup hnone, takeAtRest_of_run hgroup hrun]
  have hkept : linkSide (settleAll (withoutMessage s n i rid m)) = linkSide (withoutMessage s n i rid m) := linkSide_settleAll hstill
  obtain ⟨x, hx, hresults, hcauses⟩ := group_of_linkSide hkept hgroup
  have hgone : (withoutMessage s n i rid m).fly.msgs = [] := by simp [withoutMessage, addBoundaryTrap, hmsgs, tdel]
  refine ⟨(links_of_linkSide hkept).trans rfl, (msgs_of_linkSide hkept).trans hgone, fun g' hg' => ⟨x, hx, ?_⟩, x, hx, hcauses⟩
  obtain rfl := Option.some.inj (hg.symm.trans hg')
  exact hresults

/-! ## What each event of a link is (10 R167) -/

theorem exec_linkEnable {s : State} {fn n : Nat} (hev : s.ctl.ev = some (.linkEnable fn n)) :
    exec .linkEnable s = .next (command s fn (fn == 0) [(decide (n < 8) && !([lDOWN].contains (s.link n).st), 1), (decide (7 < n), 3)]
      fun s => modLink s n fun l => { l with st := lTRAINING, lanes := 0 }) := by
  change execLinkEnable s = _
  simp only [execLinkEnable, hev]
  rfl

theorem exec_linkDisable {s : State} {fn n : Nat} (hev : s.ctl.ev = some (.linkDisable fn n)) :
    exec .linkDisable s = .next (command s fn (fn == 0)
      [(decide (n < 8) && !([lUP, lDEGRADED, lFAULT].contains (s.link n).st), 1), (decide (7 < n), 3)]
      fun s => endTraffic (modLink s n fun l => { l with st := lDOWN, lanes := 0 }) n) := by
  change execLinkDisable s = _
  simp only [execLinkDisable, hev]
  rfl

/-- An event of a device that is up leads to what it does. -/
theorem leads_whenUp {i : Instr} {h : Happening} {s : State} {p : State → Prop} {f : State → State}
    (hexec : s.ctl.ev = some h → exec i s = .next (whenUp s f)) (hp : p (f s)) : Leads i h s p :=
  fun hev hup => ⟨f s, (hexec hev).trans (congrArg _ (if_pos hup)), hp⟩

theorem exec_linkTrained {s : State} {n lanes hash : Nat} (hev : s.ctl.ev = some (.linkTrained n lanes hash)) :
    exec .linkTrained s = .next (whenUp s fun s =>
      if (s.link n).st ≠ lTRAINING ∨ lanes < 2 ∨ 4 < lanes then s
      else modLink s n fun l => { l with st := if lanes = 4 then lUP else lDEGRADED, lanes := if lanes = 4 then 4 else 2,
                                         hash := hash % 2 ^ 384 }) := by
  change execLinkTrained s = _
  simp only [execLinkTrained, hev]

theorem exec_linkTrainingFail {s : State} {n : Nat} (hev : s.ctl.ev = some (.linkTrainingFail n)) :
    exec .linkTrainingFail s = .next (whenUp s fun s =>
      if (s.link n).st = lTRAINING then interrupt (modLink s n fun l => { l with st := lFAULT, lanes := 0 }) 0 iLINK else s) := by
  change execLinkTrainingFail s = _
  simp only [execLinkTrainingFail, hev]

theorem exec_laneFail {s : State} {n : Nat} (hev : s.ctl.ev = some (.laneFail n)) :
    exec .laneFail s = .next (whenUp s fun s =>
      if (s.link n).st = lUP then modLink s n fun l => { l with st := lDEGRADED, lanes := 2 } else s) := by
  change execLaneFail s = _
  simp only [execLaneFail, hev]

theorem exec_linkRetrainUp {s : State} {n : Nat} (hev : s.ctl.ev = some (.linkRetrainUp n)) :
    exec .linkRetrainUp s = .next (whenUp s fun s =>
      if (s.link n).st = lDEGRADED then modLink s n fun l => { l with st := lUP, lanes := 4 } else s) := by
  change execLinkRetrainUp s = _
  simp only [execLinkRetrainUp, hev]

theorem exec_linkFault {s : State} {n : Nat} (hev : s.ctl.ev = some (.linkFault n)) :
    exec .linkFault s = .next (whenUp s fun s =>
      if (s.link n).st = lDEGRADED then endTraffic (modLink s n fun l => { l with st := lFAULT, lanes := 0 }) n else s) := by
  change execLinkFault s = _
  simp only [execLinkFault, hev]

/-! ## The claim -/

/-- A link that nothing crosses goes down as it stands. -/
theorem linkNow_endTraffic {s : State} {n : Nat} (h : LinksIdle s n) (f : Link → Link) :
    LinkNow s (endTraffic (modLink s n f) n) n (f (s.link n)).st (f (s.link n)).lanes := by
  obtain ⟨hn, hlen, hstill, hmsgs⟩ := h
  rw [endTraffic_of_idle (s := modLink s n f) hstill hmsgs]
  exact linkNow_of_links (hlen ▸ hn) (links_of_linkSide (linkSide_settleAll (s := modLink s n f) hstill))

/-- The commands on a number that no link has. -/
theorem linkCommands_of_no_link {s : State} {n : Nat} (hfatal : s.sys.fatal = none) (hn : 7 < n) :
    Leads .linkEnable (.linkEnable 0 n) s (fun t => t = setStatus s 0 3) ∧
    Leads .linkDisable (.linkDisable 0 n) s fun t => t = setStatus s 0 3 := by
  have hrange : ¬ n < 8 := by omega
  exact ⟨leads_refused (e := (true, 3)) exec_linkEnable (Nat.zero_le _) hfatal rfl (by simp [hn, hrange]) rfl,
    leads_refused (e := (true, 3)) exec_linkDisable (Nat.zero_le _) hfatal rfl (by simp [hn, hrange]) rfl⟩

/-- LINK_ENABLE on a link that is not DOWN. -/
theorem linkEnable_refused {s : State} {n : Nat} (hn : n < 8) (hfatal : s.sys.fatal = none) (hst : (s.link n).st ≠ 0) :
    Leads .linkEnable (.linkEnable 0 n) s fun t => t = setStatus s 0 1 :=
  leads_refused (e := (true, 1)) exec_linkEnable (Nat.zero_le _) hfatal rfl (by simp [hn, hst, lDOWN]) rfl

/-- LINK_DISABLE on a link in DOWN or TRAINING. -/
theorem linkDisable_refused {s : State} {n : Nat} (hn : n < 8) (hfatal : s.sys.fatal = none)
    (hst : (s.link n).st = 0 ∨ (s.link n).st = 1) : Leads .linkDisable (.linkDisable 0 n) s fun t => t = setStatus s 0 1 := by
  refine leads_refused (e := (true, 1)) exec_linkDisable (Nat.zero_le _) hfatal rfl ?_ rfl
  rcases hst with hst | hst <;> simp [hn, hst, lUP, lDEGRADED, lFAULT]

/-- LINK_TRAINED and LINK_TRAINING_FAIL on a link that is not in TRAINING, LANE_FAIL on one not UP, and the events of one that is
DEGRADED on another, change nothing. -/
theorem linkEvents_elsewhere (s : State) (n : Nat) :
    ((s.link n).st ≠ 1 → (∀ lanes hash, Leads .linkTrained (.linkTrained n lanes hash) s fun t => t = s) ∧
      Leads .linkTrainingFail (.linkTrainingFail n) s fun t => t = s) ∧
    ((s.link n).st ≠ 2 → Leads .laneFail (.laneFail n) s fun t => t = s) ∧
    ((s.link n).st ≠ 3 → (Leads .linkRetrainUp (.linkRetrainUp n) s fun t => t = s) ∧
      Leads .linkFault (.linkFault n) s fun t => t = s) :=
  ⟨fun h => ⟨fun _ _ => leads_whenUp exec_linkTrained (if_pos (.inl h)), leads_whenUp exec_linkTrainingFail (if_neg h)⟩,
    fun h => leads_whenUp exec_laneFail (if_neg h),
    fun h => ⟨leads_whenUp exec_linkRetrainUp (if_neg h), leads_whenUp exec_linkFault (if_neg h)⟩⟩

/-- LINK_TRAINED by the lanes that have trained. -/
theorem linkTrained_leads {s : State} {n : Nat} (hn : n < s.sys.links.length) (lanes hash : Nat) (hst : (s.link n).st = lTRAINING) :
    Leads .linkTrained (.linkTrained n lanes hash) s fun t =>
      (lanes = 4 → LinkNow s t n 2 4 ∧ (t.link n).hash = hash % 2 ^ 384) ∧
      (lanes = 2 ∨ lanes = 3 → LinkNow s t n 3 2 ∧ (t.link n).hash = hash % 2 ^ 384) ∧ (lanes < 2 → t = s) := by
  refine leads_whenUp exec_linkTrained ?_
  by_cases hfew : lanes < 2 ∨ 4 < lanes
  · rw [if_pos (.inr hfew)]
    exact ⟨fun h => by omega, fun h => by omega, fun _ => rfl⟩
  · have htraining : ¬ ((s.link n).st ≠ lTRAINING ∨ lanes < 2 ∨ 4 < lanes) := fun h => h.elim (fun h => h hst) hfew
    rw [if_neg htraining]
    refine ⟨fun h => ?_, fun h => ?_, fun h => by omega⟩
    · simp only [h, if_true]
      exact ⟨linkNow_modLink hn _, congrArg Link.hash (link_of_links hn (modLink_links s n _))⟩
    · have hlanes : lanes ≠ 4 := by omega
      simp only [hlanes, if_false]
      exact ⟨linkNow_modLink hn _, congrArg Link.hash (link_of_links hn (modLink_links s n _))⟩

/-- A link that nothing crosses, through its states. -/
theorem idleLink_leads {s : State} {n : Nat} (hidle : LinksIdle s n) :
    (s.sys.fatal = none → (s.link n).st = 0 → Leads .linkEnable (.linkEnable 0 n) s fun t =>
      LinkNow s t n 1 0 ∧ tget t.sys.status 0 = some 0) ∧
    (s.sys.fatal = none → (s.link n).st ∈ [2, 3, 4] → Leads .linkDisable (.linkDisable 0 n) s fun t =>
      LinkNow s t n 0 0 ∧ tget t.sys.status 0 = some 0) ∧
    ((s.link n).st = 1 → Leads .linkTrainingFail (.linkTrainingFail n) s fun t =>
      LinkNow s t n 4 0 ∧ t.sys.irqs = s.sys.irqs ++ [(0, 8)]) ∧
    ((s.link n).st = 2 → Leads .laneFail (.laneFail n) s fun t => LinkNow s t n 3 2) ∧
    ((s.link n).st = 3 → Leads .linkRetrainUp (.linkRetrainUp n) s fun t => LinkNow s t n 2 4) ∧
    ((s.link n).st = 3 → Leads .linkFault (.linkFault n) s fun t => LinkNow s t n 4 0) := by
  obtain ⟨hn, hlen, -⟩ := id hidle
  have hlt : n < s.sys.links.length := hlen ▸ hn
  have hrange : ¬ 7 < n := by omega
  refine ⟨fun hfatal hst => ?_, fun hfatal hst => ?_, fun hst => leads_whenUp exec_linkTrainingFail ?_,
    fun hst => leads_whenUp exec_laneFail ?_, fun hst => leads_whenUp exec_linkRetrainUp ?_, fun hst => leads_whenUp exec_linkFault ?_⟩
  · refine leads_done exec_linkEnable (Nat.zero_le _) hfatal rfl ?_
      ⟨linkNow_setStatus (linkNow_modLink hlt _) 0 0, status_setStatus _ _ _⟩
    simp [hst, lDOWN, hrange]
  · have hup : [lUP, lDEGRADED, lFAULT].contains (s.link n).st = true := List.contains_iff_mem.mpr hst
    refine leads_done exec_linkDisable (Nat.zero_le _) hfatal rfl ?_
      ⟨linkNow_setStatus (linkNow_endTraffic hidle _) 0 0, status_setStatus _ _ _⟩
    simp only [hup, hrange, decide_false, Bool.not_true, Bool.and_false, List.forall_mem_cons, true_and]
    exact List.forall_mem_nil _
  · rw [if_pos (show (s.link n).st = lTRAINING from hst)]
    exact ⟨linkNow_interrupt (linkNow_modLink hlt _) 0 iLINK, rfl⟩
  · rw [if_pos (show (s.link n).st = lUP from hst)]
    exact linkNow_modLink hlt _
  · rw [if_pos (show (s.link n).st = lDEGRADED from hst)]
    exact linkNow_modLink hlt _
  · rw [if_pos (show (s.link n).st = lDEGRADED from hst)]
    exact linkNow_endTraffic hidle _

/-- A link that fails with one message on it. -/
theorem linkFault_message {s : State} {n i rid : Nat} {m : Msg} {g : Group} (hn : n < s.sys.links.length)
    (hmsgs : s.fly.msgs = [(i, m)]) (hlink : m.link = some n) (hres : m.res = some rid) (hstill : Still s) (howed : NoneOwed s)
    (hg : s.group m.grp = some g) (hrun : g.run ≠ none) (hbtraps : g.btraps = []) (hst : (s.link n).st = 3) :
    Leads .linkFault (.linkFault n) s fun t => LinkNow s t n 4 0 ∧ t.fly.msgs = [] ∧ Answered s t m.grp rid 4 ∧
      ∃ x, t.group m.grp = some x ∧ x.btraps.map (·.cause) = [0x12] ∧ x.btraps.map (·.info) = [n] := by
  refine leads_whenUp exec_linkFault ?_
  rw [if_pos (show (s.link n).st = lDEGRADED from hst)]
  obtain ⟨hlinks, hgone, hanswered, x, hx, hcause⟩ :=
    endTraffic_message (s := modLink s n fun l => { l with st := lFAULT, lanes := 0 }) hmsgs hlink hres hstill howed hg hrun hbtraps
  refine ⟨linkNow_of_links hn hlinks, hgone, hanswered, x, hx, ?_, ?_⟩ <;> rw [hcause] <;> rfl

/-- Peer links through their states, and what becomes of a message on one that goes down. -/
theorem links : Claims.Links := by
  intro s n
  refine ⟨fun f i hcommand hfatal hn => ?_, linkEnable_refused, linkDisable_refused, fun hidle => ?_, ?_⟩
  · obtain ⟨henable, hdisable⟩ := linkCommands_of_no_link hfatal hn
    obtain ⟨rfl, rfl⟩ | ⟨rfl, rfl⟩ := hcommand
    · exact henable
    · exact hdisable
  · obtain ⟨hn, hlen, -⟩ := id hidle
    obtain ⟨henable, hdisable, hrest⟩ := idleLink_leads hidle
    exact ⟨henable, hdisable, fun lanes hash => linkTrained_leads (hlen ▸ hn) lanes hash, hrest⟩
  · obtain ⟨htraining, hup, hdegraded⟩ := linkEvents_elsewhere s n
    exact ⟨htraining, hup, hdegraded, fun i m rid g hn hlen hmsgs hlink hres hstill howed hg hrun hbtraps hst =>
      linkFault_message (hlen ▸ hn) hmsgs hlink hres hstill howed hg hrun hbtraps hst⟩

end Sys2Proof.Links
end

section
/-! The statement about the package: fatal errors, the arithmetic clock, rails and reset (01 R22, 10 R158, 23 R377 to R380). -/

namespace Sys2Proof.Links

open Sys2Proof.Machine Sys2Proof.Claims Sys2Proof.Context

/-! ## A fatal error (01 R22) -/

/-- A domain as a stop for a reason of the device's leaves it. -/
def stopped (reason : Nat) (d : Dom) : Dom := { d with st := .stopped, stop := reason, scause := 0, score := 0, stinfo := 0 }

/-- A stop changes the domain that it names, and no other. -/
theorem dom_stopDomain (s : State) (d reason e : Nat) :
    (stopDomain s d reason 0 0 0).dom e = if e = d then stopped reason (s.dom d) else s.dom e := by
  have hcounts : ∀ l : List Nat, (l.foldl commitCounts s).adm = s.adm := fun l =>
    foldl_keeps State.adm commitCounts (fun s k => (commitCounts_fields s k).2.1) l s
  by_cases he : e = d
  · subst he
    simp [stopDomain, State.dom, holdQueues, hcounts, stopped]
  · simp [stopDomain, State.dom, holdQueues, hcounts, he, tget_tset_ne _ _ he]

theorem stopDomain_sys (s : State) (d reason : Nat) : (stopDomain s d reason 0 0 0).sys = s.sys := by
  simp [stopDomain, holdQueues, foldl_keeps State.sys commitCounts fun s k => (commitCounts_fields s k).1]

/-- The domains of a list stop, and no others; one that is listed twice stops as it does once. -/
theorem dom_stopDomains (reason : Nat) (l : List Nat) (s : State) (e : Nat) :
    (l.foldl (fun s d => stopDomain s d reason 0 0 0) s).dom e = if e ∈ l then stopped reason (s.dom e) else s.dom e := by
  induction l generalizing s with
  | nil => simp
  | cons d r ih =>
    rw [List.foldl_cons, ih, dom_stopDomain]
    by_cases he : e = d
    · subst he; simp [stopped]
    · simp [he]

/-- The domains that a fatal error stops, by their entries. -/
def hitDoms (s : State) : List Nat :=
  (s.adm.doms.filter fun e => e.2.st == .live || e.2.st == .draining || e.2.st == .killing).map (·.1)

theorem mem_hitDoms {s : State} {d : Nat} : d ∈ hitDoms s ↔ ∃ x, (d, x) ∈ s.adm.doms ∧ x.st ∈ [.live, .draining, .killing] := by
  simp [hitDoms, or_assoc]

/-- A domain in one of those states has an entry that says so. -/
theorem mem_hitDoms_of_st {s : State} {d : Nat} (h : (s.dom d).st ∈ [.live, .draining, .killing]) : d ∈ hitDoms s := by
  cases hentry : tget s.adm.doms d with
  | none => simp [State.dom, hentry, Dom.fresh] at h
  | some x =>
    rw [State.dom, hentry] at h
    exact mem_hitDoms.mpr ⟨x, mem_of_tget hentry, h⟩

/-- A fatal error stops the domains that were at work, and is heard of. -/
theorem fatalNow_fatalError {s : State} (hfatal : s.sys.fatal = none) (reason kind : Nat) :
    FatalNow s (fatalError s reason kind) reason kind := by
  have herror : fatalError s reason kind =
      (hitDoms s).foldl (fun s d => stopDomain s d reason 0 0 0) (interrupt (s.setSys { s.sys with fatal := some reason }) 0 kind) := by
    simp [fatalError, hfatal, hitDoms]
  have hsys := foldl_keeps State.sys _ (fun s d => stopDomain_sys s d reason) (hitDoms s)
    (interrupt (s.setSys { s.sys with fatal := some reason }) 0 kind)
  rw [herror, FatalNow, hsys]
  refine ⟨rfl, by simp [interrupt], fun d => ⟨fun hst => ?_, fun hst hentries => ?_⟩⟩
  · rw [dom_stopDomains, if_pos (mem_hitDoms_of_st hst)]
    exact ⟨rfl, rfl⟩
  · have hmiss : d ∉ hitDoms s := fun hmem => by
      obtain ⟨x, hx, hx'⟩ := mem_hitDoms.mp hmem
      exact hst (hentries _ hx rfl ▸ hx')
    rw [dom_stopDomains, if_neg hmiss]
    rfl

theorem exec_fabricError {s : State} (hev : s.ctl.ev = some .fabricError) :
    exec .fabricError s = .next (whenUp s fun s => fatalError s 4 iFABRIC) := by
  change execFabricError s = _
  simp only [execFabricError, hev]

theorem exec_thermalStop {s : State} (hev : s.ctl.ev = some .thermalStop) :
    exec .thermalStop s = .next (whenUp s fun s => fatalError s 5 iTHERMAL) := by
  change execThermalStop s = _
  simp only [execThermalStop, hev]

/-- A device that has met a fatal error meets no other. -/
theorem fatalError_of_fatal {s : State} (hfatal : s.sys.fatal ≠ none) (reason kind : Nat) : fatalError s reason kind = s :=
  if_pos (Option.isSome_iff_ne_none.mpr hfatal)

/-! ## The arithmetic clock (23 R378, R379) -/

theorem exec_thermalClockStep {s : State} {hot : Bool} (hev : s.ctl.ev = some (.thermalClockStep hot)) :
    exec .thermalClockStep s = .next (whenUp s fun s =>
      if hot then s.setSys { s.sys with mhz := max 500 (s.sys.mhz - 50), throttle := true }
      else s.setSys { s.sys with throttle := false }) := by
  change execThermalClockStep s = _
  simp only [execThermalClockStep, hev]
  rfl

theorem exec_powerClockStep {s : State} {rise : Bool} (hev : s.ctl.ev = some (.powerClockStep rise)) :
    exec .powerClockStep s = .next (whenUp s fun s =>
      if !rise then clockDown s
      else if s.sys.throttle then s else s.setSys { s.sys with mhz := min 1000 (s.sys.mhz + 50) }) := by
  change execPowerClockStep s = _
  simp only [execPowerClockStep, hev]

/-! ## Rails, reset and bring-up (23 R377, R380) -/

theorem always_railFault {s : State} {p : State → Prop} (hp : p ((heldInReset s).setSys { (heldInReset s).sys with rail := true })) :
    Always .railFault .railFault s p := by
  intro hev
  refine ⟨_, ?_, hp⟩
  change execRailFault s = _
  simp only [execRailFault, hev]

theorem always_deviceReset {s : State} {b : BringUp} {p : State → Prop} (hp : p (deviceReset s b)) :
    Always .deviceReset (.deviceReset b) s p := by
  intro hev
  refine ⟨_, ?_, hp⟩
  change execDeviceReset s = _
  simp only [execDeviceReset, hev]

/-- Every link is DOWN after a reset. -/
theorem link_deviceReset (s : State) (b : BringUp) {n : Nat} (hn : n < 8) : ((deviceReset s b).link n).st = 0 := by
  have hdown : ∀ n < 8, (((List.replicate 8 (⟨0, 0, 0, 0⟩ : Link))[n]?).getD ⟨0, 0, 0, 0⟩).st = 0 := by decide
  exact hdown n hn

/-- Without a bypass, bring-up completes where the host link has trained, each die has a slice, and the table region is whole pages of
device memory. -/
theorem bringUpLegal_of_whole {b : BringUp} (hbypass : b.bypass = []) (hlanes : b.hostLanes = 16 ∨ b.hostLanes = 8)
    (hslices : ∀ d, d < 4 → ∃ n, n < 32 ∧ (d, n) ∉ b.harvest) (hbase : b.tbase % 2 ^ 14 = 0) (hsize : b.tsize % 2 ^ 14 = 0)
    (hend : b.tbase + b.tsize ≤ 2 ^ 39) : bringUpLegal b = true := by
  have hdies : ((upTo 4).all fun d => (upTo 32).any fun n => !b.harvest.contains (d, n)) = true := by
    simpa [upTo] using hslices
  simp only [bringUpLegal, Bool.and_eq_true, hdies, decide_eq_true_eq]
  exact ⟨⟨⟨by simpa using hlanes, by simp [bypassLegal, hbypass]⟩, trivial⟩, hbase, hsize, hend⟩

/-- Bring-up does not complete without a trained host link. -/
theorem bringUpLegal_of_untrained {b : BringUp} (h16 : b.hostLanes ≠ 16) (h8 : b.hostLanes ≠ 8) : bringUpLegal b = false := by
  simp [bringUpLegal, h16, h8]

/-- Bring-up does not complete where a die has lost every slice. -/
theorem bringUpLegal_of_harvested {b : BringUp} {d : Nat} (hd : d < 4) (hlost : ∀ n, n < 32 → (d, n) ∈ b.harvest) :
    bringUpLegal b = false := by
  have hdie : ((upTo 4).all fun d => (upTo 32).any fun n => !b.harvest.contains (d, n)) = false := by
    simp only [upTo, List.all_eq_false, List.mem_range, Bool.not_eq_true, List.any_eq_false]
    exact ⟨d, hd, fun n hn => by simpa using hlost n hn⟩
  simp only [bringUpLegal, hdie, Bool.and_false, Bool.false_and]

/-! ## The claim -/

/-- The fatal errors, the clock, the rails and the reset. -/
theorem packageEvents : Claims.Package := by
  intro s
  refine ⟨fun hfatal => ⟨leads_whenUp exec_fabricError (fatalNow_fatalError hfatal 4 iFABRIC),
      leads_whenUp exec_thermalStop (fatalNow_fatalError hfatal 5 iTHERMAL)⟩,
    fun hfatal => ⟨leads_whenUp exec_fabricError (fatalError_of_fatal hfatal _ _),
      leads_whenUp exec_thermalStop (fatalError_of_fatal hfatal _ _)⟩,
    leads_whenUp exec_thermalClockStep rfl, leads_whenUp exec_thermalClockStep rfl, leads_whenUp exec_powerClockStep rfl,
    leads_whenUp exec_powerClockStep rfl,
    always_railFault ⟨rfl, rfl, rfl, rfl, rfl, rfl, rfl, rfl⟩, fun b => always_deviceReset ?_⟩
  refine ⟨rfl, rfl, rfl, rfl, rfl, rfl, rfl, rfl, rfl, rfl, rfl, fun n hn => link_deviceReset s b hn, fun _ => rfl, fun _ => rfl,
    fun hbypass hlanes hslices hbase hsize hend => ⟨bringUpLegal_of_whole hbypass hlanes hslices hbase hsize hend, rfl, rfl⟩,
    bringUpLegal_of_untrained, fun d hd hlost => bringUpLegal_of_harvested hd hlost⟩

/-- Settles O49: what is tried again when a link goes down leaves the links and what groups await, and a fatal error stops each domain
that its table lists at work. -/
theorem linksAndPackage : Obligations.LinksAndPackage := ⟨links, packageEvents⟩

end Sys2Proof.Links
end
